-- ==== Sys2Proof/Word.lean ====
section
/-! DEFINITION. The word types of the machine and the plain bit helpers that every other file uses.
Bits are written as the manual writes them, bit 0 the least significant (R4). -/

namespace Sys2Proof

/-- One byte of memory. -/
abbrev Byte := BitVec 8

/-- A 32-bit register, parcel or parameter word. -/
abbrev Word := BitVec 32

/-- A 64-bit value held in an even pair, low half first (R36). -/
abbrev DWord := BitVec 64

/-- A mask with one bit per lane of a wave (R17). -/
abbrev Lanes := BitVec 32

/-- Bits `[hi:lo]` of a natural number, as an unsigned integer (the manual's `x[hi:lo]`). -/
def natBits (x hi lo : Nat) : Nat := (x >>> lo) % 2 ^ (hi + 1 - lo)

/-- The manual's `sext(x, n)`: `x` taken as `n`-bit two's complement. -/
def sext (x n : Nat) : Int :=
  let y := x % 2 ^ n
  if 2 * y < 2 ^ n then (y : Int) else (y : Int) - (2 ^ n : Nat)

/-- The manual's `trunc(x, n)`: `x` modulo 2ⁿ, as a natural number. -/
def truncI (x : Int) (n : Nat) : Nat := (x % ((2 ^ n : Nat) : Int)).toNat

/-- The manual's `sat_s(x, n)`: `x` clamped to the signed range of `n` bits. -/
def satS (x : Int) (n : Nat) : Int :=
  let hi : Int := ((2 ^ (n - 1) : Nat) : Int) - 1
  let lo : Int := - ((2 ^ (n - 1) : Nat) : Int)
  if x > hi then hi else if x < lo then lo else x

/-- The manual's `sat_u(x, n)`: `x` clamped to the unsigned range of `n` bits. -/
def satU (x : Int) (n : Nat) : Int :=
  let hi : Int := ((2 ^ n : Nat) : Int) - 1
  if x > hi then hi else if x < 0 then 0 else x

/-- The number of bits of `x` up to its highest set bit; 0 for 0. -/
def bitLen (x : Nat) : Nat := if x = 0 then 0 else x.log2 + 1

/-- The number of set bits among bits 0 to `n` − 1 of `x`. -/
def popCount (x n : Nat) : Nat := (List.range n).foldl (fun c i => if x.testBit i then c + 1 else c) 0

/-- The numbers of the set bits of a lane mask, ascending. -/
def lanesOf (m : Lanes) : List Nat := (List.range 32).filter (fun i => m.getLsbD i)

/-- The lane mask that holds the single lane `i`. -/
def laneBit (i : Nat) : Lanes := BitVec.ofNat 32 (2 ^ i)

/-- The lane mask of a list of lane numbers. -/
def maskOf (l : List Nat) : Lanes := l.foldl (fun m i => m ||| laneBit i) 0

end Sys2Proof
end

