-- ==== Sys2Proof/Syntax.lean ====
section
/-! DEFINITION. The instructions and machine steps, one constructor for each row of the opcode table.
An instruction of the three opcode maps carries the raw fields of its form (R80 to R90), under the manual's names.
A row that is an event or an operation carries the plain numbers that say which of the machine's pending things it acts on. -/

namespace Sys2Proof

/-- Form F32A, two register (R80): END, GUARD, D, A, X. -/
structure F32A where
  (e : Bool) (g : BitVec 5) (d : BitVec 8) (a : BitVec 8) (x : Bool)
  deriving DecidableEq, Repr

/-- Form F32I, register and immediate (R80): END, GUARD, D, IMM9. -/
structure F32I where
  (e : Bool) (g : BitVec 5) (d : BitVec 8) (imm : BitVec 9)
  deriving DecidableEq, Repr

/-- Form F32J, jump (R80): END, GUARD, OFF17. -/
structure F32J where
  (e : Bool) (g : BitVec 5) (off : BitVec 17)
  deriving DecidableEq, Repr

/-- Form F32Z, function (R80): END, GUARD, FN17. -/
structure F32Z where
  (e : Bool) (g : BitVec 5) (fn : BitVec 17)
  deriving DecidableEq, Repr

/-- Form F64R, register (R81, R82). -/
structure F64R where
  (e : Bool) (g : BitVec 5) (d : BitVec 8) (a : BitVec 8)
  (b : BitVec 8) (c : BitVec 8) (rnd : BitVec 2) (cd : BitVec 2) (ca : BitVec 2) (cb : BitVec 2) (cc : BitVec 2)
  (fn : BitVec 6)
  deriving DecidableEq, Repr

/-- Form F64M, memory (R81, R82). -/
structure F64M where
  (e : Bool) (g : BitVec 5) (d : BitVec 8) (a : BitVec 8)
  (b : BitVec 8) (off : BitVec 12) (sp : BitVec 3) (sz : BitVec 3) (cb : BitVec 2) (fn4 : BitVec 4)
  deriving DecidableEq, Repr

/-- Form F64R with the four parameter words of a tensor shape record (R89). -/
structure F64P where
  (r : F64R) (w0 : Word) (w1 : Word) (w2 : Word) (w3 : Word)
  deriving DecidableEq, Repr

/-- Form F96R (R83): F64R and LIT32. -/
structure F96R where
  (r : F64R) (lit : Word)
  deriving DecidableEq, Repr

/-- Form F96M (R83): F64M and LIT32. -/
structure F96M where
  (m : F64M) (lit : Word)
  deriving DecidableEq, Repr

/-- The head of a command of a command queue (R440, R441): the package, the issuing function (0 the management
function, n + 1 virtual interface n) and the TAG. -/
structure CmdHead where
  (pkg : Nat) (fn : Nat) (tag : Word)
  deriving DecidableEq, Repr

/-- What an RDESC command writes: a remote descriptor (R353) or a region entry (R354), by its index and its bits. -/
inductive RdescArg where
  | remote (i : Nat) (entry : BitVec 256)
  | region (i : Nat) (entry : BitVec 256)
  deriving DecidableEq, Repr

/-- One constructor for each row of the opcode table. -/
inductive Instr where
  /-- MOV_32 (R144) -/
  | mov32 (f : F32A)
  /-- MOV_64 (R144) -/
  | mov64 (f : F64R)
  /-- MOVI_32 (R144) -/
  | movi32 (f : F32I)
  /-- MOVI_96 (R144) -/
  | movi96 (f : F96R)
  /-- SEL_64 (R145) -/
  | sel64 (f : F64R)
  /-- SEL_96 (R145) -/
  | sel96 (f : F96R)
  /-- LEA_64 (R143) -/
  | lea64 (f : F64R)
  /-- LEA_96 (R143) -/
  | lea96 (f : F96R)
  /-- ISETP_64 (R146) -/
  | isetp64 (f : F64R)
  /-- ISETP_96 (R146) -/
  | isetp96 (f : F96R)
  /-- FSETP_64 (R146) -/
  | fsetp64 (f : F64R)
  /-- FSETP_96 (R146) -/
  | fsetp96 (f : F96R)
  /-- BFE_64 (R142) -/
  | bfe64 (f : F64R)
  /-- BFI_64 (R142) -/
  | bfi64 (f : F64R)
  /-- IADD_32 (R139) -/
  | iadd32 (f : F32A)
  /-- IADD_32I (R139) -/
  | iadd32i (f : F32I)
  /-- IADD_64 (R139) -/
  | iadd64 (f : F64R)
  /-- IADD_96 (R139) -/
  | iadd96 (f : F96R)
  /-- ISUB_32 (R139) -/
  | isub32 (f : F32A)
  /-- ISUB_64 (R139) -/
  | isub64 (f : F64R)
  /-- IMUL_32 (R139) -/
  | imul32 (f : F32A)
  /-- IMUL_32I (R139) -/
  | imul32i (f : F32I)
  /-- IMUL_64 (R139) -/
  | imul64 (f : F64R)
  /-- IMUL_96 (R139) -/
  | imul96 (f : F96R)
  /-- IMAD_64 (R139) -/
  | imad64 (f : F64R)
  /-- IMAD_96 (R139) -/
  | imad96 (f : F96R)
  /-- IMULH_64 (R139) -/
  | imulh64 (f : F64R)
  /-- IDIV_64 (R140) -/
  | idiv64 (f : F64R)
  /-- IREM_64 (R140) -/
  | irem64 (f : F64R)
  /-- IABS_32 (R139) -/
  | iabs32 (f : F32A)
  /-- IABS_64 (R139) -/
  | iabs64 (f : F64R)
  /-- IMIN_32 (R139) -/
  | imin32 (f : F32A)
  /-- IMIN_64 (R139) -/
  | imin64 (f : F64R)
  /-- IMAX_32 (R139) -/
  | imax32 (f : F32A)
  /-- IMAX_64 (R139) -/
  | imax64 (f : F64R)
  /-- SHL_32 (R141) -/
  | shl32 (f : F32A)
  /-- SHL_32I (R141) -/
  | shl32i (f : F32I)
  /-- SHL_64 (R141) -/
  | shl64 (f : F64R)
  /-- SHR_32 (R141) -/
  | shr32 (f : F32A)
  /-- SHR_32I (R141) -/
  | shr32i (f : F32I)
  /-- SHR_64 (R141) -/
  | shr64 (f : F64R)
  /-- SAR_32 (R141) -/
  | sar32 (f : F32A)
  /-- SAR_32I (R141) -/
  | sar32i (f : F32I)
  /-- SAR_64 (R141) -/
  | sar64 (f : F64R)
  /-- ROT_32 (R141) -/
  | rot32 (f : F32A)
  /-- ROT_32I (R141) -/
  | rot32i (f : F32I)
  /-- ROT_64 (R141) -/
  | rot64 (f : F64R)
  /-- POPC_32 (R139) -/
  | popc32 (f : F32A)
  /-- POPC_64 (R139) -/
  | popc64 (f : F64R)
  /-- CLZ_32 (R139) -/
  | clz32 (f : F32A)
  /-- CLZ_64 (R139) -/
  | clz64 (f : F64R)
  /-- AND_32 (R139) -/
  | and32 (f : F32A)
  /-- AND_32I (R139) -/
  | and32i (f : F32I)
  /-- AND_64 (R139) -/
  | and64 (f : F64R)
  /-- AND_96 (R139) -/
  | and96 (f : F96R)
  /-- OR_32 (R139) -/
  | or32 (f : F32A)
  /-- OR_32I (R139) -/
  | or32i (f : F32I)
  /-- OR_64 (R139) -/
  | or64 (f : F64R)
  /-- OR_96 (R139) -/
  | or96 (f : F96R)
  /-- XOR_32 (R139) -/
  | xor32 (f : F32A)
  /-- XOR_32I (R139) -/
  | xor32i (f : F32I)
  /-- XOR_64 (R139) -/
  | xor64 (f : F64R)
  /-- XOR_96 (R139) -/
  | xor96 (f : F96R)
  /-- NOT_32 (R139) -/
  | not32 (f : F32A)
  /-- NOT_64 (R139) -/
  | not64 (f : F64R)
  /-- BREV_32 (R139) -/
  | brev32 (f : F32A)
  /-- BREV_64 (R139) -/
  | brev64 (f : F64R)
  /-- FADD_32 (R147) -/
  | fadd32 (f : F32A)
  /-- FADD_64 (R147) -/
  | fadd64 (f : F64R)
  /-- FADD_96 (R147) -/
  | fadd96 (f : F96R)
  /-- FMUL_32 (R147) -/
  | fmul32 (f : F32A)
  /-- FMUL_64 (R147) -/
  | fmul64 (f : F64R)
  /-- FMUL_96 (R147) -/
  | fmul96 (f : F96R)
  /-- FFMA_64 (R147) -/
  | ffma64 (f : F64R)
  /-- FFMA_96 (R147) -/
  | ffma96 (f : F96R)
  /-- FMIN_32 (R147) -/
  | fmin32 (f : F32A)
  /-- FMIN_64 (R147) -/
  | fmin64 (f : F64R)
  /-- FMIN_96 (R147) -/
  | fmin96 (f : F96R)
  /-- FMAX_32 (R147) -/
  | fmax32 (f : F32A)
  /-- FMAX_64 (R147) -/
  | fmax64 (f : F64R)
  /-- FMAX_96 (R147) -/
  | fmax96 (f : F96R)
  /-- FRND_64 (R148) -/
  | frnd64 (f : F64R)
  /-- HFMA2_64 (R149) -/
  | hfma264 (f : F64R)
  /-- HFMA2_96 (R149) -/
  | hfma296 (f : F96R)
  /-- CVT_64 (R150) -/
  | cvt64 (f : F64R)
  /-- FRCP_64 (R151) -/
  | frcp64 (f : F64R)
  /-- FSQRT_64 (R151) -/
  | fsqrt64 (f : F64R)
  /-- FRSQ_64 (R151) -/
  | frsq64 (f : F64R)
  /-- FEXP2_64 (R151) -/
  | fexp264 (f : F64R)
  /-- FLOG2_64 (R151) -/
  | flog264 (f : F64R)
  /-- FSINPI_64 (R151) -/
  | fsinpi64 (f : F64R)
  /-- FCOSPI_64 (R151) -/
  | fcospi64 (f : F64R)
  /-- FTANH_64 (R151) -/
  | ftanh64 (f : F64R)
  /-- QUANT_64 (R152) -/
  | quant64 (f : F64R)
  /-- DEQ_64 (R153) -/
  | deq64 (f : F64R)
  /-- REQUANT_64 (R154) -/
  | requant64 (f : F64R)
  /-- CVT8_64 (R155) -/
  | cvt864 (f : F64R)
  /-- SCALE_64 (R156) -/
  | scale64 (f : F64R)
  /-- GROW_32 (R157) -/
  | grow32 (f : F32I)
  /-- GROW_64 (R157) -/
  | grow64 (f : F64R)
  /-- SHRINK_32 (R157) -/
  | shrink32 (f : F32I)
  /-- SHRINK_64 (R157) -/
  | shrink64 (f : F64R)
  /-- LANEID_32 (R176) -/
  | laneid32 (f : F32A)
  /-- PART_32 (R175) -/
  | part32 (f : F32I)
  /-- PART_64 (R175) -/
  | part64 (f : F64R)
  /-- PAND_32 (R170) -/
  | pand32 (f : F32A)
  /-- PAND_64 (R170) -/
  | pand64 (f : F64R)
  /-- POR_32 (R170) -/
  | por32 (f : F32A)
  /-- POR_64 (R170) -/
  | por64 (f : F64R)
  /-- PXOR_32 (R170) -/
  | pxor32 (f : F32A)
  /-- PXOR_64 (R170) -/
  | pxor64 (f : F64R)
  /-- PNOT_32 (R170) -/
  | pnot32 (f : F32A)
  /-- PNOT_64 (R170) -/
  | pnot64 (f : F64R)
  /-- JOIN_32 (R171) -/
  | join32 (f : F32A)
  /-- JOIN_64 (R171) -/
  | join64 (f : F64R)
  /-- LEAVE_32 (R171) -/
  | leave32 (f : F32A)
  /-- LEAVE_64 (R171) -/
  | leave64 (f : F64R)
  /-- WAITM_32 (R172) -/
  | waitm32 (f : F32A)
  /-- WAITM_64 (R172) -/
  | waitm64 (f : F64R)
  /-- BRA_32 (R165) -/
  | bra32 (f : F32J)
  /-- BRA_96 (R165) -/
  | bra96 (f : F96R)
  /-- CALL_32 (R165) -/
  | call32 (f : F32J)
  /-- CALL_96 (R165) -/
  | call96 (f : F96R)
  /-- SHFL_64 (R179) -/
  | shfl64 (f : F64R)
  /-- PUSH_64 (R180) -/
  | push64 (f : F64R)
  /-- VOTE_64 (R178) -/
  | vote64 (f : F64R)
  /-- REDUCE_64 (R181) -/
  | reduce64 (f : F64R)
  /-- SCAN_64 (R181) -/
  | scan64 (f : F64R)
  /-- BRX_64 (R166) -/
  | brx64 (f : F64R)
  /-- NOP_32 (R169) -/
  | nop32 (f : F32Z)
  /-- RET_32 (R167) -/
  | ret32 (f : F32Z)
  /-- TRET_32 (R417) -/
  | tret32 (f : F32Z)
  /-- BKPT_32 (R183) -/
  | bkpt32 (f : F32Z)
  /-- TRAP_32 (R182) -/
  | trap32 (f : F32Z)
  /-- EXIT_32 (R169) -/
  | exit32 (f : F32Z)
  /-- LD_64 (R247) -/
  | ld64 (f : F64M)
  /-- LD_96 (R247) -/
  | ld96 (f : F96M)
  /-- ST_64 (R248) -/
  | st64 (f : F64M)
  /-- ST_96 (R248) -/
  | st96 (f : F96M)
  /-- ATOM_64 (R249) -/
  | atom64 (f : F64M)
  /-- ATOM_96 (R249) -/
  | atom96 (f : F96M)
  /-- RED_64 (R249) -/
  | red64 (f : F64M)
  /-- RED_96 (R249) -/
  | red96 (f : F96M)
  /-- WAITA_64 (R261) -/
  | waita64 (f : F64M)
  /-- POLL_64 (R263) -/
  | poll64 (f : F64M)
  /-- PREF_64 (R264) -/
  | pref64 (f : F64M)
  /-- PREF_96 (R264) -/
  | pref96 (f : F96M)
  /-- CWB_64 (R265) -/
  | cwb64 (f : F64M)
  /-- CINV_64 (R265) -/
  | cinv64 (f : F64M)
  /-- DEVL_64 (R259) -/
  | devl64 (f : F64M)
  /-- RPUT_64 (R355) -/
  | rput64 (f : F64M)
  /-- RPUT_96 (R355) -/
  | rput96 (f : F96M)
  /-- RGET_64 (R355) -/
  | rget64 (f : F64M)
  /-- RGET_96 (R355) -/
  | rget96 (f : F96M)
  /-- RATOM_64 (R355) -/
  | ratom64 (f : F64M)
  /-- RATOM_96 (R355) -/
  | ratom96 (f : F96M)
  /-- ORD_64 (R244) -/
  | ord64 (f : F64R)
  /-- REL_64 (R257) -/
  | rel64 (f : F64R)
  /-- ACQ_64 (R258) -/
  | acq64 (f : F64R)
  /-- FENCE_32 (R256) -/
  | fence32 (f : F32Z)
  /-- FENCE_64 (R256) -/
  | fence64 (f : F64R)
  /-- WAIT_64 (R384) -/
  | wait64 (f : F64R)
  /-- BARI_64 (R390) -/
  | bari64 (f : F64R)
  /-- WAITB_64 (R393) -/
  | waitb64 (f : F64R)
  /-- WAITB_TAG_64 (R400) -/
  | waitbTag64 (f : F64R)
  /-- BART_64 (R399) -/
  | bart64 (f : F64R)
  /-- BADD_64 (R392) -/
  | badd64 (f : F64R)
  /-- CSRR_32 (R381) -/
  | csrr32 (f : F32I)
  /-- CSRR_64 (R381) -/
  | csrr64 (f : F64R)
  /-- CSRW_32 (R381) -/
  | csrw32 (f : F32I)
  /-- CSRW_64 (R381) -/
  | csrw64 (f : F64R)
  /-- VACATE_64 (R429) -/
  | vacate64 (f : F64R)
  /-- FREEZE_64 (R431) -/
  | freeze64 (f : F64R)
  /-- THAW_64 (R435) -/
  | thaw64 (f : F64R)
  /-- RSV_64 (R271) -/
  | rsv64 (f : F64P)
  /-- RLS_64 (R272) -/
  | rls64 (f : F64R)
  /-- CVDECL_64 (R275) -/
  | cvdecl64 (f : F64R)
  /-- SIGN_32 (R276) -/
  | sign32 (f : F32A)
  /-- SIGN_64 (R276) -/
  | sign64 (f : F64R)
  /-- MMA_64 (R279) -/
  | mma64 (f : F64R)
  /-- MDRAIN_64 (R284) -/
  | mdrain64 (f : F64P)
  /-- MBYP_64 (R286) -/
  | mbyp64 (f : F64R)
  /-- RSTAT_64 (R287) -/
  | rstat64 (f : F64R)
  /-- LSTREAM_64 (R291) -/
  | lstream64 (f : F64P)
  /-- LSMERGE_64 (R294) -/
  | lsmerge64 (f : F64R)
  /-- LSGRAD_64 (R295) -/
  | lsgrad64 (f : F64P)
  /-- CPY_64 (R311) -/
  | cpy64 (f : F64P)
  /-- PLANE_64 (R314) -/
  | plane64 (f : F64P)
  /-- GATHER_64 (R316) -/
  | gather64 (f : F64P)
  /-- POOL_64 (R316) -/
  | pool64 (f : F64P)
  /-- COLL_START_64 (R332) -/
  | collStart64 (f : F64R)
  /-- COLL_STOP_64 (R332) -/
  | collStop64 (f : F64R)
  /-- COLL_STATUS_64 (R332) -/
  | collStatus64 (f : F64R)
  /-- SPAWN_64 (R324) -/
  | spawn64 (f : F64R)
  /-- TDONE_64 (R320) -/
  | tdone64 (f : F64R)
  /-- PHASE_32 (R327) -/
  | phase32 (f : F32Z)
  /-- PHASE_64 (R327) -/
  | phase64 (f : F64R)
  /-- INVALIDATE (R194) -/
  | invalidate (c : CmdHead) (base len : Nat)
  /-- BMREAD (R370) -/
  | bmread (c : CmdHead) (first n : Nat)
  /-- ESLOAD (R376) -/
  | esload (c : CmdHead) (die image : Nat)
  /-- PHASESET (R403) -/
  | phaseset (c : CmdHead) (die value : Nat)
  /-- RINGCFG (R299) -/
  | ringcfg (c : CmdHead) (ring base size ctl : Nat)
  /-- RDESC (R353) -/
  | rdesc (c : CmdHead) (r : RdescArg)
  /-- BUFMAP (R372) -/
  | bufmap (c : CmdHead) (i : Nat) (entry : BitVec 256)
  /-- WAVECTL_RESUME (R444) -/
  | wavectlResume (c : CmdHead) (lcore slot : Nat)
  /-- WAVECTL_END (R444) -/
  | wavectlEnd (c : CmdHead) (lcore slot : Nat)
  /-- WAVECTL_FRAME (R444) -/
  | wavectlFrame (c : CmdHead) (lcore slot : Nat)
  /-- SYSOP_VACATE (R429) -/
  | sysopVacate (c : CmdHead) (base cores : Nat)
  /-- SYSOP_FREEZE (R431) -/
  | sysopFreeze (c : CmdHead) (base size : Nat)
  /-- SYSOP_THAW (R435) -/
  | sysopThaw (c : CmdHead) (base : Nat)
  /-- CTRREAD (R404) -/
  | ctrread (c : CmdHead) (counter unit : Nat) (clear : Bool)
  /-- PARTSET (R378) -/
  | partset (c : CmdHead) (vi : Nat) (entry : BitVec 2048)
  /-- LCTSET (R377) -/
  | lctset (c : CmdHead) (vi i : Nat) (entry : BitVec 16)
  /-- LINKCTL_RETRAIN (R445) -/
  | linkctlRetrain (c : CmdHead) (port : Nat)
  /-- LINKCTL_DISABLE (R445) -/
  | linkctlDisable (c : CmdHead) (port : Nat)
  /-- POWERCAP (R447) -/
  | powercap (c : CmdHead) (watts : Nat)
  /-- FEATLOCK (R379) -/
  | featlock (c : CmdHead) (vi : Nat) (featen : BitVec 256)
  /-- ISSUE_ARBITRATION (R26) -/
  | issueArbitration (core : Nat)
  /-- PROGRESS_OVERRIDE (R32) -/
  | progressOverride (core : Nat)
  /-- CONTINUATION_READY (R28) -/
  | continuationReady (w i : Nat)
  /-- DEFERRED_FAULT_FOUND (R243) -/
  | deferredFaultFound (op : Nat)
  /-- TRAP_DELIVERY (R408) -/
  | trapDelivery (w : Nat)
  /-- LOAD_DATA_RETURN (R247) -/
  | loadDataReturn (op : Nat)
  /-- STORE_PERFORMED (R248) -/
  | storePerformed (op : Nat)
  /-- ATOM_RESULT_RETURN (R251) -/
  | atomResultReturn (op : Nat)
  /-- PAGE_WALK_COMPLETE (R195) -/
  | pageWalkComplete (walk : Nat)
  /-- ACTIVE_MESSAGE (R202) -/
  | activeMessage (op : Nat)
  /-- OTHER_DIE_READ (R203) -/
  | otherDieRead (die line : Nat)
  /-- OTHER_DIE_WRITE (R203) -/
  | otherDieWrite (die line : Nat)
  /-- L2_EVICTION (R207) -/
  | l2Eviction (level unit line : Nat)
  /-- BACK_INVALIDATION (R204) -/
  | backInvalidation (line holder : Nat)
  /-- BACK_INVALIDATION_ANSWER (R205) -/
  | backInvalidationAnswer (line holder : Nat)
  /-- BISNP (R205) -/
  | bisnp (pkg line : Nat)
  /-- REGION_MODE_SWITCH (R206) -/
  | regionModeSwitch (c : CmdHead) (base len : Nat)
  /-- FENCE_COMPLETE (R216) -/
  | fenceComplete (op : Nat)
  /-- DEVL_PERFORMED (R233) -/
  | devlPerformed (op : Nat)
  /-- WAITA_WAKE (R261) -/
  | waitaWake (w i : Nat)
  /-- WAITA_TIMEOUT (R261) -/
  | waitaTimeout (w i : Nat)
  /-- WAITA_REREAD (R262) -/
  | waitaReread (w i : Nat)
  /-- UNCORRECTABLE_ERROR (R253) -/
  | uncorrectableError (space addr : Nat)
  /-- CORRECTED_ERROR (R448) -/
  | correctedError (die unit addr : Nat)
  /-- ALLOCATOR_PASS (R158) -/
  | allocatorPass (core : Nat)
  /-- GROW_SPILL (R159) -/
  | growSpill (core : Nat)
  /-- SPILL_RESTORE (R160) -/
  | spillRestore (core crew : Nat)
  /-- WAVE_SLOT_RELEASE (R169) -/
  | waveSlotRelease (w : Nat)
  /-- ENGINE_ENTRY_PUSH (R308) -/
  | engineEntryPush (e : Nat)
  /-- COPY_COMMAND_START (R311) -/
  | copyCommandStart (core ch : Nat)
  /-- COPY_FLIT_DELIVERY (R312) -/
  | copyFlitDelivery (core ch : Nat)
  /-- COPY_BLOCK_VERIFIED (R312) -/
  | copyBlockVerified (core ch : Nat)
  /-- CHAN_TAG_FAIL (R395) -/
  | chanTagFail (core ch : Nat)
  /-- COPY_BLOCK_REFETCH (R396) -/
  | copyBlockRefetch (core ch : Nat)
  /-- COPY_COMPLETE (R311) -/
  | copyComplete (core ch : Nat)
  /-- GATHER_POOL_COMPLETE (R316) -/
  | gatherPoolComplete (cluster i : Nat)
  /-- MATRIX_OP_COMPLETE (R280) -/
  | matrixOpComplete (core : Nat)
  /-- LAUNCH (R302) -/
  | launch (ring : Nat)
  /-- TASKS (R319) -/
  | tasks (ring : Nat)
  /-- NODES (R323) -/
  | nodes (ring : Nat)
  /-- EVENT (R484) -/
  | event (ring : Nat)
  /-- WAITV (R484) -/
  | waitv (ring : Nat)
  /-- EVENT_WRITE (R484) -/
  | eventWrite (ring : Nat)
  /-- WAITV_SATISFIED (R484) -/
  | waitvSatisfied (ring : Nat)
  /-- RING_RESTART (R303) -/
  | ringRestart (ring : Nat) (tail : Option Nat)
  /-- CREW_PLACEMENT (R304) -/
  | crewPlacement (die : Nat)
  /-- TASK_COMPLETION_APPLY (R321) -/
  | taskCompletionApply (die : Nat)
  /-- TASK_LAUNCH_FETCH (R322) -/
  | taskLaunchFetch (pkg : Nat)
  /-- BATCH_TIMER_EXPIRY (R325) -/
  | batchTimerExpiry (die bin : Nat)
  /-- BATCH_LAUNCH (R326) -/
  | batchLaunch (die : Nat)
  /-- SEND (R337) -/
  | send (ctx : Nat)
  /-- RECV (R337) -/
  | recv (ctx : Nat)
  /-- RSCAT (R337) -/
  | rscat (ctx : Nat)
  /-- AGATH (R337) -/
  | agath (ctx : Nat)
  /-- MCAST (R337) -/
  | mcast (ctx : Nat)
  /-- SIGNAL (R337) -/
  | signal (ctx : Nat)
  /-- LOOP (R337) -/
  | loop (ctx : Nat)
  /-- HALT (R337) -/
  | halt (ctx : Nat)
  /-- COLL_BAD_COMMAND (R113) -/
  | collBadCommand (ctx : Nat)
  /-- COLL_RESERVED_COMMAND (R113) -/
  | collReservedCommand (ctx : Nat)
  /-- WORD_COMPLETE (R337) -/
  | wordComplete (ctx : Nat)
  /-- COLL_TIMEOUT (R340) -/
  | collTimeout (ctx : Nat)
  /-- ABORT_PACKET (R340) -/
  | abortPacket (ctx : Nat)
  /-- FREEZE_NOTICE (R428) -/
  | freezeNotice (ctx : Nat)
  /-- THAW_NOTICE (R437) -/
  | thawNotice (ctx : Nat)
  /-- FWD (R343) -/
  | fwd (pkt : Nat)
  /-- ADD_F32 (R345) -/
  | addF32 (pkt : Nat)
  /-- ADD_BF16 (R345) -/
  | addBf16 (pkt : Nat)
  /-- ROUTE_MCAST (R347) -/
  | routeMcast (pkt : Nat)
  /-- DELIVER (R343) -/
  | deliver (pkt : Nat)
  /-- ROUTE_SIGNAL (R343) -/
  | routeSignal (pkt : Nat)
  /-- ROUTE_ERROR_NOTICE (R344) -/
  | routeErrorNotice (pkt : Nat)
  /-- RESEND_REQUEST (R344) -/
  | resendRequest (pkt : Nat)
  /-- FLIT_RECEIVE (R349) -/
  | flitReceive (port : Nat) (crcGood : Bool)
  /-- ACK (R349) -/
  | ack (port : Nat)
  /-- NAK (R349) -/
  | nak (port : Nat)
  /-- ACK_TIMER (R349) -/
  | ackTimer (port : Nat)
  /-- NAK_REPEAT_TIMER (R349) -/
  | nakRepeatTimer (port : Nat)
  /-- REPLAY_TIMER (R349) -/
  | replayTimer (port : Nat)
  /-- PORT_DOWN (R350) -/
  | portDown (port : Nat)
  /-- DROP_NOTICE (R351) -/
  | dropNotice (pkt : Nat)
  /-- DROP_GATHER_TIMER (R351) -/
  | dropGatherTimer (i : Nat)
  /-- RESERVATION_REQUEST (R351) -/
  | reservationRequest (i slot : Nat)
  /-- RESERVATION_GRANT (R351) -/
  | reservationGrant (i : Nat)
  /-- RESERVED_WINDOW_START (R351) -/
  | reservedWindowStart (i : Nat)
  /-- REMOTE_ACCESS_REQUEST (R192) -/
  | remoteAccessRequest (op : Nat)
  /-- REMOTE_ACCESS_RESPONSE (R192) -/
  | remoteAccessResponse (op : Nat)
  /-- NET_REQUEST (R359) -/
  | netRequest (req : Nat)
  /-- NET_RESPONSE (R355) -/
  | netResponse (req rttNs : Nat)
  /-- STALE_NOTICE (R359) -/
  | staleNotice (req : Nat)
  /-- NET_RETRY_TIMER (R358) -/
  | netRetryTimer (req : Nat)
  /-- BUSY_RESEND_TIMER (R359) -/
  | busyResendTimer (req : Nat)
  /-- RESPONSE_ACK (R359) -/
  | responseAck (req : Nat)
  /-- ATOMIC_CACHE_EXPIRY (R359) -/
  | atomicCacheExpiry (die i : Nat)
  /-- REGION_CONTEXT_FILL (R360) -/
  | regionContextFill (die region : Nat)
  /-- DCD_EXTENT_ADDED (R363) -/
  | dcdExtentAdded (pkg port base len : Nat)
  /-- CXL_RESPONSE_TIMEOUT (R364) -/
  | cxlResponseTimeout (op : Nat)
  /-- BARRIER_COUNTING_CYCLE (R391) -/
  | barrierCountingCycle (obj : Nat)
  /-- BARRIER_AUTO_RECOMPLETE (R391) -/
  | barrierAutoRecomplete (obj : Nat)
  /-- ROUTE_TAG_RELEASE (R400) -/
  | routeTagRelease (die tag : Nat)
  /-- DRAIN_ENGINE_TIMEOUT (R426) -/
  | drainEngineTimeout (vif : Nat)
  /-- SYSTEM_OP_COMPLETE (R425) -/
  | systemOpComplete (vif : Nat)
  /-- LINK_TRAINING_COMPLETE (R445) -/
  | linkTrainingComplete (port : Nat) (ok : Bool)
  /-- COLD_RESET (R446) -/
  | coldReset (pkg : Nat) (imageGood : Bool)
  /-- DEVICE_RESET (R446) -/
  | deviceReset (pkg : Nat) (imageGood : Bool)
  /-- INTERFACE_RESET (R450) -/
  | interfaceReset (vif : Nat)
  /-- POWER_CONTROL_TICK (R447) -/
  | powerControlTick (pkg watts temp0 temp1 : Nat)
  /-- CORE_FAILURE (R377) -/
  | coreFailure (core : Nat)
  /-- DCD_EXTENT_RELEASE (R363) -/
  | dcdExtentRelease (pkg port base len : Nat)
  /-- BUSY_ANSWER (R359) -/
  | busyAnswer (req : Nat)
  /-- UNKNOWN_OPCODE (R303) -/
  | unknownOpcode (ring : Nat)
  /-- STRADDLE (R303) -/
  | straddle (ring : Nat)
  deriving DecidableEq, Repr

end Sys2Proof
end

