-- ==== Sys2Proof/WellFormed.lean ====
section
/-! DEFINITION. Which field values an instruction accepts: the checks whose failure is 0x002 RESERVED_FIELD (R84, R85,
R87, R89 to R91) and that the instruction's own words decide. A `k0` destination, a tile width, an unordered fence, a step
count of 0 and the values that a marker substitutes are judged where the instruction runs. -/

namespace Sys2Proof

/-- The register file or constant that a 2-bit class and its 8-bit field name (R84). -/
inductive OpKind where
  | v | s | p | k | cv | a | ob | bt | imm
  deriving DecidableEq, Repr

/-- The operand that a class and a field name, or none for a reserved kind, for a `q` register, which no instruction
accepts (log entry 7), and for an index beyond the limits of R84. -/
def opKind (cls : BitVec 2) (f : BitVec 8) : Option OpKind :=
  match cls.toNat with
  | 0 => some .v
  | 1 => if f.toNat < 128 then some .s else none
  | 3 => some .imm
  | _ =>
    let i := f.toNat % 32
    match f.toNat / 32 with
    | 0 => if i ≤ 11 then some .p else none
    | 1 => if i ≤ 11 then some .k else none
    | 3 => if i ≤ 7 then some .cv else none
    | 4 => if i ≤ 7 then some .a else none
    | 5 => some .ob
    | 6 => if i ≤ 7 then some .bt else none
    | _ => none

/-- The operand is one of the kinds `ks`; with no kind, the instruction lacks the operand, so its field and class are
zero (R84). -/
def accepts (ks : List OpKind) (cls : BitVec 2) (f : BitVec 8) : Bool :=
  match ks with
  | [] => cls == 0 && f == 0
  | _ => match opKind cls f with
    | some k => ks.contains k
    | none => false

/-- A GUARD field that R87 does not reserve. -/
def guardOk (g : BitVec 5) : Bool :=
  let pred := g.toNat % 16
  pred ≤ 11 || (pred == 15 && g.toNat < 16)

/-- A register pair starts at an even register (R85); an immediate has no start. -/
def evenOp (cls : BitVec 2) (f : BitVec 8) : Bool := cls == 3 || f.toNat % 2 == 0

/-- A 2-bit slice, a 4-bit slice and single bits of FN, as numbers. -/
def fnBits (fn : BitVec 6) (hi lo : Nat) : Nat := natBits fn.toNat hi lo

/-- The checks common to F64R: the guard, the four operands, RND and FN (R82, R84, R87). -/
def wfR (f : F64R) (d a b c : List OpKind) (rounds : Bool) (fnOk : Bool) : Bool :=
  guardOk f.g && accepts d f.cd f.d && accepts a f.ca f.a && accepts b f.cb f.b && accepts c f.cc f.c
    && (rounds || f.rnd == 0) && fnOk

/-- Sources of an instruction whose destination may be scalar or vector (R105, R133): a scalar destination takes no
vector source. -/
def aluSrc (f : F64R) : List OpKind := if f.cd == 1 then [.s, .imm] else [.v, .s, .imm]

/-- The same for the first source, which is never an immediate (R84). -/
def aluSrcA (f : F64R) : List OpKind := if f.cd == 1 then [.s] else [.v, .s]

/-- The checks of a register instruction of R133 with `n` sources. -/
def wfAlu (f : F64R) (n : Nat) (rounds : Bool) (fnOk : Bool) : Bool :=
  wfR f [.v, .s] (aluSrcA f) (if n ≥ 2 then aluSrc f else []) (if n ≥ 3 then aluSrc f else []) rounds fnOk

/-- FN of the integer cells (R106): SAT and U where allowed, the widths allowed, OPT zero unless `opt`. -/
def intFn (f : F64R) (sat uns packed : Bool) (opt : Nat) : Bool :=
  (sat || fnBits f.fn 5 5 == 0) && (uns || fnBits f.fn 4 4 == 0) && (packed || fnBits f.fn 3 2 ≤ 1)
    && fnBits f.fn 1 0 ≤ opt

/-- W = 01, 64-bit values in pairs (R106). -/
def isW64 (f : F64R) : Bool := fnBits f.fn 3 2 == 1

/-- Evenness of the operands that are pairs at W = 01 (R85, R135). -/
def pairsIf (w : Bool) (f : F64R) (d a b c : Bool) : Bool :=
  !w || ((!d || evenOp f.cd f.d) && (!a || evenOp f.ca f.a) && (!b || evenOp f.cb f.b) && (!c || evenOp f.cc f.c))

/-- FN of the floating cells (R108). -/
def fltFn (f : F64R) (nc : Bool) (fmts : List Nat) : Bool :=
  fnBits f.fn 5 4 == 0 && (nc || fnBits f.fn 3 3 == 0) && fmts.contains (fnBits f.fn 1 0)

/-- FMT = 01, FP64 in pairs (R108). -/
def isF64 (f : F64R) : Bool := fnBits f.fn 1 0 == 1

/-- A scalar pair operand: class 01 and even. -/
def sPair (cls : BitVec 2) (f : BitVec 8) : Bool := cls == 1 && f.toNat % 2 == 0 && f.toNat < 128

/-- ORDER and SCOPE in FN (R86): the order is one of the list. -/
def orderFn (fn : BitVec 6) (ok : List Nat) : Bool := ok.contains (fnBits fn 2 0)

/-- A parameter word is a value, or a marker whose bits [30:8] are zero and that names a scalar (R90). -/
def paramOk (w : Word) : Bool := !(w.getLsbD 31) || (natBits w.toNat 30 8 == 0 && natBits w.toNat 7 0 ≤ 127)

/-- The four words of a shape record (R90). -/
def paramsOk (f : F64P) : Bool := paramOk f.w0 && paramOk f.w1 && paramOk f.w2 && paramOk f.w3

/-- F32A with vector registers (R103): the X bit only where the instruction has one. -/
def wf32 (f : F32A) (xOk : Bool) : Bool := guardOk f.g && (xOk || !f.x)

/-- F32A with index limits on D and A in place of the vector classes (R103). -/
def wf32Idx (f : F32A) (dMax aMax : Nat) (xOk : Bool) : Bool :=
  wf32 f xOk && f.d.toNat ≤ dMax && f.a.toNat ≤ aMax

/-- F32I with a limit on D (R103). -/
def wf32I (f : F32I) (dMax immMax : Nat) : Bool := guardOk f.g && f.d.toNat ≤ dMax && f.imm.toNat ≤ immMax

/-- F32Z with a limit on FN17 (R103). -/
def wf32Z (f : F32Z) (fnMax : Nat) : Bool := guardOk f.g && f.fn.toNat ≤ fnMax

/-- LIT32 stands in B: class 11 and a zero field (R83, R137). -/
def litB (f : F64R) : Bool := f.cb == 3 && f.b == 0 && f.cc != 3

/-- Sources of a 96-bit cell whose LIT32 stands in B: B is judged by `litB`. -/
def wfLit (f : F64R) (n : Nat) (rounds : Bool) (fnOk : Bool) : Bool :=
  litB f && wfR f [.v, .s] (aluSrcA f) [.imm] (if n ≥ 3 then aluSrc f else []) rounds fnOk

/-- The register-number alignment of a data operand of SZ (R82). -/
def dataAligned (sz : BitVec 3) (d : BitVec 8) : Bool :=
  match sz.toNat with
  | 5 => d.toNat % 2 == 0
  | 6 => d.toNat % 4 == 0
  | _ => true

/-- The checks common to F64M (R82): guard, space, index class, base. -/
def wfM (m : F64M) (spaces : List Nat) (dOk fnOk szOk idxScalar : Bool) : Bool :=
  guardOk m.g && spaces.contains m.sp.toNat && szOk && fnOk && dOk
    && (match m.cb.toNat with | 0 => !idxScalar | 1 => m.b.toNat ≤ 127 | 2 => m.b == 0 | _ => false)
    && m.a.toNat ≤ 127 && (m.sp == 1 || m.sp == 2 || m.a.toNat % 2 == 0)

/-- FN4 of LD, ST, RPUT and RGET: a cache policy (R111). -/
def policyOk (fn4 : BitVec 4) : Bool := fn4.toNat % 4 == 0 && fn4.toNat / 4 ≤ 2

/-- FN4 and SZ of ATOM, RED and RATOM (R110). -/
def atomOk (fn4 : BitVec 4) (sz : BitVec 3) (exch bf16 : Bool) : Bool :=
  match fn4.toNat with
  | 8 => exch && (sz == 4 || sz == 5 || sz == 6)
  | 9 => exch && (sz == 4 || sz == 5)
  | 13 => bf16 && sz == 4
  | 14 => false
  | 15 => false
  | _ => sz == 4 || sz == 5

/-- The data registers of an atomic (R249). -/
def atomData (fn4 : BitVec 4) (sz : BitVec 3) (d : BitVec 8) : Bool :=
  match fn4.toNat, sz.toNat with
  | 9, 4 => d.toNat % 2 == 0
  | 9, _ => d.toNat % 4 == 0
  | _, _ => dataAligned sz d

def wfLoad (m : F64M) (spaces : List Nat) : Bool :=
  wfM m spaces (dataAligned m.sz m.d) (policyOk m.fn4) (m.sz.toNat ≤ 6) false

def wfStore (m : F64M) (spaces : List Nat) : Bool :=
  wfM m spaces (dataAligned m.sz m.d) (policyOk m.fn4) ([0, 2, 4, 5, 6].contains m.sz.toNat) false

def wfAtom (m : F64M) (spaces : List Nat) (exch bf16 : Bool) : Bool :=
  wfM m spaces (atomData m.fn4 m.sz m.d) (atomOk m.fn4 m.sz exch bf16) (m.sz.toNat ≤ 6) false

def wfPref (m : F64M) : Bool := wfM m [0, 3] (m.d == 0) (m.fn4.toNat ≤ 2) true false

def wfCache (m : F64M) : Bool := wfM m [0, 3] (m.d == 0) (m.fn4.toNat ≤ 1) (m.sz == 0) false

/-- MMA format pairs (R279): floating with floating or Q4N, and integer with integer unless `floatOnly`. -/
def mmaPair (fn : BitVec 6) (floatOnly : Bool) : Bool :=
  let fa := fnBits fn 5 3
  let fb := fnBits fn 2 0
  (fa ≤ 3 && (fb ≤ 3 || fb == 7)) || (!floatOnly && 4 ≤ fa && fa ≤ 6 && 4 ≤ fb && fb ≤ 6)

/-- MOV (R144): the class pairs accepted, and W = 01 only between vector and scalar registers. -/
def wfMov (f : F64R) : Bool :=
  let w := fnBits f.fn 3 2
  let cls := if f.cb == 3 then accepts [] f.ca f.a else accepts [] f.cb f.b && f.ca != 3
  let scls := if f.cb == 3 then f.cb else f.ca
  let sfld := if f.cb == 3 then f.b else f.a
  let pair := match opKind f.cd f.d with
    | some .v => accepts [.v, .s, .imm, .p] scls sfld
    | some .s => accepts [.s, .imm, .k] scls sfld
    | some .p => accepts [.p, .v, .s, .imm] scls sfld
    | some .k => accepts [.k, .s, .imm] scls sfld
    | _ => false
  guardOk f.g && cls && pair && accepts [] f.cc f.c && f.rnd == 0 && w ≤ 1 && f.fn.toNat % 4 == 0 && f.fn.toNat / 16 == 0
    && (w == 0 || ((f.cd == 0 || f.cd == 1) && (scls == 0 || scls == 1 || scls == 3) && evenOp f.cd f.d && evenOp scls sfld))

/-- CVT's format pair (R109, R150). -/
def wfCvt (f : F64R) : Bool :=
  let t := f.c.toNat / 16
  let s := f.c.toNat % 16
  let wide (x : Nat) : Bool := x == 0 || x == 12 || x == 13
  wfR f [.v, .s] (aluSrcA f) [] [.imm] (t ≤ 5 || s ≤ 5) (f.fn.toNat % 32 == 0 && (f.fn.toNat == 0 || (t ≥ 6 && s ≥ 6)))
    && t != s && (!wide t || evenOp f.cd f.d) && (!wide s || evenOp f.ca f.a)

/-- VOTE (R178): MODE decides the classes of D and A. -/
def wfVote (f : F64R) : Bool :=
  let d : List OpKind := if fnBits f.fn 1 0 == 3 then [.v, .s, .k] else [.p]
  let a : List OpKind := match fnBits f.fn 1 0 with
    | 2 => [.v]
    | 3 => if f.cd == 0 then [.p, .v] else [.p]
    | _ => [.p, .v]
  wfR f d a [] [] false (f.fn.toNat < 4)

/-- REDUCE and SCAN (R181). -/
def wfTree (f : F64R) (excl : Bool) : Bool :=
  wfR f [.v] [.v] [] [] (fnBits f.fn 3 0 == 8) ((excl || fnBits f.fn 5 5 == 0) && fnBits f.fn 3 0 ≤ 10)
    && pairsIf (fnBits f.fn 4 4 == 1) f true true false false

/-- BRX (R166). -/
def wfBrx (f : F64R) : Bool :=
  let d : List OpKind := if f.fn == 1 then (if f.ca == 1 then [.v, .s] else [.v]) else []
  wfR f d [.v, .s] [] [] false (f.fn.toNat ≤ 1) && evenOp f.ca f.a && evenOp f.cd f.d

/-- WAIT's two forms (R384). -/
def wfWait (f : F64R) : Bool :=
  if fnBits f.fn 5 5 == 0 then wfR f [] [] [.imm] [.imm] false (fnBits f.fn 4 4 == 0)
  else wfR f [] [.s] [] [] false (f.fn.toNat == 32) && evenOp f.ca f.a

/-- Barrier operands by KIND (R389). -/
def wfBar (f : F64R) (d c : List OpKind) (fnOk : Bool) : Bool :=
  match fnBits f.fn 5 4 with
  | 0 => wfR f d [] [.s, .imm] c false fnOk
  | 1 => wfR f d [.s] [] c false fnOk && evenOp f.ca f.a
  | _ => false

/-- SCOPE allowed by KIND (R389). -/
def barScope (f : F64R) : Bool :=
  let sc := fnBits f.fn 2 0
  if fnBits f.fn 5 4 == 0 then 2 ≤ sc && sc ≤ 5 else 4 ≤ sc

/-- MDRAIN (R284). -/
def wfMdrain (p : F64P) : Bool :=
  let f := p.r
  let a : List OpKind := if fnBits f.fn 4 3 == 2 then [] else [.s]
  wfR f [.a] a [] [] true (fnBits f.fn 4 3 ≤ 2 && fnBits f.fn 2 0 == 0)
    && (fnBits f.fn 4 3 != 1 || evenOp f.ca f.a) && paramsOk p

/-- RSTAT (R287, R288). -/
def wfRstat (f : F64R) : Bool :=
  if fnBits f.fn 0 0 == 0 then wfR f [.v] [.a] [] [] false (f.fn == 0) && evenOp f.cd f.d
  else wfR f [.s] [.a] [] [] false (fnBits f.fn 5 2 == 0)

/-- QUANT, DEQ and REQUANT take scalar-pair descriptors (R152). -/
def wfQ (f : F64R) (c : Bool) (rounds fnOk : Bool) : Bool :=
  wfR f [.v, .s] (aluSrcA f) [.s] (if c then [.s] else []) rounds fnOk
    && sPair f.cb f.b && (!c || sPair f.cc f.c)

/-- The well-formedness of an instruction's fields; an event carries none. DESIGN CHOICE (log entry 67): the 32-bit SAR and ROT of row 0x20
take any vector D, the source and target of their two-address form (R136), where R103 has D zero in the row's other cells. -/
def Instr.wf : Instr → Bool
  | .mov32 f => wf32 f false
  | .mov64 f => wfMov f
  | .movi32 f => wf32I f 255 511
  | .movi96 f => litB f.r && wfR f.r [.v, .s] [] [.imm] [] false (fnBits f.r.fn 5 5 == 0 && fnBits f.r.fn 3 2 ≤ 1 && fnBits f.r.fn 1 0 == 0) && pairsIf (isW64 f.r) f.r true false false false
  | .sel64 f => wfR f [.v] [.v, .s] [.v, .s, .imm] [.p] false (fnBits f.fn 3 2 ≤ 1 && f.fn.toNat % 4 == 0 && f.fn.toNat / 16 == 0) && pairsIf (isW64 f) f true true true false
  | .sel96 f => litB f.r && wfR f.r [.v] [.v, .s] [.imm] [.p] false (fnBits f.r.fn 3 2 ≤ 1 && f.r.fn.toNat % 4 == 0 && f.r.fn.toNat / 16 == 0) && pairsIf (isW64 f.r) f.r true true false false
  | .lea64 f => wfAlu f 2 false (intFn f false true false 3) && pairsIf (isW64 f) f true true false false
  | .lea96 f => wfLit f.r 2 false (intFn f.r false true false 3) && pairsIf (isW64 f.r) f.r true true false false
  | .isetp64 f => wfR f [.p] [.v, .s] [.v, .s, .imm] [] false (fnBits f.fn 5 5 == 0 && fnBits f.fn 2 0 ≤ 5) && pairsIf (fnBits f.fn 3 3 == 1) f false true true false
  | .isetp96 f => litB f.r && wfR f.r [.p] [.v, .s] [.imm] [] false (fnBits f.r.fn 5 5 == 0 && fnBits f.r.fn 2 0 ≤ 5) && pairsIf (fnBits f.r.fn 3 3 == 1) f.r false true false false
  | .fsetp64 f => wfR f [.p] [.v, .s] [.v, .s, .imm] [] false (fnBits f.fn 5 5 == 0) && pairsIf (fnBits f.fn 4 3 == 1) f false true true false
  | .fsetp96 f => litB f.r && wfR f.r [.p] [.v, .s] [.imm] [] false (fnBits f.r.fn 5 5 == 0) && pairsIf (fnBits f.r.fn 4 3 == 1) f.r false true false false
  | .bfe64 f => wfAlu f 3 false (intFn f false true false 0) && pairsIf (isW64 f) f true true false false
  | .bfi64 f => wfAlu f 3 false (intFn f false true false 0) && pairsIf (isW64 f) f true true false false
  | .iadd32 f => wf32 f false
  | .iadd32i f => wf32I f 255 511
  | .iadd64 f => wfAlu f 2 false (intFn f true true true 0) && pairsIf (isW64 f) f true true true false
  | .iadd96 f => wfLit f.r 2 false (intFn f.r true true true 0) && pairsIf (isW64 f.r) f.r true true false false
  | .isub32 f => wf32 f false
  | .isub64 f => wfAlu f 2 false (intFn f true true true 0) && pairsIf (isW64 f) f true true true false
  | .imul32 f => wf32 f false
  | .imul32i f => wf32I f 255 511
  | .imul64 f => wfAlu f 2 false (intFn f true true true 0) && pairsIf (isW64 f) f true true true false
  | .imul96 f => wfLit f.r 2 false (intFn f.r true true true 0) && pairsIf (isW64 f.r) f.r true true false false
  | .imad64 f => wfAlu f 3 false (intFn f true true true 0) && pairsIf (isW64 f) f true true true true
  | .imad96 f => wfLit f.r 3 false (intFn f.r true true true 0) && pairsIf (isW64 f.r) f.r true true false true
  | .imulh64 f => wfAlu f 2 false (intFn f false true false 0) && pairsIf (isW64 f) f true true true false
  | .idiv64 f => wfAlu f 2 false (intFn f false true false 1) && pairsIf (isW64 f) f true true true false
  | .irem64 f => wfAlu f 2 false (intFn f false true false 1) && pairsIf (isW64 f) f true true true false
  | .iabs32 f => wf32 f false
  | .iabs64 f => wfAlu f 1 false (intFn f false false true 0) && pairsIf (isW64 f) f true true false false
  | .imin32 f => wf32 f true
  | .imin64 f => wfAlu f 2 false (intFn f false true true 0) && pairsIf (isW64 f) f true true true false
  | .imax32 f => wf32 f true
  | .imax64 f => wfAlu f 2 false (intFn f false true true 0) && pairsIf (isW64 f) f true true true false
  | .shl32 f => wf32 f false
  | .shl32i f => wf32I f 255 31
  | .shl64 f => wfAlu f 2 false (intFn f false true true 0) && pairsIf (isW64 f) f true true false false
  | .shr32 f => wf32 f false
  | .shr32i f => wf32I f 255 31
  | .shr64 f => wfAlu f 2 false (intFn f false true true 0) && pairsIf (isW64 f) f true true false false
  | .sar32 f => wf32 f false
  | .sar32i f => wf32I f 255 31
  | .sar64 f => wfAlu f 2 false (intFn f false true true 0) && pairsIf (isW64 f) f true true false false
  | .rot32 f => wf32 f false
  | .rot32i f => wf32I f 255 31
  | .rot64 f => wfAlu f 2 false (intFn f false true true 0) && pairsIf (isW64 f) f true true false false
  | .popc32 f => wf32 f false
  | .popc64 f => wfAlu f 1 false (intFn f false false true 0) && pairsIf (isW64 f) f true true false false
  | .clz32 f => wf32 f false
  | .clz64 f => wfAlu f 1 false (intFn f false false true 0) && pairsIf (isW64 f) f true true false false
  | .and32 f => wf32 f false
  | .and32i f => wf32I f 255 511
  | .and64 f => wfAlu f 2 false (intFn f false false true 0) && pairsIf (isW64 f) f true true true false
  | .and96 f => wfLit f.r 2 false (intFn f.r false false true 0) && pairsIf (isW64 f.r) f.r true true false false
  | .or32 f => wf32 f false
  | .or32i f => wf32I f 255 511
  | .or64 f => wfAlu f 2 false (intFn f false false true 0) && pairsIf (isW64 f) f true true true false
  | .or96 f => wfLit f.r 2 false (intFn f.r false false true 0) && pairsIf (isW64 f.r) f.r true true false false
  | .xor32 f => wf32 f false
  | .xor32i f => wf32I f 255 511
  | .xor64 f => wfAlu f 2 false (intFn f false false true 0) && pairsIf (isW64 f) f true true true false
  | .xor96 f => wfLit f.r 2 false (intFn f.r false false true 0) && pairsIf (isW64 f.r) f.r true true false false
  | .not32 f => wf32 f false
  | .not64 f => wfAlu f 1 false (intFn f false false true 0) && pairsIf (isW64 f) f true true false false
  | .brev32 f => wf32 f false
  | .brev64 f => wfAlu f 1 false (intFn f false false true 0) && pairsIf (isW64 f) f true true false false
  | .fadd32 f => wf32 f false
  | .fadd64 f => wfAlu f 2 true (fltFn f false [0, 1]) && pairsIf (isF64 f) f true true true false
  | .fadd96 f => wfLit f.r 2 true (fltFn f.r false [0, 1]) && pairsIf (isF64 f.r) f.r true true false false
  | .fmul32 f => wf32 f false
  | .fmul64 f => wfAlu f 2 true (fltFn f false [0, 1]) && pairsIf (isF64 f) f true true true false
  | .fmul96 f => wfLit f.r 2 true (fltFn f.r false [0, 1]) && pairsIf (isF64 f.r) f.r true true false false
  | .ffma64 f => wfAlu f 3 true (fltFn f true [0, 1]) && pairsIf (isF64 f) f true true true true
  | .ffma96 f => wfLit f.r 3 true (fltFn f.r true [0, 1]) && pairsIf (isF64 f.r) f.r true true false true
  | .fmin32 f => wf32 f false
  | .fmin64 f => wfAlu f 2 false (fltFn f false [0, 1]) && pairsIf (isF64 f) f true true true false
  | .fmin96 f => wfLit f.r 2 false (fltFn f.r false [0, 1]) && pairsIf (isF64 f.r) f.r true true false false
  | .fmax32 f => wf32 f false
  | .fmax64 f => wfAlu f 2 false (fltFn f false [0, 1]) && pairsIf (isF64 f) f true true true false
  | .fmax96 f => wfLit f.r 2 false (fltFn f.r false [0, 1]) && pairsIf (isF64 f.r) f.r true true false false
  | .frnd64 f => wfAlu f 1 true (fltFn f false [0, 1]) && pairsIf (isF64 f) f true true false false
  | .hfma264 f => wfAlu f 3 true (fltFn f true [2, 3])
  | .hfma296 f => wfLit f.r 3 true (fltFn f.r true [2, 3])
  | .cvt64 f => wfCvt f
  | .frcp64 f => wfAlu f 1 true (fltFn f false [0, 1]) && pairsIf (isF64 f) f true true false false
  | .fsqrt64 f => wfAlu f 1 true (fltFn f false [0, 1]) && pairsIf (isF64 f) f true true false false
  | .frsq64 f => wfAlu f 1 true (fltFn f false [0])
  | .fexp264 f => wfAlu f 1 true (fltFn f false [0])
  | .flog264 f => wfAlu f 1 true (fltFn f false [0])
  | .fsinpi64 f => wfAlu f 1 true (fltFn f false [0])
  | .fcospi64 f => wfAlu f 1 true (fltFn f false [0])
  | .ftanh64 f => wfAlu f 1 true (fltFn f false [0])
  | .quant64 f => wfQ f false false (fnBits f.fn 5 4 == 0 && (fnBits f.fn 3 3 == 0 || fnBits f.fn 2 0 == 0))
  | .deq64 f => wfQ f false true (fnBits f.fn 5 5 == 0 && fnBits f.fn 4 3 ≤ 2)
  | .requant64 f => wfQ f true false (f.fn == 0)
  | .cvt864 f => if fnBits f.fn 2 2 == 0 then wfAlu f 2 true (fnBits f.fn 5 3 == 0) else wfAlu f 1 false (fnBits f.fn 5 3 == 0) && evenOp f.cd f.d
  | .scale64 f => wfAlu f 2 true (fnBits f.fn 5 4 == 0 && (fnBits f.fn 3 2 ≤ 1 || fnBits f.fn 1 1 == 0))
  | .grow32 f => wf32I f 0 511
  | .grow64 f => wfR f [] [] [.s, .imm] [] false (f.fn.toNat ≤ 1)
  | .shrink32 f => wf32I f 0 511
  | .shrink64 f => wfR f [] [] [.s, .imm] [] false (f.fn.toNat ≤ 1)
  | .laneid32 f => wf32 f true && f.a == 0
  | .part32 f => wf32I f 0 511
  | .part64 f => wfR f [] [] [.s, .imm] [] false (f.fn == 0)
  | .pand32 f => wf32Idx f 11 11 false
  | .pand64 f => wfR f [.p] [.p] [.p, .imm] [] false (f.fn.toNat < 4)
  | .por32 f => wf32Idx f 11 11 false
  | .por64 f => wfR f [.p] [.p] [.p, .imm] [] false (f.fn.toNat < 4)
  | .pxor32 f => wf32Idx f 11 11 false
  | .pxor64 f => wfR f [.p] [.p] [.p, .imm] [] false (f.fn.toNat < 4)
  | .pnot32 f => wf32Idx f 11 11 false
  | .pnot64 f => wfR f [.p] [.p] [] [] false (f.fn == 0)
  | .join32 f => wf32Idx f 11 0 false
  | .join64 f => wfR f [.k] [] (if f.fn == 1 then [.k, .s, .imm] else []) [] false (f.fn.toNat ≤ 1)
  | .leave32 f => wf32Idx f 11 0 false
  | .leave64 f => wfR f [.k] [] (if f.fn == 1 then [.k, .s, .imm] else []) [] false (f.fn.toNat ≤ 1)
  | .waitm32 f => wf32Idx f 11 0 true
  | .waitm64 f => wfR f [.k] [] [] [] false (f.fn == 0 || f.fn == 4)
  | .bra32 f => guardOk f.g
  | .bra96 f => litB f.r && wfR f.r [] [] [.imm] [] false (f.r.fn == 0)
  | .call32 f => guardOk f.g
  | .call96 f => litB f.r && wfR f.r [] [] [.imm] [] false (f.r.fn == 0)
  | .shfl64 f => wfR f [.v] [.v] [.v, .s, .imm] [] false (fnBits f.fn 5 4 == 0 && fnBits f.fn 2 2 == 0) && pairsIf (fnBits f.fn 3 3 == 1) f true true false false
  | .push64 f => wfR f [.v] [.v] [.v, .s, .imm] [] false (f.fn == 0 || f.fn == 8) && pairsIf (f.fn == 8) f true true false false
  | .vote64 f => wfVote f
  | .reduce64 f => wfTree f false
  | .scan64 f => wfTree f true
  | .brx64 f => wfBrx f
  | .nop32 f => wf32Z f 0
  | .ret32 f => wf32Z f 0
  | .tret32 f => wf32Z f 0
  | .bkpt32 f => wf32Z f 0
  | .trap32 f => wf32Z f 127
  | .exit32 f => wf32Z f 0
  | .ld64 f => wfLoad f [0, 1, 2, 3]
  | .ld96 f => wfLoad f.m [0, 1, 2, 3] && f.m.off == 0
  | .st64 f => wfStore f [0, 1, 2, 3]
  | .st96 f => wfStore f.m [0, 1, 2, 3] && f.m.off == 0
  | .atom64 f => wfAtom f [0, 1, 2, 3] true true
  | .atom96 f => wfAtom f.m [0, 1, 2, 3] true true && f.m.off == 0
  | .red64 f => wfAtom f [0, 1, 2, 3] false true
  | .red96 f => wfAtom f.m [0, 1, 2, 3] false true && f.m.off == 0
  | .waita64 f => wfM f [0, 1, 2, 3] (f.d.toNat ≤ 127 && dataAligned f.sz f.d) true (f.sz == 4 || f.sz == 5) true
  | .poll64 f => wfM f [0, 1, 2, 3] (f.d.toNat ≤ 127 && dataAligned f.sz f.d) (f.fn4.toNat < 4) (f.sz == 4 || f.sz == 5) true
  | .pref64 f => wfPref f
  | .pref96 f => wfPref f.m && f.m.off == 0
  | .cwb64 f => wfCache f
  | .cinv64 f => wfCache f
  | .devl64 f => wfM f [0] (f.d.toNat ≤ 127) (f.fn4.toNat ≤ 1) (f.sz == 0) true
  | .rput64 f => wfStore f [4]
  | .rput96 f => wfStore f.m [4] && f.m.off == 0
  | .rget64 f => wfLoad f [4]
  | .rget96 f => wfLoad f.m [4] && f.m.off == 0
  | .ratom64 f => wfAtom f [4] true false
  | .ratom96 f => wfAtom f.m [4] true false && f.m.off == 0
  | .ord64 f => wfR f [] [] [] [] false (orderFn f.fn [0, 1, 2, 3, 4])
  | .rel64 f => wfR f [] [.s] [.s, .imm] [] false (orderFn f.fn [2, 4]) && evenOp f.ca f.a && evenOp f.cb f.b
  | .acq64 f => wfR f [.s] [.s] [] [] false (orderFn f.fn [1, 4]) && evenOp f.ca f.a && evenOp f.cd f.d
  | .fence32 f => wf32Z f 63 && f.fn.toNat % 8 ≤ 4
  | .fence64 f => wfR f [] [] [] [] false (orderFn f.fn [0, 1, 2, 3, 4])
  | .wait64 f => wfWait f
  | .bari64 f => wfBar f [] [.s, .imm] (barScope f) && evenOp f.cc f.c
  | .waitb64 f => wfBar f [.s] [] (fnBits f.fn 3 0 == 0)
  | .waitbTag64 f => wfR f [.bt] [] [] [] false (f.fn == 32)
  | .bart64 f => wfR f [.bt] [] (if fnBits f.fn 0 0 == 1 then [] else [.s, .imm]) [] false (f.fn.toNat < 4)
  | .badd64 f => wfBar f [] [.s, .imm] (barScope f && fnBits f.fn 3 3 == 0)
  | .csrr32 f => wf32I f 127 511
  | .csrr64 f => wfR f [.s] [] [.s] [] false (f.fn == 0)
  | .csrw32 f => wf32I f 127 511
  | .csrw64 f => wfR f [] [.s] [.s] [] false (f.fn == 0)
  | .vacate64 f => wfR f [.s] [.s] [.s, .imm] [] false (f.fn == 0) && evenOp f.ca f.a
  | .freeze64 f => wfR f [.s] [.s] [.s] [] false (f.fn == 0) && evenOp f.ca f.a
  | .thaw64 f => wfR f [.s] [.s] [] [] false (f.fn == 0) && evenOp f.ca f.a
  | .rsv64 f => wfR f.r [.ob] [] [] [] false (f.r.fn == 0) && paramsOk f
  | .rls64 f => wfR f [.ob] [] [] [] false (f.fn == 0)
  | .cvdecl64 f => wfR f [.cv] [] [.s, .imm] [.s, .imm] false (f.fn == 0)
  | .sign32 f => wf32Idx f 7 0 false
  | .sign64 f => wfR f [.cv] [] [] [] false (f.fn == 0)
  | .mma64 f => wfR f [.a] [.ob] [.ob] [.cv] false (mmaPair f.fn false)
  | .mdrain64 f => wfMdrain f
  | .mbyp64 f => wfR f [.a] [.ob] [] [] false (fnBits f.fn 4 0 == 0)
  | .rstat64 f => wfRstat f
  | .lstream64 f => wfR f.r [.a] [.ob] [.ob] [.ob] false (mmaPair f.r.fn true) && paramsOk f
  | .lsmerge64 f => wfR f [.ob] [.ob] [] [] false (f.fn == 0)
  | .lsgrad64 f => wfR f.r [.a] [.ob] [.ob] [.ob] false (mmaPair f.r.fn true) && paramsOk f
  | .cpy64 f => wfR f.r [] [.s] [.s] [] false (fnBits f.r.fn 5 5 == 0 && (fnBits f.r.fn 4 4 == 0 || fnBits f.r.fn 3 3 == 0)) && paramsOk f
  | .plane64 f => wfR f.r [.ob] [.s] [] [] false (fnBits f.r.fn 5 3 == 0) && paramsOk f
  | .gather64 f => wfR f.r [.s] [.s] [.s] [.s] false (f.r.fn == 0) && evenOp f.r.cd f.r.d && evenOp f.r.ca f.r.a && paramsOk f
  | .pool64 f => wfR f.r [.s] [.s] [.s] [.s] false (f.r.fn == 0) && evenOp f.r.cd f.r.d && evenOp f.r.ca f.r.a && paramsOk f
  | .collStart64 f => wfR f [] [.s] [.s, .imm] [.s] false (f.fn == 0) && evenOp f.ca f.a && evenOp f.cc f.c
  | .collStop64 f => wfR f [] [] [.s, .imm] [] false (f.fn == 1)
  | .collStatus64 f => wfR f [.s] [] [.s, .imm] [] false (f.fn == 2)
  | .spawn64 f => wfR f [] [.v] [.s, .imm] [] false (f.fn == 0)
  | .tdone64 f => wfR f [] [] [.s, .imm] [] false (f.fn == 0)
  | .phase32 f => wf32Z f 15
  | .phase64 f => wfR f [] [] [.s, .imm] [] false (f.fn.toNat ≤ 1)
  | .issueArbitration _ => true
  | .progressOverride _ => true
  | .continuationReady _ _ => true
  | .deferredFaultFound _ => true
  | .trapDelivery _ => true
  | .loadDataReturn _ => true
  | .storePerformed _ => true
  | .atomResultReturn _ => true
  | .pageWalkComplete _ => true
  | .activeMessage _ => true
  | .otherDieRead _ _ => true
  | .otherDieWrite _ _ => true
  | .l2Eviction _ _ _ => true
  | .backInvalidation _ _ => true
  | .backInvalidationAnswer _ _ => true
  | .bisnp _ _ => true
  | .regionModeSwitch _ _ _ => true
  | .fenceComplete _ => true
  | .devlPerformed _ => true
  | .waitaWake _ _ => true
  | .waitaTimeout _ _ => true
  | .waitaReread _ _ => true
  | .uncorrectableError _ _ => true
  | .correctedError _ _ _ => true
  | .allocatorPass _ => true
  | .growSpill _ => true
  | .spillRestore _ _ => true
  | .waveSlotRelease _ => true
  | .engineEntryPush _ => true
  | .copyCommandStart _ _ => true
  | .copyFlitDelivery _ _ => true
  | .copyBlockVerified _ _ => true
  | .chanTagFail _ _ => true
  | .copyBlockRefetch _ _ => true
  | .copyComplete _ _ => true
  | .gatherPoolComplete _ _ => true
  | .matrixOpComplete _ => true
  | .launch _ => true
  | .tasks _ => true
  | .nodes _ => true
  | .event _ => true
  | .waitv _ => true
  | .eventWrite _ => true
  | .waitvSatisfied _ => true
  | .ringRestart _ _ => true
  | .crewPlacement _ => true
  | .taskCompletionApply _ => true
  | .taskLaunchFetch _ => true
  | .batchTimerExpiry _ _ => true
  | .batchLaunch _ => true
  | .send _ => true
  | .recv _ => true
  | .rscat _ => true
  | .agath _ => true
  | .mcast _ => true
  | .signal _ => true
  | .loop _ => true
  | .halt _ => true
  | .collBadCommand _ => true
  | .collReservedCommand _ => true
  | .wordComplete _ => true
  | .collTimeout _ => true
  | .abortPacket _ => true
  | .freezeNotice _ => true
  | .thawNotice _ => true
  | .fwd _ => true
  | .addF32 _ => true
  | .addBf16 _ => true
  | .routeMcast _ => true
  | .deliver _ => true
  | .routeSignal _ => true
  | .routeErrorNotice _ => true
  | .resendRequest _ => true
  | .flitReceive _ _ => true
  | .ack _ => true
  | .nak _ => true
  | .ackTimer _ => true
  | .nakRepeatTimer _ => true
  | .replayTimer _ => true
  | .portDown _ => true
  | .dropNotice _ => true
  | .dropGatherTimer _ => true
  | .reservationRequest _ _ => true
  | .reservationGrant _ => true
  | .reservedWindowStart _ => true
  | .remoteAccessRequest _ => true
  | .remoteAccessResponse _ => true
  | .netRequest _ => true
  | .netResponse _ _ => true
  | .staleNotice _ => true
  | .netRetryTimer _ => true
  | .busyResendTimer _ => true
  | .responseAck _ => true
  | .atomicCacheExpiry _ _ => true
  | .regionContextFill _ _ => true
  | .dcdExtentAdded _ _ _ _ => true
  | .cxlResponseTimeout _ => true
  | .barrierCountingCycle _ => true
  | .barrierAutoRecomplete _ => true
  | .routeTagRelease _ _ => true
  | .drainEngineTimeout _ => true
  | .systemOpComplete _ => true
  | .invalidate _ _ _ => true
  | .bmread _ _ _ => true
  | .esload _ _ _ => true
  | .phaseset _ _ _ => true
  | .ringcfg _ _ _ _ _ => true
  | .rdesc _ _ => true
  | .bufmap _ _ _ => true
  | .wavectlResume _ _ _ => true
  | .wavectlEnd _ _ _ => true
  | .wavectlFrame _ _ _ => true
  | .sysopVacate _ _ _ => true
  | .sysopFreeze _ _ _ => true
  | .sysopThaw _ _ => true
  | .ctrread _ _ _ _ => true
  | .partset _ _ _ => true
  | .lctset _ _ _ _ => true
  | .linkctlRetrain _ _ => true
  | .linkctlDisable _ _ => true
  | .linkTrainingComplete _ _ => true
  | .powercap _ _ => true
  | .featlock _ _ _ => true
  | .coldReset _ _ => true
  | .deviceReset _ _ => true
  | .interfaceReset _ => true
  | .powerControlTick _ _ _ _ => true
  | .coreFailure _ => true
  | .dcdExtentRelease _ _ _ _ => true
  | .busyAnswer _ => true
  | .unknownOpcode _ => true
  | .straddle _ => true

/-- The row is an instruction of the opcode maps; otherwise it is an event or an operation of the machine. -/
def Instr.isIsa : Instr → Bool
  | .mov32 _ => true
  | .mov64 _ => true
  | .movi32 _ => true
  | .movi96 _ => true
  | .sel64 _ => true
  | .sel96 _ => true
  | .lea64 _ => true
  | .lea96 _ => true
  | .isetp64 _ => true
  | .isetp96 _ => true
  | .fsetp64 _ => true
  | .fsetp96 _ => true
  | .bfe64 _ => true
  | .bfi64 _ => true
  | .iadd32 _ => true
  | .iadd32i _ => true
  | .iadd64 _ => true
  | .iadd96 _ => true
  | .isub32 _ => true
  | .isub64 _ => true
  | .imul32 _ => true
  | .imul32i _ => true
  | .imul64 _ => true
  | .imul96 _ => true
  | .imad64 _ => true
  | .imad96 _ => true
  | .imulh64 _ => true
  | .idiv64 _ => true
  | .irem64 _ => true
  | .iabs32 _ => true
  | .iabs64 _ => true
  | .imin32 _ => true
  | .imin64 _ => true
  | .imax32 _ => true
  | .imax64 _ => true
  | .shl32 _ => true
  | .shl32i _ => true
  | .shl64 _ => true
  | .shr32 _ => true
  | .shr32i _ => true
  | .shr64 _ => true
  | .sar32 _ => true
  | .sar32i _ => true
  | .sar64 _ => true
  | .rot32 _ => true
  | .rot32i _ => true
  | .rot64 _ => true
  | .popc32 _ => true
  | .popc64 _ => true
  | .clz32 _ => true
  | .clz64 _ => true
  | .and32 _ => true
  | .and32i _ => true
  | .and64 _ => true
  | .and96 _ => true
  | .or32 _ => true
  | .or32i _ => true
  | .or64 _ => true
  | .or96 _ => true
  | .xor32 _ => true
  | .xor32i _ => true
  | .xor64 _ => true
  | .xor96 _ => true
  | .not32 _ => true
  | .not64 _ => true
  | .brev32 _ => true
  | .brev64 _ => true
  | .fadd32 _ => true
  | .fadd64 _ => true
  | .fadd96 _ => true
  | .fmul32 _ => true
  | .fmul64 _ => true
  | .fmul96 _ => true
  | .ffma64 _ => true
  | .ffma96 _ => true
  | .fmin32 _ => true
  | .fmin64 _ => true
  | .fmin96 _ => true
  | .fmax32 _ => true
  | .fmax64 _ => true
  | .fmax96 _ => true
  | .frnd64 _ => true
  | .hfma264 _ => true
  | .hfma296 _ => true
  | .cvt64 _ => true
  | .frcp64 _ => true
  | .fsqrt64 _ => true
  | .frsq64 _ => true
  | .fexp264 _ => true
  | .flog264 _ => true
  | .fsinpi64 _ => true
  | .fcospi64 _ => true
  | .ftanh64 _ => true
  | .quant64 _ => true
  | .deq64 _ => true
  | .requant64 _ => true
  | .cvt864 _ => true
  | .scale64 _ => true
  | .grow32 _ => true
  | .grow64 _ => true
  | .shrink32 _ => true
  | .shrink64 _ => true
  | .laneid32 _ => true
  | .part32 _ => true
  | .part64 _ => true
  | .pand32 _ => true
  | .pand64 _ => true
  | .por32 _ => true
  | .por64 _ => true
  | .pxor32 _ => true
  | .pxor64 _ => true
  | .pnot32 _ => true
  | .pnot64 _ => true
  | .join32 _ => true
  | .join64 _ => true
  | .leave32 _ => true
  | .leave64 _ => true
  | .waitm32 _ => true
  | .waitm64 _ => true
  | .bra32 _ => true
  | .bra96 _ => true
  | .call32 _ => true
  | .call96 _ => true
  | .shfl64 _ => true
  | .push64 _ => true
  | .vote64 _ => true
  | .reduce64 _ => true
  | .scan64 _ => true
  | .brx64 _ => true
  | .nop32 _ => true
  | .ret32 _ => true
  | .tret32 _ => true
  | .bkpt32 _ => true
  | .trap32 _ => true
  | .exit32 _ => true
  | .ld64 _ => true
  | .ld96 _ => true
  | .st64 _ => true
  | .st96 _ => true
  | .atom64 _ => true
  | .atom96 _ => true
  | .red64 _ => true
  | .red96 _ => true
  | .waita64 _ => true
  | .poll64 _ => true
  | .pref64 _ => true
  | .pref96 _ => true
  | .cwb64 _ => true
  | .cinv64 _ => true
  | .devl64 _ => true
  | .rput64 _ => true
  | .rput96 _ => true
  | .rget64 _ => true
  | .rget96 _ => true
  | .ratom64 _ => true
  | .ratom96 _ => true
  | .ord64 _ => true
  | .rel64 _ => true
  | .acq64 _ => true
  | .fence32 _ => true
  | .fence64 _ => true
  | .wait64 _ => true
  | .bari64 _ => true
  | .waitb64 _ => true
  | .waitbTag64 _ => true
  | .bart64 _ => true
  | .badd64 _ => true
  | .csrr32 _ => true
  | .csrr64 _ => true
  | .csrw32 _ => true
  | .csrw64 _ => true
  | .vacate64 _ => true
  | .freeze64 _ => true
  | .thaw64 _ => true
  | .rsv64 _ => true
  | .rls64 _ => true
  | .cvdecl64 _ => true
  | .sign32 _ => true
  | .sign64 _ => true
  | .mma64 _ => true
  | .mdrain64 _ => true
  | .mbyp64 _ => true
  | .rstat64 _ => true
  | .lstream64 _ => true
  | .lsmerge64 _ => true
  | .lsgrad64 _ => true
  | .cpy64 _ => true
  | .plane64 _ => true
  | .gather64 _ => true
  | .pool64 _ => true
  | .collStart64 _ => true
  | .collStop64 _ => true
  | .collStatus64 _ => true
  | .spawn64 _ => true
  | .tdone64 _ => true
  | .phase32 _ => true
  | .phase64 _ => true
  | .issueArbitration _ => false
  | .progressOverride _ => false
  | .continuationReady _ _ => false
  | .deferredFaultFound _ => false
  | .trapDelivery _ => false
  | .loadDataReturn _ => false
  | .storePerformed _ => false
  | .atomResultReturn _ => false
  | .pageWalkComplete _ => false
  | .activeMessage _ => false
  | .otherDieRead _ _ => false
  | .otherDieWrite _ _ => false
  | .l2Eviction _ _ _ => false
  | .backInvalidation _ _ => false
  | .backInvalidationAnswer _ _ => false
  | .bisnp _ _ => false
  | .regionModeSwitch _ _ _ => false
  | .fenceComplete _ => false
  | .devlPerformed _ => false
  | .waitaWake _ _ => false
  | .waitaTimeout _ _ => false
  | .waitaReread _ _ => false
  | .uncorrectableError _ _ => false
  | .correctedError _ _ _ => false
  | .allocatorPass _ => false
  | .growSpill _ => false
  | .spillRestore _ _ => false
  | .waveSlotRelease _ => false
  | .engineEntryPush _ => false
  | .copyCommandStart _ _ => false
  | .copyFlitDelivery _ _ => false
  | .copyBlockVerified _ _ => false
  | .chanTagFail _ _ => false
  | .copyBlockRefetch _ _ => false
  | .copyComplete _ _ => false
  | .gatherPoolComplete _ _ => false
  | .matrixOpComplete _ => false
  | .launch _ => false
  | .tasks _ => false
  | .nodes _ => false
  | .event _ => false
  | .waitv _ => false
  | .eventWrite _ => false
  | .waitvSatisfied _ => false
  | .ringRestart _ _ => false
  | .crewPlacement _ => false
  | .taskCompletionApply _ => false
  | .taskLaunchFetch _ => false
  | .batchTimerExpiry _ _ => false
  | .batchLaunch _ => false
  | .send _ => false
  | .recv _ => false
  | .rscat _ => false
  | .agath _ => false
  | .mcast _ => false
  | .signal _ => false
  | .loop _ => false
  | .halt _ => false
  | .collBadCommand _ => false
  | .collReservedCommand _ => false
  | .wordComplete _ => false
  | .collTimeout _ => false
  | .abortPacket _ => false
  | .freezeNotice _ => false
  | .thawNotice _ => false
  | .fwd _ => false
  | .addF32 _ => false
  | .addBf16 _ => false
  | .routeMcast _ => false
  | .deliver _ => false
  | .routeSignal _ => false
  | .routeErrorNotice _ => false
  | .resendRequest _ => false
  | .flitReceive _ _ => false
  | .ack _ => false
  | .nak _ => false
  | .ackTimer _ => false
  | .nakRepeatTimer _ => false
  | .replayTimer _ => false
  | .portDown _ => false
  | .dropNotice _ => false
  | .dropGatherTimer _ => false
  | .reservationRequest _ _ => false
  | .reservationGrant _ => false
  | .reservedWindowStart _ => false
  | .remoteAccessRequest _ => false
  | .remoteAccessResponse _ => false
  | .netRequest _ => false
  | .netResponse _ _ => false
  | .staleNotice _ => false
  | .netRetryTimer _ => false
  | .busyResendTimer _ => false
  | .responseAck _ => false
  | .atomicCacheExpiry _ _ => false
  | .regionContextFill _ _ => false
  | .dcdExtentAdded _ _ _ _ => false
  | .cxlResponseTimeout _ => false
  | .barrierCountingCycle _ => false
  | .barrierAutoRecomplete _ => false
  | .routeTagRelease _ _ => false
  | .drainEngineTimeout _ => false
  | .systemOpComplete _ => false
  | .invalidate _ _ _ => false
  | .bmread _ _ _ => false
  | .esload _ _ _ => false
  | .phaseset _ _ _ => false
  | .ringcfg _ _ _ _ _ => false
  | .rdesc _ _ => false
  | .bufmap _ _ _ => false
  | .wavectlResume _ _ _ => false
  | .wavectlEnd _ _ _ => false
  | .wavectlFrame _ _ _ => false
  | .sysopVacate _ _ _ => false
  | .sysopFreeze _ _ _ => false
  | .sysopThaw _ _ => false
  | .ctrread _ _ _ _ => false
  | .partset _ _ _ => false
  | .lctset _ _ _ _ => false
  | .linkctlRetrain _ _ => false
  | .linkctlDisable _ _ => false
  | .linkTrainingComplete _ _ => false
  | .powercap _ _ => false
  | .featlock _ _ _ => false
  | .coldReset _ _ => false
  | .deviceReset _ _ => false
  | .interfaceReset _ => false
  | .powerControlTick _ _ _ _ => false
  | .coreFailure _ => false
  | .dcdExtentRelease _ _ _ _ => false
  | .busyAnswer _ => false
  | .unknownOpcode _ => false
  | .straddle _ => false

end Sys2Proof
end

