-- ==== Sys2Proof/Decode.lean ====
section
/-! DEFINITION. The decoder, total on any list of parcels and rejecting by name (R71, R72, R91, R92), the encoder written
from the same tables, and the engine class of each instruction (R76). -/

namespace Sys2Proof

/-- Why a parcel list is not an instruction. -/
inductive DecodeError where
  /-- the parcels end before the instruction does -/
  | short
  /-- LEN = 11, a stroke header (R71) -/
  | header
  /-- 0x001: an illegal cell of the map -/
  | illegalOpcode
  /-- 0x004: a cell reserved for later parts -/
  | reservedOpcode
  /-- 0x002: an improper field (R91) -/
  | reservedField
  deriving DecidableEq, Repr

/-- One cell of an opcode map (R101): illegal, reserved, or an instruction of a form. -/
inductive OpCell where
  | illegal | reserved
  | a32 (mk : F32A → Instr) | i32 (mk : F32I → Instr) | j32 (mk : F32J → Instr) | z32 (mk : F32Z → Instr)
  | r64 (mk : F64R → Instr) | m64 (mk : F64M → Instr) | p64 (mk : F64P → Instr)
  | r96 (mk : F96R → Instr) | m96 (mk : F96M → Instr)

/-- `n` bits of a parcel from bit `lo`. -/
def fld (w : Word) (lo n : Nat) : BitVec n := w.extractLsb' lo n

def parseA (w : Word) : F32A := ⟨w.getLsbD 31, fld w 26 5, fld w 18 8, fld w 10 8, w.getLsbD 9⟩
def parseI (w : Word) : F32I := ⟨w.getLsbD 31, fld w 26 5, fld w 18 8, fld w 9 9⟩
def parseJ (w : Word) : F32J := ⟨w.getLsbD 31, fld w 26 5, fld w 9 17⟩
def parseZ (w : Word) : F32Z := ⟨w.getLsbD 31, fld w 26 5, fld w 9 17⟩

/-- Parcels 0 and 1 of form F64R (R81, R82). -/
def parseR (w p : Word) : F64R :=
  ⟨w.getLsbD 31, fld w 26 5, fld w 18 8, fld w 10 8, fld p 24 8, fld p 16 8, fld p 14 2, fld p 12 2, fld p 10 2,
    fld p 8 2, fld p 6 2, fld p 0 6⟩

/-- Parcels 0 and 1 of form F64M (R81, R82). -/
def parseM (w p : Word) : F64M :=
  ⟨w.getLsbD 31, fld w 26 5, fld w 18 8, fld w 10 8, fld p 24 8, fld p 12 12, fld p 9 3, fld p 6 3, fld p 4 2, fld p 0 4⟩

/-- The 32-bit map (R102). -/
def cell32 (op : Nat) : OpCell :=
  match op with
  | 0 => .illegal
  | 1 => .a32 .mov32
  | 2 => .a32 .not32
  | 3 => .a32 .iabs32
  | 4 => .a32 .popc32
  | 5 => .a32 .clz32
  | 6 => .a32 .brev32
  | 7 => .a32 .laneid32
  | 8 => .a32 .iadd32
  | 9 => .a32 .isub32
  | 10 => .a32 .imul32
  | 11 => .a32 .and32
  | 12 => .a32 .or32
  | 13 => .a32 .xor32
  | 14 => .a32 .imin32
  | 15 => .a32 .imax32
  | 16 => .a32 .shl32
  | 17 => .a32 .shr32
  | 18 => .a32 .sar32
  | 19 => .a32 .rot32
  | 20 => .a32 .fadd32
  | 21 => .a32 .fmul32
  | 22 => .a32 .fmin32
  | 23 => .a32 .fmax32
  | 24 => .i32 .movi32
  | 25 => .i32 .iadd32i
  | 26 => .i32 .imul32i
  | 27 => .i32 .and32i
  | 28 => .i32 .or32i
  | 29 => .i32 .xor32i
  | 30 => .i32 .shl32i
  | 31 => .i32 .shr32i
  | 32 => .i32 .sar32i
  | 33 => .i32 .rot32i
  | 34 => .i32 .part32
  | 35 => .i32 .csrr32
  | 36 => .i32 .csrw32
  | 37 => .i32 .grow32
  | 38 => .i32 .shrink32
  | 40 => .a32 .pand32
  | 41 => .a32 .por32
  | 42 => .a32 .pxor32
  | 43 => .a32 .pnot32
  | 44 => .a32 .join32
  | 45 => .a32 .leave32
  | 46 => .a32 .waitm32
  | 47 => .a32 .sign32
  | 48 => .j32 .bra32
  | 49 => .j32 .call32
  | 120 => .z32 .nop32
  | 121 => .z32 .ret32
  | 122 => .z32 .tret32
  | 123 => .z32 .bkpt32
  | 124 => .z32 .trap32
  | 125 => .z32 .fence32
  | 126 => .z32 .phase32
  | 127 => .z32 .exit32
  | _ => if op < 0x60 || 0x78 ≤ op then .reserved else .illegal

/-- The 64-bit map (R104). -/
def cell64 (op : Nat) : OpCell :=
  match op with
  | 0 => .illegal
  | 1 => .r64 .mov64
  | 2 => .r64 .sel64
  | 3 => .r64 .lea64
  | 4 => .r64 .isetp64
  | 5 => .r64 .fsetp64
  | 6 => .r64 .bfe64
  | 7 => .r64 .bfi64
  | 8 => .r64 .iadd64
  | 9 => .r64 .isub64
  | 10 => .r64 .imul64
  | 11 => .r64 .imad64
  | 12 => .r64 .imulh64
  | 13 => .r64 .idiv64
  | 14 => .r64 .irem64
  | 15 => .r64 .iabs64
  | 16 => .r64 .imin64
  | 17 => .r64 .imax64
  | 18 => .r64 .shl64
  | 19 => .r64 .shr64
  | 20 => .r64 .sar64
  | 21 => .r64 .rot64
  | 22 => .r64 .popc64
  | 23 => .r64 .clz64
  | 24 => .r64 .and64
  | 25 => .r64 .or64
  | 26 => .r64 .xor64
  | 27 => .r64 .not64
  | 28 => .r64 .brev64
  | 32 => .r64 .fadd64
  | 33 => .r64 .fmul64
  | 34 => .r64 .ffma64
  | 35 => .r64 .fmin64
  | 36 => .r64 .fmax64
  | 37 => .r64 .frnd64
  | 38 => .r64 .hfma264
  | 39 => .r64 .cvt64
  | 40 => .r64 .frcp64
  | 41 => .r64 .fsqrt64
  | 42 => .r64 .frsq64
  | 43 => .r64 .fexp264
  | 44 => .r64 .flog264
  | 45 => .r64 .fsinpi64
  | 46 => .r64 .fcospi64
  | 47 => .r64 .ftanh64
  | 48 => .r64 .quant64
  | 49 => .r64 .deq64
  | 50 => .r64 .requant64
  | 51 => .r64 .cvt864
  | 52 => .r64 .scale64
  | 56 => .r64 .shfl64
  | 57 => .r64 .push64
  | 58 => .r64 .vote64
  | 59 => .r64 .reduce64
  | 60 => .r64 .scan64
  | 61 => .r64 .brx64
  | 64 => .m64 .ld64
  | 65 => .m64 .st64
  | 66 => .m64 .atom64
  | 67 => .m64 .red64
  | 68 => .m64 .waita64
  | 69 => .m64 .poll64
  | 70 => .m64 .pref64
  | 71 => .m64 .cwb64
  | 72 => .m64 .cinv64
  | 73 => .m64 .devl64
  | 74 => .m64 .rput64
  | 75 => .m64 .rget64
  | 76 => .m64 .ratom64
  | 80 => .r64 .ord64
  | 81 => .r64 .rel64
  | 82 => .r64 .acq64
  | 83 => .r64 .fence64
  | 84 => .r64 .wait64
  | 85 => .r64 .bari64
  | 86 => .r64 (fun f => if fnBits f.fn 5 4 == 2 then .waitbTag64 f else .waitb64 f)
  | 87 => .r64 .bart64
  | 88 => .r64 .badd64
  | 89 => .r64 .csrr64
  | 90 => .r64 .csrw64
  | 91 => .r64 .grow64
  | 92 => .r64 .shrink64
  | 93 => .r64 .vacate64
  | 94 => .r64 .freeze64
  | 95 => .r64 .thaw64
  | 96 => .p64 .rsv64
  | 97 => .r64 .rls64
  | 98 => .r64 .cvdecl64
  | 99 => .r64 .sign64
  | 100 => .r64 .mma64
  | 101 => .p64 .mdrain64
  | 102 => .r64 .mbyp64
  | 103 => .r64 .rstat64
  | 104 => .p64 .lstream64
  | 105 => .r64 .lsmerge64
  | 106 => .p64 .lsgrad64
  | 112 => .p64 .cpy64
  | 113 => .p64 .plane64
  | 114 => .p64 .gather64
  | 115 => .p64 .pool64
  | 116 => .r64 (fun f => match fnBits f.fn 1 0 with | 1 => .collStop64 f | 2 => .collStatus64 f | _ => .collStart64 f)
  | 117 => .r64 .spawn64
  | 118 => .r64 .tdone64
  | 119 => .r64 .phase64
  | 120 => .r64 .pand64
  | 121 => .r64 .por64
  | 122 => .r64 .pxor64
  | 123 => .r64 .pnot64
  | 124 => .r64 .join64
  | 125 => .r64 .leave64
  | 126 => .r64 .waitm64
  | 127 => .r64 .part64
  | _ => .reserved

/-- The 96-bit map (R112). -/
def cell96 (op : Nat) : OpCell :=
  match op with
  | 0 => .illegal
  | 1 => .r96 .movi96
  | 2 => .r96 .iadd96
  | 3 => .r96 .imul96
  | 4 => .r96 .and96
  | 5 => .r96 .or96
  | 6 => .r96 .xor96
  | 7 => .r96 .isetp96
  | 8 => .r96 .fadd96
  | 9 => .r96 .fmul96
  | 10 => .r96 .ffma96
  | 11 => .r96 .fmin96
  | 12 => .r96 .fmax96
  | 13 => .r96 .fsetp96
  | 14 => .r96 .hfma296
  | 15 => .r96 .sel96
  | 16 => .m96 .ld96
  | 17 => .m96 .st96
  | 18 => .m96 .atom96
  | 19 => .m96 .red96
  | 20 => .m96 .pref96
  | 21 => .m96 .rput96
  | 22 => .m96 .rget96
  | 23 => .m96 .ratom96
  | 24 => .r96 .bra96
  | 25 => .r96 .call96
  | 26 => .r96 .lea96
  | 27 => .r96 .imad96
  | _ => if op < 0x40 then .reserved else .illegal

/-- What stands at the head of a parcel list. -/
inductive Parsed where
  | short
  | header
  | illegal (parcels : Nat)
  | reserved (parcels : Nat)
  /-- an instruction, its parcels, and whether PB is set exactly where the cell takes a record (R89) -/
  | instr (i : Instr) (parcels : Nat) (pbOk : Bool)
  deriving DecidableEq, Repr

/-- The length of the unit whose first parcel is `w`, in parcels (R71); a header counts 2. -/
def unitLength (w : Word) : Nat :=
  let rec4 := if w.getLsbD 9 then 4 else 0
  match (fld w 0 2).toNat with
  | 0 => 1
  | 1 => 2 + rec4
  | 2 => 3 + rec4
  | _ => 2

/-- The unit at the head of a parcel list, its cell looked up and its fields cut out (R71, R72, R81 to R83, R89). -/
def parse (l : List Word) : Parsed :=
  match l with
  | [] => .short
  | w :: rest =>
    let op := (fld w 2 7).toNat
    let n := unitLength w
    let pb := w.getLsbD 9
    if rest.length + 1 < n then .short else
    match (fld w 0 2).toNat with
    | 0 =>
      match cell32 op with
      | .illegal => .illegal n
      | .a32 mk => .instr (mk (parseA w)) n true
      | .i32 mk => .instr (mk (parseI w)) n true
      | .j32 mk => .instr (mk (parseJ w)) n true
      | .z32 mk => .instr (mk (parseZ w)) n true
      | _ => .reserved n
    | 1 =>
      match cell64 op with
      | .illegal => .illegal n
      | .r64 mk => .instr (mk (parseR w (rest.getD 0 0))) n (!pb)
      | .m64 mk => .instr (mk (parseM w (rest.getD 0 0))) n (!pb)
      | .p64 mk => .instr (mk ⟨parseR w (rest.getD 0 0), rest.getD 1 0, rest.getD 2 0, rest.getD 3 0, rest.getD 4 0⟩) n pb
      | _ => .reserved n
    | 2 =>
      match cell96 op with
      | .illegal => .illegal n
      | .r96 mk => .instr (mk ⟨parseR w (rest.getD 0 0), rest.getD 1 0⟩) n (!pb)
      | .m96 mk => .instr (mk ⟨parseM w (rest.getD 0 0), rest.getD 1 0⟩) n (!pb)
      | _ => .reserved n
    | _ => .header

/-- An instruction's fields are ones it accepts: the static part of 0x002 (R91). -/
def fieldsAccepted (i : Instr) : Bool := i.wf

/-- The instruction at the head of a parcel list and the parcels after it, or why there is none, in the order of R92. -/
def decode (l : List Word) : Except DecodeError (Instr × List Word) :=
  match parse l with
  | .short => .error .short
  | .header => .error .header
  | .illegal _ => .error .illegalOpcode
  | .reserved _ => .error .reservedOpcode
  | .instr i n pbOk => if pbOk && fieldsAccepted i then .ok (i, l.drop n) else .error .reservedField

/-- The parcels of a byte list, little-endian (R71); bytes beyond the last whole parcel are dropped. -/
def wordsOfBytes : List Byte → List Word
  | b0 :: b1 :: b2 :: b3 :: rest => (b3 ++ b2 ++ b1 ++ b0 : BitVec 32) :: wordsOfBytes rest
  | _ => []

/-- The bytes of parcels, little-endian (R71). -/
def bytesOfWords : List Word → List Byte
  | [] => []
  | w :: rest => fld w 0 8 :: fld w 8 8 :: fld w 16 8 :: fld w 24 8 :: bytesOfWords rest

/-- The instruction at the head of a byte list and the bytes after it. -/
def decodeBytes (l : List Byte) : Except DecodeError (Instr × List Byte) :=
  match decode (wordsOfBytes l) with
  | .ok (i, rest) => .ok (i, l.drop (l.length - 4 * rest.length - l.length % 4))
  | .error r => .error r

/-- The first parcel of a 64- or 96-bit instruction (R81): LEN, OP, PB, A, D, GUARD, END. -/
def encP0 (len : BitVec 2) (op : BitVec 7) (pb e : Bool) (g : BitVec 5) (d a : BitVec 8) : Word :=
  BitVec.ofBool e ++ g ++ d ++ a ++ BitVec.ofBool pb ++ op ++ len

def encA (op : BitVec 7) (f : F32A) : List Word := [encP0 0 op f.x f.e f.g f.d f.a]
def encI (op : BitVec 7) (f : F32I) : List Word := [BitVec.ofBool f.e ++ f.g ++ f.d ++ f.imm ++ op ++ (0 : BitVec 2)]
def encJ (op : BitVec 7) (f : F32J) : List Word := [BitVec.ofBool f.e ++ f.g ++ f.off ++ op ++ (0 : BitVec 2)]
def encZ (op : BitVec 7) (f : F32Z) : List Word := [BitVec.ofBool f.e ++ f.g ++ f.fn ++ op ++ (0 : BitVec 2)]

/-- Parcel 1 of form F64R (R82). -/
def encR1 (f : F64R) : Word := f.b ++ f.c ++ f.rnd ++ f.cd ++ f.ca ++ f.cb ++ f.cc ++ f.fn

/-- Parcel 1 of form F64M (R82). -/
def encM1 (f : F64M) : Word := f.b ++ f.off ++ f.sp ++ f.sz ++ f.cb ++ f.fn4

def encR (op : BitVec 7) (f : F64R) : List Word := [encP0 1 op false f.e f.g f.d f.a, encR1 f]
def encM (op : BitVec 7) (f : F64M) : List Word := [encP0 1 op false f.e f.g f.d f.a, encM1 f]
def encP (op : BitVec 7) (f : F64P) : List Word :=
  [encP0 1 op true f.r.e f.r.g f.r.d f.r.a, encR1 f.r, f.w0, f.w1, f.w2, f.w3]
def encR96 (op : BitVec 7) (f : F96R) : List Word := [encP0 2 op false f.r.e f.r.g f.r.d f.r.a, encR1 f.r, f.lit]
def encM96 (op : BitVec 7) (f : F96M) : List Word := [encP0 2 op false f.m.e f.m.g f.m.d f.m.a, encM1 f.m, f.lit]

/-- The parcels of an instruction (R80 to R83, R102 to R112); an event has none. -/
def encode : Instr → List Word
  | .mov32 f => encA 0x01 f
  | .mov64 f => encR 0x01 f
  | .movi32 f => encI 0x18 f
  | .movi96 f => encR96 0x01 f
  | .sel64 f => encR 0x02 f
  | .sel96 f => encR96 0x0f f
  | .lea64 f => encR 0x03 f
  | .lea96 f => encR96 0x1a f
  | .isetp64 f => encR 0x04 f
  | .isetp96 f => encR96 0x07 f
  | .fsetp64 f => encR 0x05 f
  | .fsetp96 f => encR96 0x0d f
  | .bfe64 f => encR 0x06 f
  | .bfi64 f => encR 0x07 f
  | .iadd32 f => encA 0x08 f
  | .iadd32i f => encI 0x19 f
  | .iadd64 f => encR 0x08 f
  | .iadd96 f => encR96 0x02 f
  | .isub32 f => encA 0x09 f
  | .isub64 f => encR 0x09 f
  | .imul32 f => encA 0x0a f
  | .imul32i f => encI 0x1a f
  | .imul64 f => encR 0x0a f
  | .imul96 f => encR96 0x03 f
  | .imad64 f => encR 0x0b f
  | .imad96 f => encR96 0x1b f
  | .imulh64 f => encR 0x0c f
  | .idiv64 f => encR 0x0d f
  | .irem64 f => encR 0x0e f
  | .iabs32 f => encA 0x03 f
  | .iabs64 f => encR 0x0f f
  | .imin32 f => encA 0x0e f
  | .imin64 f => encR 0x10 f
  | .imax32 f => encA 0x0f f
  | .imax64 f => encR 0x11 f
  | .shl32 f => encA 0x10 f
  | .shl32i f => encI 0x1e f
  | .shl64 f => encR 0x12 f
  | .shr32 f => encA 0x11 f
  | .shr32i f => encI 0x1f f
  | .shr64 f => encR 0x13 f
  | .sar32 f => encA 0x12 f
  | .sar32i f => encI 0x20 f
  | .sar64 f => encR 0x14 f
  | .rot32 f => encA 0x13 f
  | .rot32i f => encI 0x21 f
  | .rot64 f => encR 0x15 f
  | .popc32 f => encA 0x04 f
  | .popc64 f => encR 0x16 f
  | .clz32 f => encA 0x05 f
  | .clz64 f => encR 0x17 f
  | .and32 f => encA 0x0b f
  | .and32i f => encI 0x1b f
  | .and64 f => encR 0x18 f
  | .and96 f => encR96 0x04 f
  | .or32 f => encA 0x0c f
  | .or32i f => encI 0x1c f
  | .or64 f => encR 0x19 f
  | .or96 f => encR96 0x05 f
  | .xor32 f => encA 0x0d f
  | .xor32i f => encI 0x1d f
  | .xor64 f => encR 0x1a f
  | .xor96 f => encR96 0x06 f
  | .not32 f => encA 0x02 f
  | .not64 f => encR 0x1b f
  | .brev32 f => encA 0x06 f
  | .brev64 f => encR 0x1c f
  | .fadd32 f => encA 0x14 f
  | .fadd64 f => encR 0x20 f
  | .fadd96 f => encR96 0x08 f
  | .fmul32 f => encA 0x15 f
  | .fmul64 f => encR 0x21 f
  | .fmul96 f => encR96 0x09 f
  | .ffma64 f => encR 0x22 f
  | .ffma96 f => encR96 0x0a f
  | .fmin32 f => encA 0x16 f
  | .fmin64 f => encR 0x23 f
  | .fmin96 f => encR96 0x0b f
  | .fmax32 f => encA 0x17 f
  | .fmax64 f => encR 0x24 f
  | .fmax96 f => encR96 0x0c f
  | .frnd64 f => encR 0x25 f
  | .hfma264 f => encR 0x26 f
  | .hfma296 f => encR96 0x0e f
  | .cvt64 f => encR 0x27 f
  | .frcp64 f => encR 0x28 f
  | .fsqrt64 f => encR 0x29 f
  | .frsq64 f => encR 0x2a f
  | .fexp264 f => encR 0x2b f
  | .flog264 f => encR 0x2c f
  | .fsinpi64 f => encR 0x2d f
  | .fcospi64 f => encR 0x2e f
  | .ftanh64 f => encR 0x2f f
  | .quant64 f => encR 0x30 f
  | .deq64 f => encR 0x31 f
  | .requant64 f => encR 0x32 f
  | .cvt864 f => encR 0x33 f
  | .scale64 f => encR 0x34 f
  | .grow32 f => encI 0x25 f
  | .grow64 f => encR 0x5b f
  | .shrink32 f => encI 0x26 f
  | .shrink64 f => encR 0x5c f
  | .laneid32 f => encA 0x07 f
  | .part32 f => encI 0x22 f
  | .part64 f => encR 0x7f f
  | .pand32 f => encA 0x28 f
  | .pand64 f => encR 0x78 f
  | .por32 f => encA 0x29 f
  | .por64 f => encR 0x79 f
  | .pxor32 f => encA 0x2a f
  | .pxor64 f => encR 0x7a f
  | .pnot32 f => encA 0x2b f
  | .pnot64 f => encR 0x7b f
  | .join32 f => encA 0x2c f
  | .join64 f => encR 0x7c f
  | .leave32 f => encA 0x2d f
  | .leave64 f => encR 0x7d f
  | .waitm32 f => encA 0x2e f
  | .waitm64 f => encR 0x7e f
  | .bra32 f => encJ 0x30 f
  | .bra96 f => encR96 0x18 f
  | .call32 f => encJ 0x31 f
  | .call96 f => encR96 0x19 f
  | .shfl64 f => encR 0x38 f
  | .push64 f => encR 0x39 f
  | .vote64 f => encR 0x3a f
  | .reduce64 f => encR 0x3b f
  | .scan64 f => encR 0x3c f
  | .brx64 f => encR 0x3d f
  | .nop32 f => encZ 0x78 f
  | .ret32 f => encZ 0x79 f
  | .tret32 f => encZ 0x7a f
  | .bkpt32 f => encZ 0x7b f
  | .trap32 f => encZ 0x7c f
  | .exit32 f => encZ 0x7f f
  | .ld64 f => encM 0x40 f
  | .ld96 f => encM96 0x10 f
  | .st64 f => encM 0x41 f
  | .st96 f => encM96 0x11 f
  | .atom64 f => encM 0x42 f
  | .atom96 f => encM96 0x12 f
  | .red64 f => encM 0x43 f
  | .red96 f => encM96 0x13 f
  | .waita64 f => encM 0x44 f
  | .poll64 f => encM 0x45 f
  | .pref64 f => encM 0x46 f
  | .pref96 f => encM96 0x14 f
  | .cwb64 f => encM 0x47 f
  | .cinv64 f => encM 0x48 f
  | .devl64 f => encM 0x49 f
  | .rput64 f => encM 0x4a f
  | .rput96 f => encM96 0x15 f
  | .rget64 f => encM 0x4b f
  | .rget96 f => encM96 0x16 f
  | .ratom64 f => encM 0x4c f
  | .ratom96 f => encM96 0x17 f
  | .ord64 f => encR 0x50 f
  | .rel64 f => encR 0x51 f
  | .acq64 f => encR 0x52 f
  | .fence32 f => encZ 0x7d f
  | .fence64 f => encR 0x53 f
  | .wait64 f => encR 0x54 f
  | .bari64 f => encR 0x55 f
  | .waitb64 f => encR 0x56 f
  | .waitbTag64 f => encR 0x56 f
  | .bart64 f => encR 0x57 f
  | .badd64 f => encR 0x58 f
  | .csrr32 f => encI 0x23 f
  | .csrr64 f => encR 0x59 f
  | .csrw32 f => encI 0x24 f
  | .csrw64 f => encR 0x5a f
  | .vacate64 f => encR 0x5d f
  | .freeze64 f => encR 0x5e f
  | .thaw64 f => encR 0x5f f
  | .rsv64 f => encP 0x60 f
  | .rls64 f => encR 0x61 f
  | .cvdecl64 f => encR 0x62 f
  | .sign32 f => encA 0x2f f
  | .sign64 f => encR 0x63 f
  | .mma64 f => encR 0x64 f
  | .mdrain64 f => encP 0x65 f
  | .mbyp64 f => encR 0x66 f
  | .rstat64 f => encR 0x67 f
  | .lstream64 f => encP 0x68 f
  | .lsmerge64 f => encR 0x69 f
  | .lsgrad64 f => encP 0x6a f
  | .cpy64 f => encP 0x70 f
  | .plane64 f => encP 0x71 f
  | .gather64 f => encP 0x72 f
  | .pool64 f => encP 0x73 f
  | .collStart64 f => encR 0x74 f
  | .collStop64 f => encR 0x74 f
  | .collStatus64 f => encR 0x74 f
  | .spawn64 f => encR 0x75 f
  | .tdone64 f => encR 0x76 f
  | .phase32 f => encZ 0x7e f
  | .phase64 f => encR 0x77 f
  | .issueArbitration _ => []
  | .progressOverride _ => []
  | .continuationReady _ _ => []
  | .deferredFaultFound _ => []
  | .trapDelivery _ => []
  | .loadDataReturn _ => []
  | .storePerformed _ => []
  | .atomResultReturn _ => []
  | .pageWalkComplete _ => []
  | .activeMessage _ => []
  | .otherDieRead _ _ => []
  | .otherDieWrite _ _ => []
  | .l2Eviction _ _ _ => []
  | .backInvalidation _ _ => []
  | .backInvalidationAnswer _ _ => []
  | .bisnp _ _ => []
  | .regionModeSwitch _ _ _ => []
  | .fenceComplete _ => []
  | .devlPerformed _ => []
  | .waitaWake _ _ => []
  | .waitaTimeout _ _ => []
  | .waitaReread _ _ => []
  | .uncorrectableError _ _ => []
  | .correctedError _ _ _ => []
  | .allocatorPass _ => []
  | .growSpill _ => []
  | .spillRestore _ _ => []
  | .waveSlotRelease _ => []
  | .engineEntryPush _ => []
  | .copyCommandStart _ _ => []
  | .copyFlitDelivery _ _ => []
  | .copyBlockVerified _ _ => []
  | .chanTagFail _ _ => []
  | .copyBlockRefetch _ _ => []
  | .copyComplete _ _ => []
  | .gatherPoolComplete _ _ => []
  | .matrixOpComplete _ => []
  | .launch _ => []
  | .tasks _ => []
  | .nodes _ => []
  | .event _ => []
  | .waitv _ => []
  | .eventWrite _ => []
  | .waitvSatisfied _ => []
  | .ringRestart _ _ => []
  | .crewPlacement _ => []
  | .taskCompletionApply _ => []
  | .taskLaunchFetch _ => []
  | .batchTimerExpiry _ _ => []
  | .batchLaunch _ => []
  | .send _ => []
  | .recv _ => []
  | .rscat _ => []
  | .agath _ => []
  | .mcast _ => []
  | .signal _ => []
  | .loop _ => []
  | .halt _ => []
  | .collBadCommand _ => []
  | .collReservedCommand _ => []
  | .wordComplete _ => []
  | .collTimeout _ => []
  | .abortPacket _ => []
  | .freezeNotice _ => []
  | .thawNotice _ => []
  | .fwd _ => []
  | .addF32 _ => []
  | .addBf16 _ => []
  | .routeMcast _ => []
  | .deliver _ => []
  | .routeSignal _ => []
  | .routeErrorNotice _ => []
  | .resendRequest _ => []
  | .flitReceive _ _ => []
  | .ack _ => []
  | .nak _ => []
  | .ackTimer _ => []
  | .nakRepeatTimer _ => []
  | .replayTimer _ => []
  | .portDown _ => []
  | .dropNotice _ => []
  | .dropGatherTimer _ => []
  | .reservationRequest _ _ => []
  | .reservationGrant _ => []
  | .reservedWindowStart _ => []
  | .remoteAccessRequest _ => []
  | .remoteAccessResponse _ => []
  | .netRequest _ => []
  | .netResponse _ _ => []
  | .staleNotice _ => []
  | .netRetryTimer _ => []
  | .busyResendTimer _ => []
  | .responseAck _ => []
  | .atomicCacheExpiry _ _ => []
  | .regionContextFill _ _ => []
  | .dcdExtentAdded _ _ _ _ => []
  | .cxlResponseTimeout _ => []
  | .barrierCountingCycle _ => []
  | .barrierAutoRecomplete _ => []
  | .routeTagRelease _ _ => []
  | .drainEngineTimeout _ => []
  | .systemOpComplete _ => []
  | .invalidate _ _ _ => []
  | .bmread _ _ _ => []
  | .esload _ _ _ => []
  | .phaseset _ _ _ => []
  | .ringcfg _ _ _ _ _ => []
  | .rdesc _ _ => []
  | .bufmap _ _ _ => []
  | .wavectlResume _ _ _ => []
  | .wavectlEnd _ _ _ => []
  | .wavectlFrame _ _ _ => []
  | .sysopVacate _ _ _ => []
  | .sysopFreeze _ _ _ => []
  | .sysopThaw _ _ => []
  | .ctrread _ _ _ _ => []
  | .partset _ _ _ => []
  | .lctset _ _ _ _ => []
  | .linkctlRetrain _ _ => []
  | .linkctlDisable _ _ => []
  | .linkTrainingComplete _ _ => []
  | .powercap _ _ => []
  | .featlock _ _ _ => []
  | .coldReset _ _ => []
  | .deviceReset _ _ => []
  | .interfaceReset _ => []
  | .powerControlTick _ _ _ _ => []
  | .coreFailure _ => []
  | .dcdExtentRelease _ _ _ _ => []
  | .busyAnswer _ => []
  | .unknownOpcode _ => []
  | .straddle _ => []

/-- The engine classes that an instruction needs in ECLASS, as a mask (R76). -/
def engineClasses : Instr → Nat
  | .mov32 _ => 0
  | .mov64 _ => 0
  | .movi32 _ => 0
  | .movi96 _ => 0
  | .sel64 _ => 0
  | .sel96 _ => 0
  | .lea64 _ => 0
  | .lea96 _ => 0
  | .isetp64 _ => 0
  | .isetp96 _ => 0
  | .fsetp64 _ => 0
  | .fsetp96 _ => 0
  | .bfe64 _ => 0
  | .bfi64 _ => 0
  | .iadd32 _ => 0
  | .iadd32i _ => 0
  | .iadd64 _ => 0
  | .iadd96 _ => 0
  | .isub32 _ => 0
  | .isub64 _ => 0
  | .imul32 _ => 0
  | .imul32i _ => 0
  | .imul64 _ => 0
  | .imul96 _ => 0
  | .imad64 _ => 0
  | .imad96 _ => 0
  | .imulh64 _ => 0
  | .idiv64 _ => 0
  | .irem64 _ => 0
  | .iabs32 _ => 0
  | .iabs64 _ => 0
  | .imin32 _ => 0
  | .imin64 _ => 0
  | .imax32 _ => 0
  | .imax64 _ => 0
  | .shl32 _ => 0
  | .shl32i _ => 0
  | .shl64 _ => 0
  | .shr32 _ => 0
  | .shr32i _ => 0
  | .shr64 _ => 0
  | .sar32 _ => 0
  | .sar32i _ => 0
  | .sar64 _ => 0
  | .rot32 _ => 0
  | .rot32i _ => 0
  | .rot64 _ => 0
  | .popc32 _ => 0
  | .popc64 _ => 0
  | .clz32 _ => 0
  | .clz64 _ => 0
  | .and32 _ => 0
  | .and32i _ => 0
  | .and64 _ => 0
  | .and96 _ => 0
  | .or32 _ => 0
  | .or32i _ => 0
  | .or64 _ => 0
  | .or96 _ => 0
  | .xor32 _ => 0
  | .xor32i _ => 0
  | .xor64 _ => 0
  | .xor96 _ => 0
  | .not32 _ => 0
  | .not64 _ => 0
  | .brev32 _ => 0
  | .brev64 _ => 0
  | .fadd32 _ => 0
  | .fadd64 _ => 0
  | .fadd96 _ => 0
  | .fmul32 _ => 0
  | .fmul64 _ => 0
  | .fmul96 _ => 0
  | .ffma64 _ => 0
  | .ffma96 _ => 0
  | .fmin32 _ => 0
  | .fmin64 _ => 0
  | .fmin96 _ => 0
  | .fmax32 _ => 0
  | .fmax64 _ => 0
  | .fmax96 _ => 0
  | .frnd64 _ => 0
  | .hfma264 _ => 0
  | .hfma296 _ => 0
  | .cvt64 _ => 0
  | .frcp64 _ => 0
  | .fsqrt64 _ => 0
  | .frsq64 _ => 0
  | .fexp264 _ => 0
  | .flog264 _ => 0
  | .fsinpi64 _ => 0
  | .fcospi64 _ => 0
  | .ftanh64 _ => 0
  | .quant64 _ => 0
  | .deq64 _ => 0
  | .requant64 _ => 0
  | .cvt864 _ => 0
  | .scale64 _ => 0
  | .grow32 _ => 0
  | .grow64 _ => 0
  | .shrink32 _ => 0
  | .shrink64 _ => 0
  | .laneid32 _ => 0
  | .part32 _ => 0
  | .part64 _ => 0
  | .pand32 _ => 0
  | .pand64 _ => 0
  | .por32 _ => 0
  | .por64 _ => 0
  | .pxor32 _ => 0
  | .pxor64 _ => 0
  | .pnot32 _ => 0
  | .pnot64 _ => 0
  | .join32 _ => 0
  | .join64 _ => 0
  | .leave32 _ => 0
  | .leave64 _ => 0
  | .waitm32 _ => 0
  | .waitm64 _ => 0
  | .bra32 _ => 0
  | .bra96 _ => 0
  | .call32 _ => 0
  | .call96 _ => 0
  | .shfl64 _ => 0
  | .push64 _ => 0
  | .vote64 _ => 0
  | .reduce64 _ => 0
  | .scan64 _ => 0
  | .brx64 _ => 0
  | .nop32 _ => 0
  | .ret32 _ => 0
  | .tret32 _ => 0
  | .bkpt32 _ => 0
  | .trap32 _ => 0
  | .exit32 _ => 0
  | .ld64 _ => 1
  | .ld96 _ => 1
  | .st64 _ => 1
  | .st96 _ => 1
  | .atom64 _ => 1
  | .atom96 _ => 1
  | .red64 _ => 1
  | .red96 _ => 1
  | .waita64 _ => 1
  | .poll64 _ => 1
  | .pref64 _ => 1
  | .pref96 _ => 1
  | .cwb64 _ => 1
  | .cinv64 _ => 1
  | .devl64 _ => 1
  | .rput64 _ => 32
  | .rput96 _ => 32
  | .rget64 _ => 32
  | .rget96 _ => 32
  | .ratom64 _ => 32
  | .ratom96 _ => 32
  | .ord64 _ => 0
  | .rel64 _ => 0
  | .acq64 _ => 0
  | .fence32 _ => 0
  | .fence64 _ => 0
  | .wait64 _ => 0
  | .bari64 _ => 0
  | .waitb64 _ => 0
  | .waitbTag64 _ => 0
  | .bart64 _ => 0
  | .badd64 _ => 0
  | .csrr32 _ => 0
  | .csrr64 _ => 0
  | .csrw32 _ => 128
  | .csrw64 _ => 128
  | .vacate64 _ => 128
  | .freeze64 _ => 128
  | .thaw64 _ => 128
  | .rsv64 _ => 2
  | .rls64 _ => 2
  | .cvdecl64 _ => 0
  | .sign32 _ => 0
  | .sign64 _ => 0
  | .mma64 _ => 2
  | .mdrain64 f => if fnBits f.r.fn 4 3 == 2 then 18 else 2
  | .mbyp64 _ => 2
  | .rstat64 _ => 2
  | .lstream64 _ => 2
  | .lsmerge64 _ => 2
  | .lsgrad64 _ => 2
  | .cpy64 _ => 4
  | .plane64 _ => 4
  | .gather64 _ => 8
  | .pool64 _ => 8
  | .collStart64 _ => 16
  | .collStop64 _ => 16
  | .collStatus64 _ => 16
  | .spawn64 _ => 64
  | .tdone64 _ => 64
  | .phase32 _ => 64
  | .phase64 _ => 64
  | .issueArbitration _ => 0
  | .progressOverride _ => 0
  | .continuationReady _ _ => 0
  | .deferredFaultFound _ => 0
  | .trapDelivery _ => 0
  | .loadDataReturn _ => 0
  | .storePerformed _ => 0
  | .atomResultReturn _ => 0
  | .pageWalkComplete _ => 0
  | .activeMessage _ => 0
  | .otherDieRead _ _ => 0
  | .otherDieWrite _ _ => 0
  | .l2Eviction _ _ _ => 0
  | .backInvalidation _ _ => 0
  | .backInvalidationAnswer _ _ => 0
  | .bisnp _ _ => 0
  | .regionModeSwitch _ _ _ => 0
  | .fenceComplete _ => 0
  | .devlPerformed _ => 0
  | .waitaWake _ _ => 0
  | .waitaTimeout _ _ => 0
  | .waitaReread _ _ => 0
  | .uncorrectableError _ _ => 0
  | .correctedError _ _ _ => 0
  | .allocatorPass _ => 0
  | .growSpill _ => 0
  | .spillRestore _ _ => 0
  | .waveSlotRelease _ => 0
  | .engineEntryPush _ => 0
  | .copyCommandStart _ _ => 0
  | .copyFlitDelivery _ _ => 0
  | .copyBlockVerified _ _ => 0
  | .chanTagFail _ _ => 0
  | .copyBlockRefetch _ _ => 0
  | .copyComplete _ _ => 0
  | .gatherPoolComplete _ _ => 0
  | .matrixOpComplete _ => 0
  | .launch _ => 0
  | .tasks _ => 0
  | .nodes _ => 0
  | .event _ => 0
  | .waitv _ => 0
  | .eventWrite _ => 0
  | .waitvSatisfied _ => 0
  | .ringRestart _ _ => 0
  | .crewPlacement _ => 0
  | .taskCompletionApply _ => 0
  | .taskLaunchFetch _ => 0
  | .batchTimerExpiry _ _ => 0
  | .batchLaunch _ => 0
  | .send _ => 0
  | .recv _ => 0
  | .rscat _ => 0
  | .agath _ => 0
  | .mcast _ => 0
  | .signal _ => 0
  | .loop _ => 0
  | .halt _ => 0
  | .collBadCommand _ => 0
  | .collReservedCommand _ => 0
  | .wordComplete _ => 0
  | .collTimeout _ => 0
  | .abortPacket _ => 0
  | .freezeNotice _ => 0
  | .thawNotice _ => 0
  | .fwd _ => 0
  | .addF32 _ => 0
  | .addBf16 _ => 0
  | .routeMcast _ => 0
  | .deliver _ => 0
  | .routeSignal _ => 0
  | .routeErrorNotice _ => 0
  | .resendRequest _ => 0
  | .flitReceive _ _ => 0
  | .ack _ => 0
  | .nak _ => 0
  | .ackTimer _ => 0
  | .nakRepeatTimer _ => 0
  | .replayTimer _ => 0
  | .portDown _ => 0
  | .dropNotice _ => 0
  | .dropGatherTimer _ => 0
  | .reservationRequest _ _ => 0
  | .reservationGrant _ => 0
  | .reservedWindowStart _ => 0
  | .remoteAccessRequest _ => 0
  | .remoteAccessResponse _ => 0
  | .netRequest _ => 0
  | .netResponse _ _ => 0
  | .staleNotice _ => 0
  | .netRetryTimer _ => 0
  | .busyResendTimer _ => 0
  | .responseAck _ => 0
  | .atomicCacheExpiry _ _ => 0
  | .regionContextFill _ _ => 0
  | .dcdExtentAdded _ _ _ _ => 0
  | .cxlResponseTimeout _ => 0
  | .barrierCountingCycle _ => 0
  | .barrierAutoRecomplete _ => 0
  | .routeTagRelease _ _ => 0
  | .drainEngineTimeout _ => 0
  | .systemOpComplete _ => 0
  | .invalidate _ _ _ => 0
  | .bmread _ _ _ => 0
  | .esload _ _ _ => 0
  | .phaseset _ _ _ => 0
  | .ringcfg _ _ _ _ _ => 0
  | .rdesc _ _ => 0
  | .bufmap _ _ _ => 0
  | .wavectlResume _ _ _ => 0
  | .wavectlEnd _ _ _ => 0
  | .wavectlFrame _ _ _ => 0
  | .sysopVacate _ _ _ => 0
  | .sysopFreeze _ _ _ => 0
  | .sysopThaw _ _ => 0
  | .ctrread _ _ _ _ => 0
  | .partset _ _ _ => 0
  | .lctset _ _ _ _ => 0
  | .linkctlRetrain _ _ => 0
  | .linkctlDisable _ _ => 0
  | .linkTrainingComplete _ _ => 0
  | .powercap _ _ => 0
  | .featlock _ _ _ => 0
  | .coldReset _ _ => 0
  | .deviceReset _ _ => 0
  | .interfaceReset _ => 0
  | .powerControlTick _ _ _ _ => 0
  | .coreFailure _ => 0
  | .dcdExtentRelease _ _ _ _ => 0
  | .busyAnswer _ => 0
  | .unknownOpcode _ => 0
  | .straddle _ => 0

/-- The words of a table row: `w` cut to `nbits` bits, 32 bits to a parcel, the bits above zero, seven parcels, the longest
instruction. -/
def tableParcels (nbits w : Nat) : List Word :=
  (List.range 7).map (fun i => BitVec.ofNat 32 ((w % 2 ^ nbits) >>> (32 * i)))

/-- The instruction that the decoder reads from an instruction whose bits are `w`, bit 0 the least significant of the
first parcel. -/
def decodeTableWord (nbits w : Nat) : Option Instr :=
  match decode (tableParcels nbits w) with
  | .ok (i, _) => some i
  | .error _ => none

end Sys2Proof
end

