-- ==== Sys2Proof/Config.lean ====
section
/-! DEFINITION. The constants of the part (R10, R12) and the values the manual leaves open, as constants with no body. -/

namespace Sys2Proof.Config

/-- A value the manual leaves open, drawn by the machine's free counter: the bytes that an unverified copy block
may hold after its tag failed (R395), and the bytes of a granule struck by an uncorrectable error (R253).
No body: nothing can be proved about which byte it is (log entry 1). -/
opaque freeByte : Nat → Byte

/-- One K-step of a cell of `LSTREAM` or `LSGRAD` whose sparse row has a mask that R60 does not allow: the manual gives the fault to
`MMA` alone and states no product. The new value, and its five flags above it, as a function of what the step reads, so that equal
operands give equal logits (R295). No body (log entry 48). -/
opaque freeStep : List Nat → BitVec 37

/-- The number of this pod, which network addresses and member tables name (R335, R353). The manual does not say how a package
learns it: no body (log entry 12). -/
opaque ownPod : BitVec 12

/-- Whether the contributions to a chunk meet in pairs of packages before the shard's own unit does the rest: which hub forms each node is
not architectural, and an arrival-mode result may be either (R69, R341, R464). By context number, word and chunk. No body (log entry 41). -/
opaque pairsFirst : Nat → Nat → Nat → Bool

/-- Lanes of a wave (R2). -/
abbrev lanes : Nat := 32

/-- Cores of a package (R10). -/
abbrev coresPerPkg : Nat := 256

/-- Cores of a die (R10). -/
abbrev coresPerDie : Nat := 128

/-- Wave slots of a core (R10). -/
abbrev slotsPerCore : Nat := 64

/-- Issue ports of a core (R26). -/
abbrev portsPerCore : Nat := 4

/-- Granules of a core's register file (R158). -/
abbrev granulesPerCore : Nat := 1024

/-- Bench bytes of a core (R10). -/
abbrev benchBytes : Nat := 524288

/-- Operand-buffer units of a core (R270). -/
abbrev obUnits : Nat := 512

/-- Copy channels of a core (R12). -/
abbrev channels : Nat := 8

/-- Commands a copy channel holds (R297). -/
abbrev channelDepth : Nat := 16

/-- Commands a gather-pool engine holds (R297). -/
abbrev gatherDepth : Nat := 64

/-- Replay entries of a wave (R243). -/
abbrev replayLimit : Nat := 24

/-- Outstanding requests of a die's network request table (R330). -/
abbrev netTable : Nat := 8192

/-- Packages of a pod (R33). -/
abbrev packages : Nat := 512

/-- Virtual interfaces of a package (R440). -/
abbrev interfaces : Nat := 64

/-- Collective contexts of a die (R331). -/
abbrev contexts : Nat := 16

/-- UALink ports of a package (R10). -/
abbrev rails : Nat := 24

/-- Launches that the launch list holds (R297). -/
abbrev launchList : Nat := 256

/-- Recorded EVENTs per ring (R484). -/
abbrev eventsPerRing : Nat := 64

/-- Entries of the trap path's watch tables (R262). -/
abbrev watchTable : Nat := 64

/-- Entries of a far-dirty queue (R220). -/
abbrev farDirty : Nat := 4096

/-- Entries of a snoop filter (R204). -/
abbrev snoopEntries : Nat := 262144

end Sys2Proof.Config
end

