-- ==== Sys2Proof/Machine/Sparse.lean ====
section
/-! DEFINITION. Sparse maps in one canonical form: pairs of a key and a value, keys strictly rising, no pair holding the
value that an unlisted key reads as. Memory, the bench, registers and every table of the device are held this way. -/

namespace Sys2Proof.Machine

/-- A sparse map from numbers to `α`; what an unlisted key reads as is given where the map is read. -/
abbrev SMap (α : Type) := List (Nat × α)

/-- The value at key `k`, `d` where none is listed. -/
def smGet {α : Type} (m : SMap α) (d : α) (k : Nat) : α :=
  match m with
  | [] => d
  | (k', v) :: rest => if k' = k then v else if k < k' then d else smGet rest d k

/-- Every key of a list that begins here is above `k`, as far as its first key says. -/
def smAbove {α : Type} (k : Nat) (m : SMap α) : Bool :=
  match m with
  | [] => true
  | (k', _) :: _ => decide (k < k')

/-- Put a pair before a list whose keys are all higher, unless it holds the default. In a list that is not in the canonical form,
which no run makes, a pair stays listed where leaving it out would show a later pair of its key. -/
def smCons {α : Type} [DecidableEq α] (d : α) (k : Nat) (v : α) (rest : SMap α) : SMap α :=
  if v = d && smAbove k rest then rest else (k, v) :: rest

/-- Set key `k` to `v`; setting the default removes the pair. -/
def smSet {α : Type} [DecidableEq α] (m : SMap α) (d : α) (k : Nat) (v : α) : SMap α :=
  match m with
  | [] => smCons d k v []
  | (k', v') :: rest =>
    if k' = k then smCons d k v rest
    else if k < k' then smCons d k v ((k', v') :: rest)
    else (k', v') :: smSet rest d k v

/-- Change the value at key `k`. -/
def smMod {α : Type} [DecidableEq α] (m : SMap α) (d : α) (k : Nat) (f : α → α) : SMap α := smSet m d k (f (smGet m d k))

/-- The canonical form: keys above `lo` and strictly rising, no default listed. -/
def smWfFrom {α : Type} [DecidableEq α] (d : α) (lo : Option Nat) (m : SMap α) : Bool :=
  match m with
  | [] => true
  | (k, v) :: rest => (match lo with | none => true | some l => decide (l < k)) && decide (v ≠ d) && smWfFrom d (some k) rest

/-- The canonical form of a whole map. -/
def smWf {α : Type} [DecidableEq α] (d : α) (m : SMap α) : Bool := smWfFrom d none m

/-- Remove every pair whose key fails `p`. -/
def smFilter {α : Type} (m : SMap α) (p : Nat → Bool) : SMap α := m.filter (fun kv => p kv.1)

/-- Memory bytes, keyed by address. An unlisted byte reads as 0 (log entry 2). -/
abbrev Memory := List Host.Cell

/-- What a byte of memory or of a bench that nothing has written reads as (log entry 2). -/
def emptyByte : Byte := 0

/-- The byte at an address. -/
def Memory.read (m : Memory) (a : Nat) : Byte := smGet m emptyByte a

/-- Write one byte. -/
def Memory.write (m : Memory) (a : Nat) (b : Byte) : Memory := smSet m emptyByte a b

/-- The canonical form of memory. -/
def Memory.wf (m : Memory) : Bool := smWf emptyByte m

/-- `n` bytes from `a` as a little-endian number (R4). -/
def Memory.readN (m : Memory) (a n : Nat) : Nat :=
  match n with
  | 0 => 0
  | n + 1 => (m.read a).toNat + 256 * Memory.readN m (a + 1) n

/-- Write the low `n` bytes of `x` from `a`, little-endian (R4). -/
def Memory.writeN (m : Memory) (a n x : Nat) : Memory :=
  match n with
  | 0 => m
  | n + 1 => Memory.writeN (m.write a (BitVec.ofNat 8 x)) (a + 1) n (x / 256)

end Sys2Proof.Machine
end

