-- ==== Sys2Proof/Machine/State.lean ====
section
/-! DEFINITION. The state of a pod as plain data: every piece of state the manual names.
Things are named by numbers: a package 0 to 511; a die `2 * package + die`; a core `256 * package + 128 * die + core`
(the package core index of R3 within its package); a cluster `64 * package + 32 * die + cluster`; a wave
`64 * core + slot`; a virtual interface `64 * package + interface`; a ring `16 * interface + ring`; a collective
context `16 * die + context`. -/

namespace Sys2Proof.Machine

/-- What one lane of a wave holds for itself (R114, R164, R412). -/
structure Lane where
  /-- PC, 57 bits sign-extended to 64 -/
  pc : DWord := 0
  /-- header of the stroke that holds PC -/
  head : DWord := 0
  /-- MID: PC lies inside a stroke -/
  mid : Bool := false
  /-- park tag; 0xF not parked -/
  park : Nat := 15
  /-- TILE flag of the `WAITM` that parked the lane -/
  tile : Bool := false
  /-- return stack, top first; its length is the depth -/
  stack : List DWord := []
  deriving DecidableEq, Repr

/-- One issue path of a wave, mid-stroke (R18 to R20, R74, R79). -/
structure Path where
  /-- the path is issuing a stroke -/
  on : Bool := false
  lanes : Lanes := 0
  /-- address of the instruction due -/
  pc : DWord := 0
  /-- address of the stroke's header -/
  head : DWord := 0
  /-- instructions of the stroke before the one due -/
  idx : Nat := 0
  /-- COUNT of the header -/
  count : Nat := 0
  /-- fall-through header of the stroke (R73) -/
  fall : DWord := 0
  /-- fabric physical address of the 4 KiB page that holds the stroke -/
  page : Nat := 0
  /-- issued as a continuation (R28) -/
  cont : Bool := false
  /-- a path B whose stroke cannot start: the cause, behind path A's instruction of the cycle (R407), and the parcels read -/
  bad : Option (Nat × List Word) := none
  deriving DecidableEq, Repr

/-- What a continuation waits for (R28, R243, R263, R298, R157, R384, R425). -/
inductive Cond where
  /-- ready at once (a failed `POLL`, a lane inside a stroke after `TRET`) -/
  | now
  /-- counters at or below TILE, CPY, ST, LD, ENG; 256 places no condition -/
  | counters (tile cpy st ld eng : Nat)
  /-- a replay entry frees -/
  | replay
  /-- a copy channel has room -/
  | channel (ch : Nat)
  /-- the gather-pool engine has room -/
  | gather
  /-- the record store has room for so many units -/
  | store (units : Nat)
  /-- the allocator grants the request -/
  | grow
  /-- the system operation completes -/
  | sysop
  /-- a queue register holds an entry, or has room for one (R120) -/
  | pop (q : Nat)
  | push (q : Nat)
  deriving DecidableEq, Repr

/-- The rest of a stroke that ended early (R28). -/
structure Cont where
  lanes : Lanes := 0
  pc : DWord := 0
  head : DWord := 0
  /-- the path's ORDP slot that is kept (R127): pending, scope and order -/
  slot : Option Nat := none
  cond : Cond := .now
  /-- the path that it stopped on -/
  path : Nat := 0
  /-- it stands over a handler: its lanes run the handler, and wait again once that returns (R425) -/
  kept : Bool := false
  deriving DecidableEq, Repr

/-- The read of a parked `WAITA` (R261, R262): its operand address and space, where it stood in memory when it parked, its size in
bytes, its comparand, the order and scope that it took, its timeout code, its destination scalar, and whether its read point's watch
table was full. -/
structure Watch where
  addr : Nat := 0
  space : Nat := 0
  pa : Nat := 0
  size : Nat := 4
  cmp : Nat := 0
  order : Nat := 0
  scope : Nat := 0
  timeout : Nat := 0
  d : Nat := 0
  reread : Bool := false
  deriving DecidableEq, Repr

/-- What parked lanes of a path wait for, besides a mask (R261, R393, R400). -/
inductive Await where
  /-- `WAITA` -/
  | value (x : Watch)
  /-- `WAITB`: object, destination scalar -/
  | barrier (obj : Nat) (d : Nat)
  /-- `WAITB.tag`: the tag; 8 more once it has released its lanes and they wait for the wires only -/
  | tag (n : Nat)
  deriving DecidableEq, Repr

/-- Lanes parked by one waiting instruction (R409): where the instruction stands and where the lanes go. -/
structure Wait where
  lanes : Lanes := 0
  path : Nat := 0
  pc : DWord := 0
  head : DWord := 0
  fall : DWord := 0
  on : Await := .tag 0
  /-- issue cycle of the wave in which it parked (R391, R397) -/
  cycle : Nat := 0
  deriving DecidableEq, Repr

/-- A cause that stands undelivered (R406, R421). -/
structure Pending where
  cause : Nat := 0
  /-- its place in the choice of R421, 1 to 6, and within it the issue order -/
  rank : Nat := 0
  order : Nat := 0
  path : Nat := 0
  lanes : Lanes := 0
  detail : Nat := 0
  addr : Nat := 0
  parcels : List Word := []
  /-- raised by the shadow wave -/
  shadow : Bool := false
  deriving DecidableEq, Repr

/-- One lane of a memory instruction in flight: its address, its data, and how far its translation is. -/
inductive LaneStage where
  /-- not translated yet -/
  | need
  /-- a walk is running -/
  | walking
  /-- translated: fabric physical address, region mode, address of the leaf entry + 1 or 0, buffer map entry + 1 or 0 -/
  | ready (pa mode pte buf : Nat)
  /-- a fault was found -/
  | bad (cause : Nat)
  /-- performed -/
  | done
  deriving DecidableEq, Repr

structure LaneAcc where
  lane : Nat := 0
  addr : Nat := 0
  data : Nat := 0
  stage : LaneStage := .need
  /-- its data come from a poisoned granule of a register file (R253) -/
  poison : Bool := false
  deriving DecidableEq, Repr

/-- What a memory operation does (R238, R355, R382). -/
inductive OpKind' where
  | load | store | atom | red | cwb | cinv | devl | rel | acq | fence | bari | badd | rput | rget | ratom | tdone
  deriving DecidableEq, Repr

/-- An operation in flight, from issue to its last effect (R243, R413). -/
structure Op where
  id : Nat := 0
  w : Nat := 0
  path : Nat := 0
  kind : OpKind' := .load
  pc : DWord := 0
  /-- parcels, literal and parameter words after substitution -/
  parcels : List Word := []
  order : Nat := 0
  scope : Nat := 0
  space : Nat := 0
  /-- SZ and FN4 as encoded -/
  sz : Nat := 0
  fn4 : Nat := 0
  /-- D field -/
  d : Nat := 0
  lanes : List LaneAcc := []
  /-- D, A, B, C as read at issue by a wave-wide instruction -/
  operands : List Nat := []
  /-- lanes that executed a wave-wide instruction -/
  ex : Lanes := 0
  /-- vector registers that existed throughout (R162) -/
  vlimit : Nat := 256
  /-- counts in LD (1), ST (2), none (0) -/
  counter : Nat := 0
  /-- holds a replay entry -/
  entry : Bool := false
  /-- its release, fence or acquire steps so far -/
  stepped : Nat := 0
  /-- the count of a `BADD`, the target of a `BARI` -/
  extra : Nat := 0
  /-- barrier object -/
  obj : Nat := 0
  /-- a network access: its sequence number, the lanes that a fault met with their causes, the largest retry count -/
  netSeq : Nat := 0
  netBad : SMap Nat := []
  netTry : Nat := 0
  /-- signature that its release writes carry (R248), and the OR of those it has acquired (R247) -/
  relSig : Nat := 0
  acqSig : Nat := 0
  /-- issue cycle of the wave (R19) -/
  cycle : Nat := 0
  deriving DecidableEq, Repr

/-- What an active message asks of its home (R201). -/
inductive MsgOp where
  | store | atomic (op : Nat) | reduction (op : Nat) | invalidateAck
  deriving DecidableEq, Repr

/-- An active message (R201): operation, SZ, byte mask within its 16-byte chunk, fabric physical address, operand data, the issuer's
package, core, slot and path, and its wave's sequence number. -/
structure Message where
  op : MsgOp := .store
  size : BitVec 3 := 0
  mask : BitVec 16 := 0
  addr : BitVec 60 := 0
  data : BitVec 128 := 0
  src : BitVec 24 := 0
  seq : BitVec 12 := 0
  deriving DecidableEq, Repr

/-- A replay entry of a wave (R413): an instruction with lanes to re-inject. -/
structure Replay where
  ecause : Nat := 0
  shadow : Bool := false
  path : Nat := 0
  rlanes : Lanes := 0
  ipc : DWord := 0
  parcels : List Word := []
  order : Nat := 0
  scope : Nat := 0
  lanes : List LaneAcc := []
  operands : List Nat := []
  t0 : Nat := 0
  seq : Nat := 0
  deriving DecidableEq, Repr

/-- Where a wave stands as a whole. -/
inductive WaveStatus where
  /-- the slot holds no wave -/
  | absent
  /-- resident and able to issue -/
  | running
  /-- stopped with a cause to deliver (R408) -/
  | stopped
  /-- a shadow wave stopped for its partner's handler (R414) -/
  | held
  /-- halted for the driver: cause and inner cause (R422) -/
  | halted (cause inner : Nat)
  /-- spilled by a grow stall (R159) -/
  | spilled
  /-- its issue is stopped by a drain (R426) -/
  | draining
  /-- every lane has ended, and its counters run out (R169) -/
  | ended
  deriving DecidableEq, Repr

/-- A wave of 32 lanes (R17, R114). -/
structure Wave where
  status : WaveStatus := .absent
  crew : Nat := 0
  /-- the device's own wave index within the crew (R116) -/
  idx : Nat := 0
  shadow : Bool := false
  /-- slot of the other wave of a pair (R29), by wave number -/
  partner : Option Nat := none
  vif : Nat := 0
  /-- k0 to k11 -/
  k : SMap Lanes := []
  /-- v registers, keyed 32 * register + lane -/
  v : SMap Word := []
  s : SMap Word := []
  p : SMap Lanes := []
  /-- poisoned 32-byte granules of its registers (R253, R449): 4 times a vector register's number plus lane / 8, and 1,024 plus a
  scalar's number / 8 -/
  poison : SMap Bool := []
  /-- q0 to q15, oldest entry first; bits [32l + 31 : 32l] hold lane l -/
  q : SMap (List (BitVec 1024)) := []
  wsw : Word := 0
  fcsr : Word := 0
  ordp : Word := 0
  ld : Nat := 0
  st : Nat := 0
  cpy : Nat := 0
  tile : Nat := 0
  eng : Nat := 0
  /-- VALLOC.GRAN -/
  gran : Nat := 0
  qmap0 : Word := 0
  qmap1 : Word := 0
  tvbase : DWord := 0
  lane : SMap Lane := []
  pathA : Path := {}
  pathB : Path := {}
  /-- path B issues next -/
  turnB : Bool := false
  conts : List Cont := []
  waits : List Wait := []
  /-- pending signature (R221) -/
  sig : BitVec 256 := 0
  pend : List Pending := []
  /-- slots, by path, of reads that a fault stopped: they go back into ORDP once the wave stops (R482) -/
  late : SMap Nat := []
  /-- lanes that met a cause, and the cause each met (R412) -/
  faulted : Lanes := 0
  lcause : SMap Nat := []
  /-- lanes that were on an issuing path at the stop -/
  active : Lanes := 0
  replay : List Replay := []
  /-- replay entries still to be issued again by R418 -/
  reinject : List Replay := []
  /-- PC and live bit of each lane as captured at delivery (R185), keyed by lane -/
  capPc : SMap DWord := []
  capLive : Lanes := 0
  /-- a step retired (R420) -/
  stepped : Bool := false
  /-- sequence numbers of gather-pool commands, network accesses and active messages -/
  seqGather : Nat := 0
  seqNet : Nat := 0
  seqMsg : Nat := 0
  /-- issue cycles of the wave so far: which instructions of the two paths issued together (R19) -/
  cycle : Nat := 0
  /-- arbitrations lost while ready (R32) -/
  starved : Nat := 0
  /-- it won its last arbitration under the depth-first mode, which passes it over at the next that it would win (R326) -/
  passed : Bool := false
  deriving DecidableEq, Repr

/-- A reservation record (R270). -/
structure ObRec where
  set : Bool := false
  w0 : Word := 0
  w1 : Word := 0
  w2 : Word := 0
  w3 : Word := 0
  /-- first operand-buffer unit of the allocation -/
  unit : Nat := 0
  deriving DecidableEq, Repr

/-- An operation of the matrix engine (R279, R281). -/
structure TileOp where
  w : Nat := 0
  path : Nat := 0
  /-- the instruction as issued, its words substituted -/
  instr : Instr := .nop32 ⟨false, 0, 0⟩
  pc : DWord := 0
  parcels : List Word := []
  crew : Nat := 0
  /-- tile, or first state record, by the crew's own number -/
  tile : Nat := 0
  /-- snapshots of the records named by A, B and C -/
  ra : ObRec := {}
  rb : ObRec := {}
  rc : ObRec := {}
  /-- D, A, B and C as read at issue -/
  operands : List Nat := []
  /-- lanes executing at issue (`RSTAT`) -/
  lanes : Lanes := 0
  vlimit : Nat := 256
  /-- T0 of R293, none until the first tile begins; some on a resumed operation -/
  t0 : Option Nat := none
  /-- issued again from its replay entry (R293) -/
  resumed : Bool := false
  /-- its place in issue order -/
  seq : Nat := 0
  deriving DecidableEq, Repr

/-- A convergence register (R274). -/
structure CvReg where
  first : Nat := 0
  /-- declared threads; 0 undeclared -/
  count : Nat := 0
  signed : BitVec 1024 := 0
  round : Nat := 0
  credit : Nat := 0
  arm : List TileOp := []
  deriving DecidableEq, Repr

/-- Where the record of a frozen crew stands (R430, R438, R377): in memory at a virtual address, or with the device, its poisoned
offsets beside it. -/
inductive Saved where
  | placed
  | at (va : Nat)
  | kept (rec : Nat) (poison : List Nat)
  deriving DecidableEq, Repr

/-- A copy or gather-pool command (R310, R311, R314, R315). -/
structure Command where
  id : Nat := 0
  w : Nat := 0
  path : Nat := 0
  crew : Nat := 0
  pc : DWord := 0
  /-- lanes that executed it -/
  lanes : Lanes := 0
  instr : Instr := .nop32 ⟨false, 0, 0⟩
  /-- parameter words as used -/
  w0 : Word := 0
  w1 : Word := 0
  w2 : Word := 0
  w3 : Word := 0
  /-- D, A, B and C as read at issue -/
  vd : Nat := 0
  va : Nat := 0
  vb : Nat := 0
  vc : Nat := 0
  /-- the operand record of a `PLANE` -/
  rec0 : ObRec := {}
  /-- started; units delivered and verified -/
  started : Bool := false
  delivered : Nat := 0
  verified : Nat := 0
  /-- its last byte has been read, and it holds no replay entry (R313, R317) -/
  read : Bool := false
  /-- the block was fetched again once (R396) -/
  refetched : Bool := false
  /-- WPTR before the command started -/
  wptr0 : DWord := 0
  /-- sequence number of a gather-pool command -/
  seq : Nat := 0
  /-- issued again from its replay entry -/
  replayed : Bool := false
  deriving DecidableEq, Repr

/-- A crew placed, or frozen with its record kept (R22, R114, R115). -/
structure Crew where
  launch : Nat := 0
  /-- crew index within the launch -/
  idx : Nat := 0
  core : Nat := 0
  vif : Nat := 0
  threads : Nat := 0
  waves : Nat := 0
  shadow : Bool := false
  /-- the waves' numbers, compute waves first -/
  slots : List Nat := []
  benchBase : Nat := 0
  benchSize : Nat := 0
  /-- physical units, by the crew's own number -/
  tiles : List Nat := []
  cvs : List Nat := []
  obs : List Nat := []
  /-- tile cells, keyed 4096 * tile + 64 * row + column, and tile status words -/
  cell : SMap Word := []
  /-- poisoned granules of eight cells, keyed 512 * tile + 8 * row + column / 8 (R253, R449) -/
  cellPoison : SMap Bool := []
  tstat : SMap Word := []
  cv : SMap CvReg := []
  ob : SMap ObRec := []
  /-- bound route tags and channels used, as masks -/
  bound : Nat := 0
  chans : Nat := 0
  spilled : Bool := false
  /-- save-area blocks of a spilled crew: wave and granule to block number -/
  blocks : SMap Nat := []
  /-- a frozen crew holds no slot and nothing else, but where its record stands -/
  saved : Saved := .placed
  /-- commands that a drain cancelled (R427) -/
  cancelled : List Command := []
  deriving DecidableEq, Repr

/-- A completion entry on its way to a queue register (R308). -/
structure EngEntry where
  w : Nat := 0
  code : Nat := 0
  data : BitVec 1024 := 0
  /-- ENG falls once it is pushed or discarded (R316, R332) -/
  lowersEng : Bool := false
  deriving DecidableEq, Repr

/-- A pending request of the register allocator (R157): granules, and where the lanes stand once it is granted. -/
structure GrowReq where
  w : Nat := 0
  path : Nat := 0
  n : Nat := 0
  instr : Instr := .nop32 ⟨false, 0, 0⟩
  /-- the instruction behind the `GROW`, and its stroke's header -/
  pc : DWord := 0
  head : DWord := 0
  /-- the `GROW` ends its stroke -/
  last : Bool := false
  /-- the wave's issue cycle, the path as it stood and ORDP: where path B's instruction of that cycle lets it be granted, the stroke
  goes on (R157, R158) -/
  cycle : Nat := 0
  back : Path := {}
  ordp : Word := 0
  deriving DecidableEq, Repr

/-- What a core holds besides its crews and waves (R114, R158, R310). -/
structure Core where
  /-- the core has failed (R377) -/
  failed : Bool := false
  /-- WPTR of the channels, and their command queues, oldest first -/
  wptr : SMap DWord := []
  chan : SMap (List Command) := []
  /-- matrix engine queue, in order (R281) -/
  engine : List TileOp := []
  /-- round-robin pointers by level (R306) -/
  rr : SMap Nat := []
  /-- L1 fill pointers by set (R187) -/
  fill : SMap Nat := []
  /-- allocator requests (R158) -/
  grow : List GrowReq := []
  /-- a `SHRINK` of path A whose cycle's pass is to come: the wave plus one and its cycle (R158) -/
  passDue : Nat × Nat := (0, 0)
  /-- launch that holds the core after `VACATE` (R430), plus one; 0 none -/
  holder : Nat := 0
  deriving DecidableEq, Repr

/-- A cache line of an L1, a cluster cache or an L2 (R187, R200, R203, R220, R236). -/
structure Line where
  valid : Bool := false
  way : Nat := 0
  data : BitVec 1024 := 0
  dirty : BitVec 128 := 0
  /-- 4-bit writer mask of a cluster-cache line -/
  writers : Nat := 0
  /-- MOESI of an L2 line: 0 I, 1 S, 2 E, 3 O, 4 M -/
  moesi : Nat := 0
  /-- thread that wrote it last (R206, R235): 32 times its wave's number, plus its lane; 2^40 an agent that is no thread -/
  agent : Nat := 0
  deriving DecidableEq, Repr

/-- A line that an atomic in flight has marked atomic-pending in its core's L1, and in its cluster cache where it executes beyond it
(R236). -/
structure AtomMark where
  op : Nat := 0
  core : Nat := 0
  line : Nat := 0
  cc : Bool := false
  deriving DecidableEq, Repr

/-- A TLB entry (R194): level 0 a core's, 1 a cluster's. -/
structure TlbEntry where
  level : Nat := 0
  unit : Nat := 0
  vif : Nat := 0
  vbase : Nat := 0
  size : Nat := 0
  pbase : Nat := 0
  mode : Nat := 0
  w : Bool := false
  x : Bool := false
  /-- address of the leaf entry + 1, for the D bit -/
  pte : Nat := 0
  deriving DecidableEq, Repr

/-- A page-table walk, or a miss that waits for one (R195). -/
structure Walk where
  id : Nat := 0
  die : Nat := 0
  vif : Nat := 0
  /-- 64 KiB-aligned virtual address -/
  va : Nat := 0
  deriving DecidableEq, Repr

/-- A barrier object's state beyond its bytes (R386, R387, R391). -/
structure Barrier where
  tracked : Bool := false
  /-- parked waves -/
  parked : List Nat := []
  sig : BitVec 256 := 0
  /-- commands that count into it -/
  work : Nat := 0
  /-- arrivals and the error cause that wait for the next counting cycle -/
  arrived : Nat := 0
  error : Nat := 0
  deriving DecidableEq, Repr

/-- A route tag of a die (R398). -/
structure Tag where
  owner : Option Nat := none
  pkg : Bool := false
  expect : Nat := 0
  bound : Nat := 0
  arrived : Nat := 0
  round : Nat := 0
  /-- the last member has arrived, and the release is on the wires (R400) -/
  releasing : Bool := false
  deriving DecidableEq, Repr

/-- A launch in the launch list (R302, R304, R307). -/
structure Launch where
  id : Nat := 0
  /-- ring it was fetched from or whose TASKS or NODES packet loaded it -/
  ring : Nat := 0
  vif : Nat := 0
  /-- a ring's own LAUNCH packet (0), a task's (1), a batch's (2) -/
  kind : Nat := 0
  /-- the 64-byte packet -/
  packet : BitVec 512 := 0
  /-- s5: the task index or 0xFFFF_FFFF -/
  task : Nat := 0xFFFFFFFF
  /-- the batch, by die, bin and number -/
  batch : Option (Nat × Nat × Nat) := none
  /-- s2 and s3 of a batch's crew -/
  args : DWord := 0
  next : Nat := 0
  /-- crews that have exited with their writes performed, by index -/
  finished : List Nat := []
  /-- frozen crews to be placed first, by crew number -/
  frozen : List Nat := []
  lastCore : Nat := 255
  producer : Option Nat := none
  complete : Bool := false
  /-- ring offset of the packet that names it, and whether its ring has stopped at it -/
  off : Nat := 0
  bad : Bool := false
  /-- frozen by `FREEZE`: it stays stopped until a `THAW` (R431) -/
  away : Bool := false
  /-- position in its ring's fetched LAUNCH packets -/
  ringSeq : Nat := 0
  deriving DecidableEq, Repr

/-- A launch ring (R299, R484). -/
structure Ring where
  configured : Bool := false
  base : Nat := 0
  size : Nat := 0
  ctl : Nat := 0
  /-- LAUNCH packets fetched from it -/
  fetched : Nat := 0
  /-- recorded EVENTs: launches before it, address, value, IRQ, offset -/
  events : List (Nat × Nat × Nat × Bool × Nat) := []
  /-- WAITV at TAIL is being watched -/
  held : Bool := false
  /-- stopped on a fault of its own control block -/
  lost : Bool := false
  deriving DecidableEq, Repr

/-- A batch of a node bin (R325). -/
structure Batch where
  die : Nat := 0
  bin : Nat := 0
  num : Nat := 0
  count : Nat := 0
  /-- first 16-byte unit of the store and units taken -/
  unit : Nat := 0
  units : Nat := 0
  /-- 0 open, 1 closed, 2 running, 3 refused with its node's packet -/
  stage : Nat := 0
  deriving DecidableEq, Repr

/-- A die's task unit besides its tables (R318, R323, R326). -/
structure TaskUnit where
  store : Nat := 0
  units : Nat := 0
  batches : List Batch := []
  /-- next batch number of each bin -/
  nextBatch : SMap Nat := []
  depthFirst : Bool := false
  /-- `TDONE`s that reached the unit and are not applied: task, wave, issue order doubled plus the path, lanes that executed it -/
  done : List (Nat × Nat × Nat × Lanes) := []
  /-- ring whose TASKS packet loaded an entry, and offset of that packet -/
  loader : SMap (Nat × Nat) := []
  /-- ring whose NODES packet loaded a descriptor -/
  nodeRing : SMap Nat := []
  deriving DecidableEq, Repr

/-- A collective context (R331, R337, R338, R428). -/
structure Context where
  status : Word := 0
  vif : Nat := 0
  /-- list address and descriptor as loaded -/
  list : Nat := 0
  desc : BitVec 512 := 0
  members : List (BitVec 64) := []
  loop : Nat := 0
  loopWord : Nat := 0
  /-- queued elements: ELEMOFF, format, bits -/
  drain : List (Nat × Nat × Nat) := []
  /-- ELEMOFFs of queued elements that lie in poisoned granules of the queue (R253) -/
  drainBad : List Nat := []
  /-- wave that issued `COLL.start` -/
  w : Nat := 0
  stopReq : Bool := false
  /-- the running word has begun -/
  begun : Bool := false
  /-- its pieces sent, and received from a rank: rank and chunk -/
  sent : List (Nat × Nat) := []
  got : List (Nat × Nat) := []
  /-- contributions to its shard that its hub has combined: rank, route-stack entries left and sending die or package, address -/
  took : List (Nat × Nat × Nat) := []
  /-- its packets that are not acknowledged or consumed -/
  acks : Nat := 0
  /-- `SEND`s and `RECV`s run so far with each rank, and the words run that all members run -/
  sends : SMap Nat := []
  recvs : SMap Nat := []
  words : Nat := 0
  /-- freeze notices on their way to it, members whose notice holds it, and thaw notices: rank and new die -/
  freezeIn : Nat := 0
  heldBy : Nat := 0
  thawIn : List (Nat × Nat) := []
  /-- a freeze of its own interface asks for a checkpoint (R428) -/
  freezing : Bool := false
  /-- its members have been told of this freeze -/
  noticed : Bool := false
  /-- an abort packet is on its way to it -/
  aborted : Bool := false
  /-- signature of the lines that its words wrote on its die (R231) -/
  wrote : BitVec 256 := 0
  deriving DecidableEq, Repr

/-- What a packet belongs to: a word of a context, or a lane of a remote access, whose request goes out and whose response comes back. -/
inductive PktKind where
  | send | rscat | agath | mcast | signal | request | response
  deriving DecidableEq, Repr

/-- A packet on the fabric (R342). -/
structure Packet where
  id : Nat := 0
  ver : Nat := 1
  cls : Nat := 2
  drop : Bool := false
  fmt : Nat := 0
  ctx : Nat := 0
  /-- dies -/
  src : Nat := 0
  dst : Nat := 0
  keym : Nat := 0
  keyj : Nat := 0
  chunk : Nat := 0
  addr : Nat := 0
  barrier : Nat := 0
  /-- LEN of the packet of a `SIGNAL` word, its count (log entry 13); any other packet's is the bytes of its payload -/
  add : Nat := 0
  /-- remaining route-stack entries, top first; their number is DEPTH -/
  stack : List Word := []
  payload : List Byte := []
  /-- poisoned 32-byte granules of the payload, by number (R253) -/
  poison : List Nat := []
  /-- the word it belongs to: its kind, its number among those it is matched with, its N or element count, its HANDLE, and the
  rank that sent it; of a remote access, the operation and the lane in the places of the number and the rank -/
  kind : PktKind := .send
  index : Nat := 0
  total : Nat := 0
  handle : Nat := 0
  rank : Nat := 0
  /-- the stack as sent, the die that sent it so, and whether it has been sent again (R344) -/
  orig : List Word := []
  origHub : Nat := 0
  resent : Bool := false
  /-- its sender counts it as consumed -/
  acked : Bool := false
  /-- die whose hub holds it, the port it came in on, and its place in the order of arrivals -/
  hub : Nat := 0
  ingress : Nat := 29
  arr : Nat := 0
  /-- directed link that carries it, plus one; 0 none; 2^20 and more an Ultra Ethernet port -/
  out : Nat := 0
  /-- dropped by a full hub, and held by its sender: 1 notice on its way, 2 gathered, 3 requested (R351) -/
  dropped : Nat := 0
  deriving DecidableEq, Repr

/-- A value held in a combine buffer (R345, R346): the packet of its first (or lower-keyed) contribution, its payload in CFMT,
and the contributions combined. -/
structure Held where
  die : Nat := 0
  count : Nat := 0
  pkt : Packet := {}
  deriving DecidableEq, Repr

/-- A data-link flit (R349): sequence, the packet it carries, and whether it carries the packet's end. -/
structure Flit where
  seq : Nat := 0
  pkt : Nat := 0
  last : Bool := false
  deriving DecidableEq, Repr

/-- A directed UALink link (R349, R350, R445): number `2 * (24 * package + rail)` from a package to its rail's switch, one more
the other way. Whether its port works stands in the even one. -/
structure Port where
  up : Bool := true
  training : Bool := false
  /-- sender: next sequence, unacknowledged flits oldest first, replays of the oldest -/
  sendSeq : Nat := 0
  retry : List Flit := []
  replays : Nat := 0
  /-- flits on the wire -/
  wire : List Flit := []
  /-- receiver: sequence expected, flits accepted since the last ACK, and a NAK that stands -/
  recvSeq : Nat := 0
  unacked : Nat := 0
  nakSent : Bool := false
  /-- ACK and NAK on their way to the sender: last accepted or last good sequence -/
  ackIn : Option Nat := none
  nakIn : Option Nat := none
  deriving DecidableEq, Repr

/-- A bulk sender's reservation with one target die (R351). -/
structure Bulk where
  src : Nat := 0
  dst : Nat := 0
  gathering : Bool := false
  requested : Bool := false
  /-- bytes asked for -/
  bytes : Nat := 0
  granted : Bool := false
  /-- the grant has reached the sender -/
  scheduled : Bool := false
  start : Nat := 0
  window : Nat := 0
  quota : Nat := 0
  deriving DecidableEq, Repr

/-- A network request packet (R355, R358 to R360). -/
structure NetReq where
  id : Nat := 0
  /-- collective context that a chunk for another pod belongs to, plus one, 0 none; and the chunk's packet -/
  coll : Nat := 0
  pkt : Nat := 0
  op : Nat := 0
  lanes : List Nat := []
  /-- target pod and package, region and generation -/
  pod : Nat := 0
  target : Nat := 0
  region : Nat := 0
  gen : Nat := 0
  /-- its entry of the congestion table, and its bytes -/
  entry : Nat := 0
  bytes : Nat := 0
  retries : Nat := 0
  /-- it has left, so that it counts against the window -/
  sent : Bool := false
  /-- 0 on its way or waiting to leave, 1 in the context-miss buffer, 2 answered, 3 stale, 4 busy, 5 dropped until its timer sends it again -/
  stage : Nat := 0
  /-- arrival order in the context-miss buffer -/
  arr : Nat := 0
  /-- loaded or old values by lane, and causes by lane -/
  values : SMap Nat := []
  causes : SMap Nat := []
  deriving DecidableEq, Repr

/-- A snoop-filter entry (R204). -/
structure Snoop where
  holders : List Nat := []
  broadcast : Bool := false
  deriving DecidableEq, Repr

/-- A system operation in progress (R425, R429, R431, R435). -/
structure SysOp where
  /-- 0 `VACATE`, 1 `FREEZE`, 2 `THAW` -/
  kind : Nat := 0
  /-- issuing wave and scalar D, or none for a driver command -/
  w : Option Nat := none
  d : Nat := 0
  /-- the issuing wave's crew, path, executing lanes, instruction address and parcels -/
  crew : Nat := 0
  path : Nat := 0
  lanes : Lanes := 0
  pc : DWord := 0
  parcels : List Word := []
  /-- area, its size in 64 KiB units or the cores wanted, and the issuing launch plus one -/
  base : Nat := 0
  size : Nat := 0
  launch : Nat := 0
  crews : List Nat := []
  cores : List Nat := []
  /-- 100 µs have passed since issue stopped (R426) -/
  timedOut : Bool := false
  cmd : Option CmdHead := none
  deriving DecidableEq, Repr

/-- What an error record says of its unit and class (R448). -/
inductive ErrKind where
  | memory | vault | bench | registers | accumulators | cache | engine | port | ring
  deriving DecidableEq, Repr

inductive ErrClass where
  | corrected | uncorrectable | linkDown | trainingFailure | ringFault
  deriving DecidableEq, Repr

/-- An error record (R448): time, unit as die, kind and index, class, and the physical address or port. -/
structure ErrRec where
  time : Nat := 0
  die : Nat := 0
  kind : ErrKind := .memory
  index : Nat := 0
  cls : ErrClass := .corrected
  addr : Nat := 0
  deriving DecidableEq, Repr

/-- A package's own state (R379, R446, R447). -/
structure Package where
  ready : Bool := true
  bootErr : Bool := false
  /-- POWERCAP in watts and the arithmetic clock in steps of 100 MHz (log entry 6) -/
  cap : Nat := 2600
  clock : Nat := 16
  hot : Bool := false
  watts : Nat := 0
  temp0 : Nat := 0
  temp1 : Nat := 0
  /-- fetched launches in fetch order -/
  launches : List Launch := []
  nextLaunch : Nat := 0
  /-- interface and ring served last (R300) -/
  lastVi : Nat := 63
  lastRing : SMap Nat := []
  /-- error log of the management function, newest last, and its overflow bit (R448) -/
  errors : List ErrRec := []
  overflow : Bool := false
  /-- corrected errors so far (R448) -/
  corrected : Nat := 0
  /-- its boot waits for its ports to train (R446) -/
  booting : Bool := false
  deriving DecidableEq, Repr

/-- A function's command queue (R440, R441; log entry 19): the ring's base, its size, 0 when it is not configured, and its completion area, as
fabric physical addresses of host memory, and the bytes that the driver has written, as the function's register page holds them; the bytes taken,
the records written, the command that waits with those behind it, and whether it is being tried again. -/
structure CmdQueue where
  base : Nat := 0
  size : Nat := 0
  area : Nat := 0
  head : Nat := 0
  taken : Nat := 0
  records : Nat := 0
  held : List Instr := []
  again : Bool := false
  deriving DecidableEq, Repr

/-- An interface's own state beside its tables (R379, R443, R448, R450). -/
structure Iface where
  featEn : Option (BitVec 256) := none
  featLocked : Bool := false
  /-- launches frozen by `FREEZE`, and the rings stopped -/
  frozen : Bool := false
  sysop : Option SysOp := none
  /-- halt log (R443), newest last: core, slot, cause, inner cause -/
  haltLog : List (Nat × Nat × Nat × Nat) := []
  errors : List ErrRec := []
  overflow : Bool := false
  /-- the launch that a `FREEZE` leaves running, plus one (R431) -/
  exempt : Nat := 0
  /-- failed cores whose crews are being drained (R377) -/
  failing : List Nat := []
  deriving DecidableEq, Repr

/-- What the device tells the host (R441, R443): a completion record or an interrupt. -/
inductive HostNote where
  | completion (pkg fn : Nat) (tag : Word) (status : Nat) (result : Nat)
  | interrupt (pkg fn vector : Nat)
  | abort (pkg fn : Nat)
  deriving DecidableEq, Repr

/-- A back-invalidation that awaits its answer (R204, R205). -/
structure BackInv where
  line : Nat := 0
  holder : Nat := 0
  deriving DecidableEq, Repr

/-- The machine. -/
structure State where
  /-- the wave that issues next, by its number, and its state -/
  cur : Nat := 0
  wave : Wave := {}
  /-- every other resident wave -/
  waves : SMap Wave := []
  crews : SMap Crew := []
  nextCrew : Nat := 0
  cores : SMap Core := []
  /-- memory of every fabric physical address, and the benches keyed 2^19 * core + offset -/
  mem : Memory := []
  bench : Memory := []
  /-- poisoned 32-byte granules of memory and of the benches (R253) -/
  poison : SMap Bool := []
  benchPoison : SMap Bool := []
  /-- cache lines keyed by level, unit and line number -/
  cache : SMap Line := []
  /-- lines marked atomic-pending (R236) -/
  atomPend : List AtomMark := []
  /-- far-dirty queues by die, oldest first (R220) -/
  farDirty : SMap (List Nat) := []
  snoop : SMap Snoop := []
  backInv : List BackInv := []
  /-- invalidations on the die-to-die link: the die that is to drop the line, and the line (R203, R216) -/
  dieInval : List (Nat × Nat) := []
  /-- cluster sharers of HC lines (R200) -/
  sharers : SMap Nat := []
  /-- grain writer records (R198): the package core index plus one, 0 invalid -/
  grain : SMap Nat := []
  tlb : List TlbEntry := []
  walks : List Walk := []
  ops : List Op := []
  nextId : Nat := 0
  bars : SMap Barrier := []
  tags : SMap Tag := []
  phase : SMap Nat := []
  /-- eviction schedule entries keyed 1024 * die + index (R375) -/
  evict : SMap (BitVec 128) := []
  /-- marked bytes of latent backings (R209), keyed by fabric physical address -/
  latent : SMap Bool := []
  gathers : SMap (List Command) := []
  entries : List EngEntry := []
  /-- task entries keyed 65536 * die + index, node descriptors keyed 4096 * die + bin -/
  tasks : SMap (BitVec 256) := []
  nodes : SMap (BitVec 256) := []
  taskUnits : SMap TaskUnit := []
  rings : SMap Ring := []
  pkgs : SMap Package := []
  ifaces : SMap Iface := []
  /-- partition entries, and logical-core entries keyed 256 * interface + index -/
  part : SMap (BitVec 2048) := []
  lct : SMap (BitVec 16) := []
  /-- region contexts as the dies cache them, keyed 65536 * interface + index (R354; log entry 15) -/
  regions : SMap (BitVec 256) := []
  /-- cached region contexts, as (die, region), oldest first -/
  regionCache : List (Nat × Nat) := []
  ctxs : SMap Context := []
  packets : List Packet := []
  held : List Held := []
  groups : SMap (List Word) := []
  ports : SMap Port := []
  bulks : List Bulk := []
  /-- reserved calendar slots by package -/
  calendar : List (Nat × Nat) := []
  netReqs : List NetReq := []
  /-- atomic results by die: request, old values, and causes of the lanes that met one -/
  atomCache : List (Nat × Nat × SMap Nat × SMap Nat) := []
  /-- congestion entries: window, smallest round-trip time plus one, and pod time of the last shrink plus one, keyed 1024 * port + index -/
  congest : SMap (Nat × Nat × Nat) := []
  /-- HDM decoders keyed 16 * die + 8 * port + index (R362; log entry 16) -/
  hdm : SMap (BitVec 256) := []
  /-- event counters keyed by counter and unit (R404) -/
  ctr : SMap Nat := []
  notes : List HostNote := []
  /-- command queues keyed 65 * package + function -/
  cmdqs : SMap CmdQueue := []
  /-- Ethernet and CXL ports that are training, and those left down (R446; log entry 19) -/
  linkTrain : List Nat := []
  linkDown : List Nat := []
  podTime : Nat := 0
  /-- waves that issue next, in order: the model's own (log entry 8) -/
  turns : List Nat := []
  /-- the machine steps due next, in order: the model's own (log entry 8) -/
  agenda : List Instr := []
  /-- steps that the machine has taken of its own: where its next choice begins, the model's own (log entry 8) -/
  rotor : Nat := 0
  /-- draws of free values so far: the model's own (log entry 1) -/
  free : Nat := 0
  deriving DecidableEq, Repr

/-- The machine right after reset: no wave resident, every table at its Reset value, memory with nothing listed. -/
def State.reset : State := {}

/-- Why the machine stops. Nothing stops it: every fault of the manual is a cause that the state takes and the machine goes on, so no
step raises a fault of the model. -/
inductive Fault where
  deriving DecidableEq, Repr

/-- Why a step has no meaning. -/
inductive Refusal where
  /-- raised by `exec` for a row of the opcode table that has no meaning yet. Safe: the model stops. -/
  | notModelled (mnemonic : String)
  deriving DecidableEq, Repr

end Sys2Proof.Machine
end

