-- ==== Sys2Proof/Machine/Mem.lean ====
section
/-! DEFINITION. Memory: physical addresses (R193), the caches and their victims (R187, R207, R210), MOESI between the dies
(R203), remote holders (R204, R205), dirty bits and bitmaps (R196, R369, R370), poison (R253), translation (R191, R192,
R367, R368, R371, R372, R481), and the bytes that an access at a scope reads or writes (R200, R217, R236). -/

namespace Sys2Proof.Machine

/-! ### Numbers of things -/

/-- Package, die and cluster of a core number. -/
def corePkg (core : Nat) : Nat := core / 256
def coreDie (core : Nat) : Nat := core / 128
def coreCluster (core : Nat) : Nat := core / 4

/-- The core, slot and die of a wave number. -/
def waveCore (w : Nat) : Nat := w / 64
def waveSlot (w : Nat) : Nat := w % 64
def waveDie (w : Nat) : Nat := coreDie (waveCore w)

/-- A thread's number, by its wave and lane; its core; and what stands for an agent that is no thread (R211). -/
def threadOf (w lane : Nat) : Nat := 32 * w + lane
def threadCore (t : Nat) : Nat := t / 2048
def noThread : Nat := 2 ^ 40

/-- The package of a virtual-interface number. -/
def vifPkg (vif : Nat) : Nat := vif / 64

/-- `n` bytes at byte `i` of a table entry held as a bit vector's number. -/
def bytesAt (x i n : Nat) : Nat := natBits x (8 * (i + n) - 1) (8 * i)

/-- A 64-bit number is canonical: bits [63:57] copy bit 56 (R189). -/
def canonical (a : Nat) : Bool := a >>> 56 == 0 || a >>> 56 == 255

/-! ### Fabric physical addresses (R193) -/

inductive Region where
  | hbm | vault | host | cxl | reserved
  deriving DecidableEq, Repr

/-- The die that is home to an address: `2 * package + die`. -/
def homeDie (pa : Nat) : Nat := pa >>> 50 % 1024

/-- The package of an address. -/
def homePkg (pa : Nat) : Nat := homeDie pa / 2

/-- What lies at a local address. -/
def regionOf (pa : Nat) : Region :=
  let a := pa % 2 ^ 50
  if a < 0x4000000000 then .hbm
  else if a < 0x10000000000 then .reserved
  else if a < 0x10020000000 then .vault
  else if a < 0x1000000000000 then .reserved
  else if a < 0x2000000000000 then (if homeDie pa % 2 = 0 then .host else .reserved)
  else .cxl

/-- The address lies in a register save area: the highest 1 MiB of a vault (R161, R191). -/
def inSaveArea (pa : Nat) : Bool := regionOf pa == .vault && pa % 0x400000 ≥ 0x300000

/-- The physical base of the vault above a core. -/
def vaultBase (core : Nat) : Nat := coreDie core * 2 ^ 50 + 0x10000000000 + core % 128 * 0x400000

/-- The home slice of a local address (R210). -/
def sliceOf (pa : Nat) : Nat :=
  natBits pa 13 7 ^^^ natBits pa 20 14 ^^^ natBits pa 27 21 ^^^ natBits pa 34 28 ^^^ natBits pa 41 35 ^^^ natBits pa 48 42

/-! ### Event counters (R404) -/

/-- Add `n` to counter `c` of unit `u`; the counters are numbered in the order of R404, and wrap at 48 bits. -/
def bump (s : State) (c u n : Nat) : State :=
  { s with ctr := smMod s.ctr 0 (8 * u + c) (fun x => (x + n) % 2 ^ 48) }

/-! ### Poison (R253) -/

/-- A byte of the span lies in a poisoned granule. -/
def poisoned (s : State) (pa n : Nat) : Bool :=
  (List.range ((pa + n - 1) / 32 + 1 - pa / 32)).any (fun i => smGet s.poison false (pa / 32 + i))

/-- The poison of one granule. -/
def setPoison (s : State) (pa : Nat) (p : Bool) : State := { s with poison := smSet s.poison false (pa / 32) p }

/-- A write clears the poison of a granule only when it covers all 32 bytes. DESIGN CHOICE (log entry 24): the lanes of one `ST` are
judged each by itself, so no `ST` of 16 bytes or fewer clears poison. -/
def unpoison (s : State) (pa n : Nat) : State :=
  (List.range (n / 32)).foldl (fun s i => if (pa + 31) / 32 * 32 + 32 * i + 32 ≤ pa + n then setPoison s ((pa + 31) / 32 * 32 + 32 * i) false else s) s

/-! ### Cache lines -/

/-- The line number of an address. -/
def lineOf (pa : Nat) : Nat := pa / 128

/-- The key of a line in a cache: level 0 L1, 1 cluster cache, 2 L2. -/
def cacheKey (lv u l : Nat) : Nat := (lv * 131072 + u) * 2 ^ 53 + l

def getLine (s : State) (lv u l : Nat) : Line := smGet s.cache {} (cacheKey lv u l)
def setLine (s : State) (lv u l : Nat) (x : Line) : State := { s with cache := smSet s.cache {} (cacheKey lv u l) x }
def dropLine (s : State) (lv u l : Nat) : State := setLine s lv u l {}

/-- The lines that a cache holds. -/
def linesOf (s : State) (lv u : Nat) : List (Nat × Line) :=
  s.cache.filterMap (fun kv => if kv.1 / 2 ^ 53 = lv * 131072 + u then some (kv.1 % 2 ^ 53, kv.2) else none)

/-- The set of a line (log entry 9: the manual names none): line number modulo the sets; in L2 the slice too. -/
def setOf (lv l : Nat) : Nat :=
  match lv with
  | 0 => l % 128
  | 1 => l % 1024
  | _ => sliceOf (l * 128) * 512 + l / 128 % 512

/-- A byte mask spread to bits. -/
def spread (m : BitVec 128) : BitVec 1024 :=
  BitVec.ofNat 1024 ((List.range 128).foldl (fun a i => if m.getLsbD i then a + 255 * 2 ^ (8 * i) else a) 0)

/-- `x` where the mask is set, `b` elsewhere. -/
def mergeLine (b x : BitVec 1024) (m : BitVec 128) : BitVec 1024 := (b &&& ~~~(spread m)) ||| (x &&& spread m)

/-- The byte mask and line data of an `n`-byte value at an address. -/
def maskAt (pa n : Nat) : BitVec 128 := BitVec.ofNat 128 ((2 ^ n - 1) * 2 ^ (pa % 128))
def dataAt (pa x : Nat) : BitVec 1024 := BitVec.ofNat 1024 (x * 2 ^ (8 * (pa % 128)))

/-- `n` bytes of a line at an address. -/
def valueAt (d : BitVec 1024) (pa n : Nat) : Nat := d.toNat >>> (8 * (pa % 128)) % 2 ^ (8 * n)

def memLine (s : State) (l : Nat) : BitVec 1024 := BitVec.ofNat 1024 (s.mem.readN (l * 128) 128)

def writeMemLine (s : State) (l : Nat) (x : BitVec 1024) (m : BitVec 128) : State :=
  let put (mm : Memory) (i : Nat) : Memory :=
    if m.getLsbD i then Memory.write mm (l * 128 + i) (x.extractLsb' (8 * i) 8) else mm
  { s with mem := (List.range 128).foldl put s.mem }

/-! ### Victims (R187, R207) -/

/-- The retention class of a line: that of the lowest active entry of the die's schedule that covers it, STREAM without
one. -/
def classOf (s : State) (die l : Nat) : Nat :=
  let ph := smGet s.phase 0 die
  let covers (e : BitVec 128) : Bool :=
    let lo := e.toNat % 2 ^ 64
    let hi := e.toNat / 2 ^ 64
    let base := natBits lo 59 12 * 4096
    natBits lo 61 61 == 1 && natBits hi 47 32 ≤ ph && ph ≤ natBits hi 63 48
      && base ≤ l * 128 && l * 128 < base + natBits hi 28 0 * 4096
  match s.evict.find? (fun kv => kv.1 / 1024 == die && covers kv.2) with
  | some kv => natBits kv.2.toNat 63 62
  | none => 1

/-- The lowest way of sixteen that no line of the list uses. -/
def freeWay (ls : List (Nat × Line)) : Option Nat :=
  (List.range 16).find? (fun w => ls.all (fun x => x.2.way != w))

/-- The lines of a cache in the set of line `l`. -/
def inSet (s : State) (lv u l : Nat) : List (Nat × Line) := (linesOf s lv u).filter (fun x => setOf lv x.1 == setOf lv l)

/-- Way and victim line for a scheduled cache: none when every way is PIN. -/
def scheduledVictim (s : State) (die : Nat) (ls : List (Nat × Line)) : Option (Nat × Option Nat) :=
  match freeWay ls with
  | some w => some (w, none)
  | none =>
    let ranked := ls.map (fun x => (classOf s die x.1 * 16 + x.2.way, x.1))
    match ranked.foldl (fun (b : Option (Nat × Nat)) x => match b with
        | none => some x
        | some y => if x.1 < y.1 then some x else some y) none with
    | some (r, l) => if r / 16 = 3 then none else some (r % 16, some l)
    | none => none

/-! ### Partition entries -/

/-- `n` bytes at byte `i` of an interface's partition entry (R378). -/
def partField (s : State) (vif i n : Nat) : Nat := bytesAt (smGet s.part 0 vif).toNat i n

/-- The features in force for an interface (R379): FEATEN as written, else FEATCAP; bit 0 always. -/
def featEn (s : State) (vif : Nat) : Nat :=
  match (smGet s.ifaces {} vif).featEn with
  | some f => f.toNat ||| 1
  | none => 0xFFF

def hasFeature (s : State) (vif n : Nat) : Bool := (featEn s vif).testBit n

/-- The physical core of a logical core, when its entry is valid (R377). -/
def physCore (s : State) (vif n : Nat) : Option Nat :=
  let e := (smGet s.lct 0 (256 * vif + n)).toNat
  if e.testBit 15 then some (vifPkg vif * 256 + natBits e 7 7 * 128 + natBits e 6 0) else none

/-- The logical index of a physical core, 256 when no valid entry names it. -/
def logicalCore (s : State) (vif core : Nat) : Nat :=
  ((List.range 256).find? (fun n => physCore s vif n == some core)).getD 256

/-! ### Remote holders and back-invalidation (R204, R205) -/

/-- The packages that the home's snoop filter names as holders of a line, other than `writer`; with the broadcast bit,
every package that holds it. -/
def holdersOf (s : State) (l writer : Nat) : List Nat :=
  let e := smGet s.snoop {} l
  let hs := if e.broadcast then
      (s.cache.filterMap (fun kv => if kv.1 / 2 ^ 53 ≥ 262144 ∧ kv.1 % 2 ^ 53 = l then some ((kv.1 / 2 ^ 53 - 262144) / 2) else none)).eraseDups
    else e.holders
  hs.filter (fun p => p != writer && p != homePkg (l * 128))

/-- Dirty bytes of a package's copies of a line, and their mask. -/
def dirtyOf (s : State) (pkg l : Nat) : BitVec 1024 × BitVec 128 :=
  let a := getLine s 2 (2 * pkg) l
  let b := getLine s 2 (2 * pkg + 1) l
  (mergeLine a.data b.data b.dirty, a.dirty ||| b.dirty)

/-- Bytes reach the home of a line: the home package's L2 copies and the memory take them. -/
def homeApply (s : State) (l : Nat) (x : BitVec 1024) (m : BitVec 128) : State :=
  let d := homeDie (l * 128)
  let upd (s : State) (die : Nat) : State :=
    let c := getLine s 2 die l
    if c.valid then setLine s 2 die l { c with data := mergeLine c.data x m } else s
  let s := upd (upd s d) (d ^^^ 1)
  writeMemLine s l x m

/-- A line leaves a die's L2, its far-dirty queue, and the invalidations on their way there. -/
def dropL2 (s : State) (die l : Nat) : State :=
  { dropLine s 2 die l with
    farDirty := smMod s.farDirty [] die (fun q => q.filter (· != l))
    dieInval := s.dieInval.filter (· != (die, l)) }

/-- A holder's answer: its dirty bytes are applied at the home once, its copies and its filter entry go. -/
def answerBackInv (s : State) (l holder : Nat) : State :=
  let (x, m) := dirtyOf s holder l
  let s := dropL2 (dropL2 (homeApply s l x m) (2 * holder) l) (2 * holder + 1) l
  { s with
    snoop := smMod s.snoop {} l (fun e => { e with holders := e.holders.filter (· != holder) })
    backInv := s.backInv.filter (fun b => !(b.line == l && b.holder == holder)) }

/-- Back-invalidate every holder of a line but the writer, and take the answers. -/
def backInvalidate (s : State) (l writer : Nat) : State :=
  let hs := holdersOf s l writer
  if hs.isEmpty then s else
  let s := hs.foldl (fun s h => answerBackInv (bump s 5 (homeDie (l * 128)) 1) l h) s
  { s with snoop := smMod s.snoop {} l (fun e => { e with broadcast := false }) }

/-- A package becomes a holder: a fifth holder turns the entry to broadcast, and a full set of the filter gives up its
lowest line (log entry 9). -/
def addHolder (s : State) (l pkg : Nat) : State :=
  let e := smGet s.snoop {} l
  if homePkg (l * 128) = pkg || e.broadcast || e.holders.contains pkg then s
  else
    let d := homeDie (l * 128)
    let mates := s.snoop.filter (fun kv => homeDie (kv.1 * 128) == d && kv.1 % 16384 == l % 16384)
    let s := if e == {} && mates.length ≥ 16 then
        match mates with
        | (l', _) :: _ => { backInvalidate s l' 512 with snoop := smSet (backInvalidate s l' 512).snoop {} l' {} }
        | [] => s
      else s
    if e.holders.length ≥ 4 then
      let s := backInvalidate s l pkg
      { s with snoop := smSet s.snoop {} l ⟨[], true⟩ }
    else { s with snoop := smSet s.snoop {} l { e with holders := e.holders ++ [pkg] } }

/-- A line lies outside the package's own HBM4E and vaults. -/
def isFar (die l : Nat) : Bool :=
  homePkg (l * 128) != die / 2 || regionOf (l * 128) == .host || regionOf (l * 128) == .cxl

/-- The invalidation of a line reaches the die: its copy goes, and the owner on the other die holds the only one (R203). -/
def takeInval (s : State) (die l : Nat) : State :=
  let s := dropL2 s die l
  let o := getLine s 2 (die ^^^ 1) l
  if o.moesi = 3 then setLine s 2 (die ^^^ 1) l { o with moesi := 4 } else s

/-- Take the invalidation of a line if one is on its way to the die. -/
def settleInval (s : State) (die l : Nat) : State := if s.dieInval.contains (die, l) then takeInval s die l else s

/-- Bytes of a CXL line that an L2 holds dirty have not been completed by the pool (R235). -/
def poolPending (c : Line) (l : Nat) : Bool := regionOf (l * 128) == .cxl && c.dirty != 0

/-- The value of a line that no L2 of the asking package holds: the home package's L2 copy, but for bytes that the pool has not
completed, or memory (R203, R235). -/
def homeValue (s : State) (l : Nat) : BitVec 1024 :=
  let d := homeDie (l * 128)
  let a := getLine s 2 d l
  let b := getLine s 2 (d ^^^ 1) l
  let seen (c : Line) : BitVec 1024 := if poolPending c l then mergeLine c.data (memLine s l) c.dirty else c.data
  if a.valid && a.moesi ≥ 2 then seen a else if b.valid && b.moesi ≥ 2 then seen b
  else if a.valid then seen a else if b.valid then seen b else memLine s l

/-- Write back the dirty bytes of an L2 line to its home and keep the line clean. The stale copy on the other die goes first; a CXL
line's bytes are then complete at the pool, and no other L2 keeps an older copy (R205, R235). Where other packages held the line their
bytes reach the home first, and the line takes them from it (R204). -/
def cleanL2 (s : State) (die l : Nat) : State :=
  let c := getLine s 2 die l
  if c.dirty == 0 then { s with farDirty := smMod s.farDirty [] die (fun q => q.filter (· != l)) } else
  let s := settleInval s (die ^^^ 1) l
  let others := homePkg (l * 128) != die / 2 && !(holdersOf s l (die / 2)).isEmpty
  let s := if regionOf (l * 128) == .cxl || others then dropL2 (backInvalidate s l (die / 2)) (die ^^^ 1) l else s
  let s := if homePkg (l * 128) = die / 2 then writeMemLine s l c.data c.dirty else homeApply s l c.data c.dirty
  let c' := { c with dirty := 0, data := if others then homeValue s l else c.data
                     moesi := if (getLine s 2 (die ^^^ 1) l).valid then 1 else 2 }
  { setLine s 2 die l c' with farDirty := smMod s.farDirty [] die (fun q => q.filter (· != l)) }

/-- Evict an L2 line (R203): M and O write back, the others go with no message. -/
def evictL2 (s : State) (die l : Nat) : State := dropL2 (cleanL2 s die l) die l

/-- Make room in an L2 set: the way for a new line, none when every way is PIN. -/
def roomL2 (s : State) (die l : Nat) : State × Option Nat :=
  match scheduledVictim s die (inSet s 2 die l) with
  | none => (s, none)
  | some (w, none) => (s, some w)
  | some (w, some v) => (evictL2 s die v, some w)

/-- Bytes of a CXL line that another agent than `t` wrote await the pool's completion (R235). -/
def pendOthers (c : Line) (l t : Nat) : Bool := poolPending c l && c.agent != t

/-- What an agent sees of a line: of a CXL line, the bytes that another agent wrote and the pool has not completed as the pool holds
them (R211, R235). -/
def othersView (s : State) (c : Line) (l t : Nat) (x : BitVec 1024) : BitVec 1024 :=
  if pendOthers c l t then mergeLine x (memLine s l) c.dirty else x

/-- What a die's L2 obtains for a line it lacks: data and the state (R203). The other die's bytes that the pool has not completed are
not among them, and the reader keeps no copy (R235). -/
def fetchL2 (s : State) (die l : Nat) : State × BitVec 1024 × Nat :=
  let o := getLine s 2 (die ^^^ 1) l
  if poolPending o l then (s, mergeLine o.data (memLine s l) o.dirty, 1)
  else if o.valid then
    (setLine s 2 (die ^^^ 1) l { o with moesi := if o.moesi = 4 then 3 else if o.moesi = 2 then 1 else o.moesi }, o.data, 1)
  else
    let x := homeValue s l
    (addHolder s l (die / 2), x, 2)

/-- Read a line at a die's L2, filling it (R203, R207, R217). -/
def readL2 (s : State) (die l : Nat) : State × BitVec 1024 :=
  let c := getLine s 2 die l
  if c.valid then (s, c.data) else
  let pending := poolPending (getLine s 2 (die ^^^ 1) l) l
  let (s, x, st) := fetchL2 s die l
  if pending then (s, x) else
  match roomL2 s die l with
  | (s, some w) => (setLine s 2 die l { valid := true, way := w, data := x, moesi := st }, x)
  | (s, none) => (s, x)

/-- Enter a line in its die's far-dirty queue; a full queue first writes back its oldest entry (R220). -/
def enterFar (s : State) (die l : Nat) : State :=
  let q := smGet s.farDirty [] die
  if q.contains l then s else
  let s := if q.length ≥ Config.farDirty then (match q with | o :: _ => cleanL2 s die o | [] => s) else s
  { s with farDirty := smMod s.farDirty [] die (fun q => q ++ [l]) }

/-- Write bytes of a line at a die's L2 for an agent (R203). A stale copy of the die's own goes first, and bytes of a CXL line that
another agent wrote are completed at the pool (R235). An owner on the other die hands over its dirty bytes at once; a sharer there is
invalidated by a message, and the die owns the line (O) until that message has been taken, then alone (M). Remote holders are
back-invalidated first (R204). -/
def writeL2 (s : State) (die l : Nat) (x : BitVec 1024) (m : BitVec 128) (t : Nat) : State :=
  let s := settleInval s die l
  let s := if homePkg (l * 128) = die / 2 then backInvalidate s l 512 else s
  let s := if pendOthers (getLine s 2 die l) l t then cleanL2 s die l else s
  let s := if poolPending (getLine s 2 (die ^^^ 1) l) l then cleanL2 s (die ^^^ 1) l else s
  let o := getLine s 2 (die ^^^ 1) l
  let c := getLine s 2 die l
  let (s, base, way, dirty) :=
    if c.valid then
      if o.valid && o.moesi ≥ 3 then (dropL2 s (die ^^^ 1) l, c.data, some c.way, c.dirty ||| o.dirty)
      else (s, c.data, some c.way, c.dirty)
    else
      let (s, y, _) := fetchL2 s die l
      let (s, w) := roomL2 s die l
      let s := if o.valid && o.moesi ≥ 2 then dropL2 s (die ^^^ 1) l else s
      (s, y, w, if o.valid && o.moesi ≥ 3 then o.dirty else 0)
  let shared := (getLine s 2 (die ^^^ 1) l).valid
  let s := if shared && !s.dieInval.contains (die ^^^ 1, l) then { s with dieInval := s.dieInval ++ [(die ^^^ 1, l)] } else s
  match way with
  | none => homeApply (if homePkg (l * 128) = die / 2 then s else backInvalidate s l (die / 2)) l (mergeLine base x m) (m ||| dirty)
  | some w =>
    let s := setLine s 2 die l
      { valid := true, way := w, data := mergeLine base x m, dirty := dirty ||| m, moesi := if shared then 3 else 4, agent := t }
    if isFar die l then enterFar s die l else s

/-! ### Cluster caches and L1 (R187, R200, R207, R220, R236) -/

/-- An atomic of the core has marked the line in its L1, and one of the cluster's cores in the cluster cache: fills of it there are
delivered without allocation. -/
def pendL1 (s : State) (core l : Nat) : Bool := s.atomPend.any (fun x => x.core == core && x.line == l)
def pendCC (s : State) (u l : Nat) : Bool := s.atomPend.any (fun x => coreCluster x.core == u && x.line == l && x.cc)

/-- No cache nearer a core takes a CXL line whose bytes the pool has still to complete (R235). -/
def noCopy (s : State) (u l : Nat) : Bool := poolPending (getLine s 2 (u / 32) l) l || poolPending (getLine s 1 u l) l

/-- Write back the dirty bytes of a cluster-cache line; its writer mask clears. -/
def cleanCC (s : State) (u l : Nat) : State :=
  let c := getLine s 1 u l
  if c.dirty == 0 then s else
  let s := writeL2 s (u / 32) l c.data c.dirty c.agent
  setLine s 1 u l { c with dirty := 0, writers := 0 }

def evictCC (s : State) (u l : Nat) : State := dropLine (cleanCC s u l) 1 u l

/-- Allocate a cluster-cache line, evicting its victim; false when every way is PIN or the line is atomic-pending. -/
def allocCC (s : State) (u l : Nat) (x : BitVec 1024) : State × Bool :=
  if pendCC s u l || noCopy s u l then (s, false) else
  match scheduledVictim s (u / 32) (inSet s 1 u l) with
  | none => (s, false)
  | some (w, v) =>
    let s := match v with | some l' => evictCC s u l' | none => s
    (setLine s 1 u l { valid := true, way := w, data := x }, true)

/-- Read a line at its cluster's cache for a thread, filling it. -/
def readCC (s : State) (t l : Nat) : State × BitVec 1024 :=
  let u := coreCluster (threadCore t)
  let c := getLine s 1 u l
  let view (s : State) (x : BitVec 1024) : BitVec 1024 := othersView s (getLine s 2 (u / 32) l) l t x
  if c.valid then (s, view s (othersView s c l t c.data)) else
  let (s, x) := readL2 s (u / 32) l
  ((allocCC s u l x).1, view s x)

/-- Write bytes of a line at the cluster cache of a thread; bytes of a CXL line that another thread left there are completed first. -/
def writeCC (s : State) (t l : Nat) (x : BitVec 1024) (m : BitVec 128) : State :=
  let u := coreCluster (threadCore t)
  let s := if pendOthers (getLine s 1 u l) l t then cleanL2 (cleanCC s u l) (u / 32) l else s
  let (s, y) := readCC s t l
  let c := getLine s 1 u l
  if c.valid then
    setLine s 1 u l { c with data := mergeLine y x m, dirty := c.dirty ||| m, writers := c.writers ||| 2 ^ (threadCore t % 4), agent := t }
  else writeL2 s (u / 32) l x m t

/-- Write back the dirty bytes of an L1 line to the cluster cache. -/
def cleanL1 (s : State) (core l : Nat) : State :=
  let c := getLine s 0 core l
  if c.dirty == 0 then s else
  let s := writeCC s c.agent l c.data c.dirty
  setLine s 0 core l { c with dirty := 0 }

def evictL1 (s : State) (core l : Nat) : State := dropLine (cleanL1 s core l) 0 core l

/-- Allocate an L1 line (R187): the lowest invalid way, else the set's fill pointer, which advances. -/
def allocL1 (s : State) (core l : Nat) (x : BitVec 1024) : State × Bool :=
  if pendL1 s core l || noCopy s (coreCluster core) l then (s, false) else
  let ls := inSet s 0 core l
  match freeWay ls with
  | some w => (setLine s 0 core l { valid := true, way := w, data := x }, true)
  | none =>
    let c := smGet s.cores {} core
    let w := smGet c.fill 0 (setOf 0 l)
    let s := { s with cores := smSet s.cores {} core { c with fill := smSet c.fill 0 (setOf 0 l) ((w + 1) % 16) } }
    let s := match ls.find? (fun y => y.2.way == w) with | some y => evictL1 s core y.1 | none => s
    (setLine s 0 core l { valid := true, way := w, data := x }, true)

def readL1 (s : State) (t l : Nat) (alloc : Bool) : State × BitVec 1024 :=
  let c := getLine s 0 (threadCore t) l
  if c.valid then (s, othersView s c l t c.data) else
  let (s, x) := readCC s t l
  (if alloc then (allocL1 s (threadCore t) l x).1 else s, x)

/-- Write bytes of a line at the L1 of a thread; bytes of a CXL line that another thread left there are completed first. -/
def writeL1 (s : State) (t l : Nat) (x : BitVec 1024) (m : BitVec 128) (alloc : Bool) : State :=
  let core := threadCore t
  let s := if pendOthers (getLine s 0 core l) l t then cleanL2 (evictCC (evictL1 s core l) (coreCluster core) l) (coreDie core) l else s
  let (s, y) := readL1 s t l alloc
  let c := getLine s 0 core l
  if c.valid then setLine s 0 core l { c with data := mergeLine y x m, dirty := c.dirty ||| m, agent := t }
  else writeCC s t l x m

/-- Write back and drop a core's own copies of a line: the L1's, and the cluster cache's when `cc` (R236). -/
def flushOwn (s : State) (core l : Nat) (cc : Bool) : State :=
  let s := evictL1 s core l
  if cc then evictCC s (coreCluster core) l else s

/-- Invalidate every L1 and cluster-cache copy of a line in a package (R200); the copies of an HC line are clean. The sharer vector
follows with the acknowledges. -/
def dropCopies (s : State) (pkg l : Nat) : State :=
  { s with
    cache := s.cache.filter (fun kv =>
      !(kv.1 % 2 ^ 53 == l && ((kv.1 / 2 ^ 53 < 131072 && kv.1 / 2 ^ 53 / 256 == pkg)
        || (131072 ≤ kv.1 / 2 ^ 53 && kv.1 / 2 ^ 53 < 262144 && (kv.1 / 2 ^ 53 - 131072) / 64 == pkg)))) }

/-- Write back and drop every L2 copy of a line in a package. -/
def flushL2 (s : State) (pkg l : Nat) : State := evictL2 (evictL2 s (2 * pkg) l) (2 * pkg + 1) l

/-! ### Accesses by scope (R200, R217, R219, R236) -/

/-- Where an access meets the others (R217). -/
inductive Point where
  | l1 | cc | l2 (die : Nat) | mem
  deriving DecidableEq, Repr

/-- The die of the package whose L2 stands for the home of an address below pod scope. DESIGN CHOICE (log entry 62): for a line homed
off the package it is the die of the same parity as the home die; R217 names none. -/
def deviceDie (pkg pa : Nat) : Nat := 2 * pkg + homeDie pa % 2

/-- Where atomics and reductions execute (R217, R219). `mode` 2 is HC, `vault` an access of space `.v`. -/
def atomicPoint (core scope mode pa : Nat) (vault : Bool) : Point :=
  if vault || (mode == 2 && regionOf pa == .vault) then .mem
  else if mode == 2 then .l2 (homeDie pa)
  else match scope with
    | 0 => .l1 | 1 => .l1 | 2 => .l1
    | 3 => .cc
    | 4 => .l2 (coreDie core)
    | 5 => .l2 (deviceDie (corePkg core) pa)
    | 6 => .l2 (homeDie pa)
    | _ => if regionOf pa == .host || regionOf pa == .cxl then .mem else .l2 (homeDie pa)

/-- Where loads at a scope read. -/
def readPoint (core scope pa : Nat) (vault : Bool) : Point :=
  if vault then .mem
  else match scope with
    | 0 => .l1 | 1 => .l1 | 2 => .l1
    | 3 => .cc
    | 7 => if regionOf pa == .host || regionOf pa == .cxl then .mem else .l2 (coreDie core)
    | _ => .l2 (coreDie core)

/-- Where stores, release writes among them, are made. -/
def storePoint (core scope mode pa : Nat) (vault : Bool) : Point :=
  if scope = 5 && mode != 2 && !vault then .l2 (coreDie core) else atomicPoint core scope mode pa vault

/-- Write back a core's own dirty bytes of a line, to the L2 of its die, and beyond it when the line is performed at the home of
another package or in host or CXL memory (R213). -/
def cleanOwn (s : State) (core l : Nat) (beyond : Bool) : State :=
  let s := cleanCC (cleanL1 s core l) (coreCluster core) l
  if beyond then cleanL2 (cleanL2 s (2 * corePkg core) l) (2 * corePkg core + 1) l else s

/-- Read a line at a point for a thread, its core's own dirty copies written back on the way (R213); they travel behind the
invalidation that a write of their die sent to another die of the package. A vault's home unit reads what an L2 that owns the line
supplies (R203). -/
def readLineAt (s : State) (t : Nat) (p : Point) (l : Nat) (alloc : Bool) : State × BitVec 1024 :=
  let core := threadCore t
  match p with
  | .l1 => readL1 s t l alloc
  | .cc => readCC (cleanL1 s core l) t l
  | .l2 die =>
    let s := cleanOwn s core l (die / 2 != corePkg core)
    let (s, x) := readL2 (if die = coreDie core then s else settleInval s die l) die l
    (s, othersView s (getLine s 2 die l) l t x)
  | .mem =>
    let s := cleanOwn s core l (regionOf (l * 128) != .vault || homePkg (l * 128) != corePkg core)
    (s, if regionOf (l * 128) == .vault then homeValue s l else memLine s l)

/-- A read-modify-write at a die's L2 acts on what the line holds, not on a stale copy there (R203, R217, R223). -/
def settlePoint (s : State) (p : Point) (l : Nat) : State := match p with | .l2 die => settleInval s die l | _ => s

/-- Write bytes of a line at its home: remote holders are back-invalidated first (R204), and an L2 of the home package that holds
the line takes the bytes. -/
def writeHome (s : State) (l : Nat) (x : BitVec 1024) (m : BitVec 128) : State := homeApply (backInvalidate s l 512) l x m

/-- Write bytes of a line at a point; copies nearer the core are written back and dropped first, and a stale copy in the L2 of its own
die goes with them (R213, R236). A write at another package's L2 leaves no stale copy there, which no release of the
writer's package would wait for (R220). A write at the home memory of a host or CXL line leaves no older copy in a package. A write at a
vault leaves cached copies of the line as they are, but for the L2s, which take the bytes (R246). -/
def writeLineAt (s : State) (t : Nat) (p : Point) (l : Nat) (x : BitVec 1024) (m : BitVec 128) (alloc : Bool) : State :=
  let core := threadCore t
  match p with
  | .l1 => writeL1 s t l x m alloc
  | .cc => writeCC (flushOwn s core l false) t l x m
  | .l2 die =>
    let s := flushOwn s core l true
    let s := if die / 2 ≠ corePkg core then flushL2 s (corePkg core) l else s
    let s := settleInval (writeL2 s die l x m t) (coreDie core) l
    if die / 2 ≠ corePkg core then settleInval s (die ^^^ 1) l else s
  | .mem =>
    if regionOf (l * 128) == .vault then
      writeHome (if homePkg (l * 128) = corePkg core then s else flushL2 s (corePkg core) l) l x m
    else
      let s := flushL2 (flushOwn s core l true) (corePkg core) l
      writeMemLine (flushL2 (backInvalidate s l 512) (homePkg (l * 128)) l) l x m

/-- The clusters of a line's home package that hold a copy of it, or that its sharer vector names (R200). -/
def copyHolders (s : State) (l : Nat) : List Nat :=
  let pkg := homePkg (l * 128)
  (List.range 64).filter (fun u =>
    (smGet s.sharers 0 l).testBit (u % 32) || (getLine s 1 (64 * pkg + u) l).valid
      || (List.range 4).any (fun i => (getLine s 0 (256 * pkg + 4 * u + i) l).valid))

/-- The invalidate-acknowledge of a cluster to a line's home (R200, R201): its source is the cluster's first core (log entry 60). -/
def invalidateAck (pkg u l : Nat) : Message :=
  { op := .invalidateAck, addr := BitVec.ofNat 60 (l * 128), src := BitVec.ofNat 24 ((256 * pkg + 4 * u) * 2 ^ 7) }

/-- The home takes a message that acknowledges an invalidation: the cluster holds no copy (R200). -/
def takeAck (s : State) (m : Message) : State :=
  let u := m.src.toNat / 2 ^ 9 % 64
  { s with sharers := smMod s.sharers 0 (lineOf m.addr.toNat) (fun v => v &&& (2 ^ 32 - 1 - 2 ^ (u % 32))) }

/-- An HC access at the home: it invalidates every cluster that holds a copy and takes their acknowledges; no cluster keeps a copy
afterwards (R200). -/
def hcSettle (s : State) (pa : Nat) : State :=
  let l := lineOf pa
  (copyHolders s l).foldl (fun s' u => takeAck s' (invalidateAck (homePkg pa) u l)) (dropCopies s (homePkg pa) l)

/-- The mode that stands for an access of space `.v`, which no page gives (R246). -/
def vaultMode : Nat := 3

/-- What a write does to the clusters' copies before it is made, by its region mode. -/
def modeSettle (s : State) (mode pa : Nat) : State := if mode == 2 then hcSettle s pa else s

/-- Read `n` bytes that lie in one line. -/
def readBytes (s : State) (t : Nat) (p : Point) (pa n : Nat) (alloc : Bool) : State × Nat :=
  let (s, x) := readLineAt s t p (lineOf pa) alloc
  (s, valueAt x pa n)

/-- Write `n` bytes that lie in one line. -/
def writeBytes (s : State) (t : Nat) (p : Point) (mode pa n v : Nat) (alloc : Bool) : State :=
  let s := modeSettle s mode pa
  unpoison (writeLineAt s t p (lineOf pa) (dataAt pa v) (maskAt pa n) alloc) pa n

/-- The line as an agent at die scope or wider reads it: an engine, a walker, the front end. -/
def readDie (s : State) (die pa n : Nat) : State × Nat :=
  let (s, x) := readL2 s die (lineOf pa)
  (s, valueAt (othersView s (getLine s 2 die (lineOf pa)) (lineOf pa) noThread x) pa n)

/-- Read `n` bytes from `pa` at a die's L2, one byte after another. -/
def readDieN (s : State) (die pa n : Nat) : State × Nat :=
  match n with
  | 0 => (s, 0)
  | n + 1 =>
    let (s, b) := readDie s die pa 1
    let (s, r) := readDieN s die (pa + 1) n
    (s, b + 256 * r)

/-- Write one byte at a die's L2. -/
def writeDie (s : State) (die pa b : Nat) : State := writeL2 s die (lineOf pa) (dataAt pa b) (maskAt pa 1) noThread

def writeDieN (s : State) (die pa n x : Nat) : State :=
  match n with
  | 0 => s
  | n + 1 => writeDieN (writeDie s die pa (x % 256)) die (pa + 1) n (x / 256)

/-! ### Dirty bits and bitmaps (R196, R369, R370) -/

/-- Set the bitmap bit of a virtual address in its interface's dirty bitmap. -/
def markBitmap (s : State) (vif va : Nat) : State :=
  let base := partField s vif 16 8
  let len := partField s vif 24 8
  let n := (va - base) / 65536
  if base ≤ va && n < len then
    let a := partField s vif 8 8 + n / 8
    let (s, b) := readDie s (2 * vifPkg vif) a 1
    writeDie s (2 * vifPkg vif) a (b ||| 2 ^ (n % 8))
  else s

/-- A write reaches memory at a virtual address: through the page entry at `pte - 1`, whose D bit is set, or through a buffer map
entry (`pte` 0), which has none. -/
def recordWrite (s : State) (vif va pte : Nat) : State :=
  let s := if pte = 0 then s else
    let ea := pte - 1
    let (s, b) := readDie s (homeDie ea) ea 1
    if b.testBit 6 then s else writeDie s (homeDie ea) ea (b ||| 64)
  markBitmap s vif va

/-! ### Translation -/

/-- A buffer map entry (R371), by its index, that covers a virtual address: the lowest VALID one. -/
def bufEntry (s : State) (vif va : Nat) : Option (Nat × Nat) :=
  let base := partField s vif 32 8
  let n := partField s vif 40 2
  ((List.range n).map (fun i => (i, s.mem.readN (base + 32 * i) 32))).find? (fun e =>
    let x := e.2
    let vb := bytesAt x 0 8
    (bytesAt x 14 1).testBit 0 && vb ≤ va && va < vb + bytesAt x 8 4 * 65536)

/-- The backing that an address of a buffer reaches: the published one, or the latent one (R372). -/
def bufPhys (e : Nat) (va : Nat) (latent : Bool) : Nat :=
  let sel := (bytesAt e 14 1).testBit 1
  (if sel != latent then bytesAt e 24 8 else bytesAt e 16 8) + (va - bytesAt e 0 8)

/-- A translation: physical address, region mode, address of the leaf entry plus one (0 through the buffer map), buffer map index
plus one (0 through a page). -/
structure Xlat where
  pa : Nat := 0
  mode : Nat := 0
  pte : Nat := 0
  buf : Nat := 0
  /-- size of the page, and its permissions -/
  size : Nat := 65536
  w : Bool := false
  x : Bool := false
  deriving DecidableEq, Repr

/-- What an access needs of a page: 0 a load, 1 a write, 2 an instruction fetch. -/
def permits (acc : Nat) (t : Xlat) : Bool := if acc = 1 then t.w else if acc = 2 then t.x else true

/-- The CXL port of its home die that serves an address, by the first committed HDM decoder that covers it (R362; log entry 16): the
decoder's own port, or of a range interleaved over both ports the one that its granule of 256 bytes to 16 KiB falls to. -/
def cxlPort (s : State) (pa : Nat) : Option Nat :=
  let entry (k : Nat) : Nat := (smGet s.hdm 0 (16 * homeDie pa + k)).toNat
  ((List.range 16).find? (fun k =>
    (entry k).testBit 133 && natBits (entry k) 63 0 ≤ pa % 2 ^ 50 && pa % 2 ^ 50 < natBits (entry k) 63 0 + natBits (entry k) 127 64)).map (fun k =>
    if (entry k).testBit 132 then (pa % 2 ^ 50 - natBits (entry k) 63 0) / (256 * 2 ^ min 6 (natBits (entry k) 130 128)) % 2 else k / 8)

/-- The number of Ethernet port `k` of a package, or from 8 on of its CXL port `k - 8` (R13), above those of the UALink ports (log entry 19). -/
def ethLink (p k : Nat) : Nat := 24 * Config.packages + 12 * p + k

/-- A port trains, or is left down: it carries nothing (R446). -/
def linkIdle (s : State) (port : Nat) : Bool := s.linkTrain.contains port || s.linkDown.contains port

/-- An address whose CXL port carries nothing: no response comes (R364). -/
def cxlDead (s : State) (pa : Nat) : Bool :=
  regionOf pa == .cxl && (match cxlPort s pa with | some k => linkIdle s (ethLink (homePkg pa) (8 + 2 * (homeDie pa % 2) + k)) | none => false)

/-- An HDM decoder of the home die covers an address (R362, R364). -/
def cxlDecoded (s : State) (pa : Nat) : Bool := (cxlPort s pa).isSome

/-- An address in a CXL window that the interface cannot reach: the feature is off, or no decoder covers it. -/
def noCxl (s : State) (vif pa : Nat) : Bool := regionOf pa == .cxl && (!hasFeature s vif 9 || !cxlDecoded s pa)

/-- An address that no program reaches: a reserved range, a register save area, or a CXL address that the interface cannot
reach (R191, R193, R379). -/
def offLimits (s : State) (vif pa : Nat) : Bool := regionOf pa == .reserved || inSaveArea pa || noCxl s vif pa

/-- A byte list as a little-endian number, and a number's bytes; each by halves, `fuel` times at most. -/
def bytesNatBy (fuel : Nat) (l : List Byte) : Nat :=
  match fuel with
  | 0 => l.foldr (fun b r => b.toNat + 256 * r) 0
  | f + 1 =>
    if l.length ≤ 32 then l.foldr (fun b r => b.toNat + 256 * r) 0
    else bytesNatBy f (l.take (l.length / 2)) + 256 ^ (l.length / 2) * bytesNatBy f (l.drop (l.length / 2))

def natBytesBy (fuel n x : Nat) : List Byte :=
  match fuel with
  | 0 => (List.range n).map (fun i => BitVec.ofNat 8 (x / 256 ^ i))
  | f + 1 =>
    if n ≤ 32 then (List.range n).map (fun i => BitVec.ofNat 8 (x / 256 ^ i))
    else natBytesBy f (n / 2) (x % 256 ^ (n / 2)) ++ natBytesBy f (n - n / 2) (x / 256 ^ (n / 2))

def bytesNat (l : List Byte) : Nat := bytesNatBy 32 l
def natBytes (n x : Nat) : List Byte := natBytesBy 32 n x

/-- Draw `n` bytes that the manual leaves open (log entry 1). -/
def freeN (s : State) (n : Nat) : State × Nat :=
  ({ s with free := s.free + n }, bytesNat ((List.range n).map (fun i => Config.freeByte (s.free + i))))

/-- A page entry as a walk reads it (R367). Where the level-0 table lies in a reserved range the manual names no memory there: the entry's
bytes are free (log entry 28). -/
def readEntry (s : State) (die ea : Nat) : State × Nat := if regionOf ea == .reserved then freeN s 8 else readDie s die ea 8

/-- One level of a walk and below (R367, R368, R481); `lv` counts down from 5. DESIGN CHOICE (log entry 47): a large page whose ADDR
passes check 3 may reach a byte that is off limits; that byte gives 0x108 behind the mode check and before the permission check,
which R481 does not order. -/
def walkFrom (s : State) (vif die va acc table : Nat) (lv : Nat) : State × Except Nat Xlat :=
  match lv with
  | 0 => (s, .error 0x10B)
  | lv' + 1 =>
    let level := 4 - lv'
    let idx := match level with
      | 0 => natBits va 56 48 | 1 => natBits va 47 39 | 2 => natBits va 38 30 | 3 => natBits va 29 21 | _ => natBits va 20 16
    let (s, e) := readEntry s die (table + 8 * idx)
    let leaf := e.testBit 1
    let addr := natBits e 59 8 * 256
    let size := match level with | 2 => 2 ^ 30 | 3 => 2 ^ 21 | _ => 2 ^ 16
    let align := if leaf then size else if level = 3 then 256 else 4096
    let badFormat := natBits e 63 60 != 0 || e.testBit 7 || (leaf && level < 2) || (!leaf && level == 4)
      || (!leaf && natBits e 6 2 != 0) || addr % align != 0
    if !e.testBit 0 then (s, .error 0x100)
    else if badFormat then (s, .error 0x10B)
    else if offLimits s vif addr then (s, .error 0x108)
    else if !leaf then walkFrom s vif die va acc addr lv'
    else
      let mode := natBits e 5 4
      let local' := homePkg addr == vifPkg vif && (regionOf addr == .hbm || regionOf addr == .vault)
      let t : Xlat := ⟨addr + va % size, mode, table + 8 * idx + 1, 0, size, e.testBit 2, e.testBit 3⟩
      if mode == 3 || (mode != 0 && !local') || (mode == 2 && !hasFeature s vif 8) then (s, .error 0x106)
      else if offLimits s vif t.pa then (s, .error 0x108)
      else if permits acc t then (s, .ok t) else (s, .error 0x102)

/-- The level-0 table of an interface. -/
def ptRoot (s : State) (vif : Nat) : Nat := partField s vif 0 8

/-- A complete translation of a canonical virtual address, the buffer map first (R372), then a walk (R367). A `latent`
access is an engine write, which reaches the latent backing. A backing does not reach what is off limits (R191; log entry 47). -/
def translate (s : State) (vif die va acc : Nat) (latent : Bool) : State × Except Nat Xlat :=
  match bufEntry s vif va with
  | some (i, e) =>
    let pa := bufPhys e va latent
    (s, if offLimits s vif pa then .error 0x108 else .ok ⟨pa, 0, 0, i + 1, 65536, true, false⟩)
  | none => walkFrom s vif die (va % 2 ^ 57) acc (ptRoot s vif) 5

/-- A TLB entry of the core or its cluster that covers an address (R194). -/
def tlbHit (s : State) (core vif va : Nat) : Option TlbEntry :=
  s.tlb.find? (fun t => t.vif == vif && t.vbase ≤ va && va < t.vbase + t.size
    && ((t.level == 0 && t.unit == core) || (t.level == 1 && t.unit == coreCluster core)))

/-- Enter a translation in a core's and its cluster's TLB; a full TLB loses its oldest entry (log entry 9). -/
def tlbFill (s : State) (core vif va : Nat) (t : Xlat) : State :=
  let mk (lv u : Nat) : TlbEntry := ⟨lv, u, vif, va / t.size * t.size, t.size, t.pa / t.size * t.size, t.mode, t.w, t.x, t.pte⟩
  let add (l : List TlbEntry) (e : TlbEntry) (cap : Nat) : List TlbEntry :=
    let l := if (l.filter (fun x => x.level == e.level && x.unit == e.unit)).length ≥ cap then
        (match l.find? (fun x => x.level == e.level && x.unit == e.unit) with | some o => l.erase o | none => l)
      else l
    l ++ [e]
  { s with tlb := add (add s.tlb (mk 0 core) 512) (mk 1 (coreCluster core)) 4096 }

/-- The vault address of a `.v` operand (R191): the physical address, 0x101 at issue, or 0x102 deferred. -/
def vaultAddr (s : State) (vif a : Nat) : Except Nat (Except Nat Nat) :=
  if a ≥ 2 ^ 30 || a % 2 ^ 22 ≥ 0x300000 then .error 0x101 else
  match physCore s vif (natBits a 29 22) with
  | none => .error 0x101
  | some c =>
    if (smGet s.cores {} c).failed then .error 0x101
    else if (partField s vif 72 8).testBit (c % 256 / 4) then .ok (.ok (vaultBase c + a % 2 ^ 22))
    else .ok (.error 0x102)

/-- The interface of another package that serves the same pod job (R192). DESIGN CHOICE (log entry 61): the lowest-numbered ENABLED
one that names the job, where several do. -/
def jobIface (s : State) (vif pkg : Nat) : Option Nat :=
  ((List.range 64).map (fun i => 64 * pkg + i)).find? (fun v =>
    (partField s v 44 4).testBit 0 && partField s v 42 2 == partField s vif 42 2)

/-- The virtual address and the target package of a `.x` address (R192). -/
def xTarget (a : Nat) : Nat × Nat := (natBits a 63 55, truncI (sext a 55) 64)

/-! ### CRC-32C (R342, R432) -/

/-- CRC-32C of bytes, reflected. -/
def crcBit (c : Nat) : Nat := if c.testBit 0 then (c / 2) ^^^ 0x82F63B78 else c / 2
def crcByte (c b : Nat) : Nat := (List.range 8).foldl (fun x _ => crcBit x) (c ^^^ b)
def crc32c (l : List Byte) : Nat := l.foldl (fun c b => crcByte c b.toNat) 0xFFFFFFFF ^^^ 0xFFFFFFFF

/-- How many of `n` bytes from a virtual address, translated to `pa`, lie in one granule. -/
def runLen (va pa n : Nat) : Nat := min n (min (32 - va % 32) (32 - pa % 32))

/-- Write `k` bytes of one granule at a die's L2; a whole granule loses its poison (R253). -/
def writeRun (s : State) (die pa k x : Nat) : State :=
  unpoison (writeL2 s die (lineOf pa) (dataAt pa x) (maskAt pa k) noThread) pa k

/-- Bytes that an engine reads at virtual addresses `va` upwards through its die's L2, granule by granule. The first fault ends
it. -/
def readVirtBy (fuel : Nat) (s : State) (vif die va n : Nat) : State × Except Nat (List Byte) :=
  match fuel with
  | 0 => (s, .ok [])
  | f + 1 =>
    if n = 0 then (s, .ok []) else
    if !canonical va then (s, .error 0x104) else
    match translate s vif die va 0 false with
    | (s, .error c) => (s, .error c)
    | (s, .ok t) =>
      let k := runLen va t.pa n
      if poisoned s t.pa k then (s, .error 0x109) else
      let (s, x) := readDie s die t.pa k
      match readVirtBy f s vif die ((va + k) % 2 ^ 64) (n - k) with
      | (s, .ok r) => (s, .ok (natBytes k x ++ r))
      | (s, .error c) => (s, .error c)

def readVirt (s : State) (vif die va n : Nat) : State × Except Nat (List Byte) := readVirtBy n s vif die va n

/-- Bytes that an engine writes at virtual addresses `va` upwards through its die's L2, granule by granule; with `latent`, into the
latent backing of a buffer, its bytes marked (R209). The first fault ends it, the earlier bytes written. -/
def writeVirtBy (fuel : Nat) (s : State) (vif die va : Nat) (latent : Bool) (l : List Byte) : State × Except Nat Unit :=
  match fuel with
  | 0 => (s, .ok ())
  | f + 1 =>
    if l.isEmpty then (s, .ok ()) else
    if !canonical va then (s, .error 0x104) else
    match translate s vif die va 1 latent with
    | (s, .error c) => (s, .error c)
    | (s, .ok t) =>
      if latent && t.buf = 0 then (s, .error 0x10C) else
      let k := runLen va t.pa l.length
      let s := recordWrite s vif va t.pte
      let s := if t.mode == 2 then hcSettle s t.pa else s
      let s := writeRun s die t.pa k (bytesNat (l.take k))
      let s := if latent then { s with latent := (List.range k).foldl (fun m i => smSet m false (t.pa + i) true) s.latent } else s
      writeVirtBy f s vif die ((va + k) % 2 ^ 64) latent (l.drop k)

def writeVirt (s : State) (vif die va : Nat) (latent : Bool) (l : List Byte) : State × Except Nat Unit :=
  writeVirtBy l.length s vif die va latent l

/-- Bytes that a collective engine writes: granule by granule, into the latent backing where a buffer covers the address (R209), plainly
elsewhere. The first fault ends it. -/
def writeCollBy (fuel : Nat) (s : State) (vif die va : Nat) (l : List Byte) : State × Except Nat Unit :=
  match fuel with
  | 0 => (s, .ok ())
  | f + 1 =>
    if l.isEmpty then (s, .ok ()) else
    let k := min l.length (32 - va % 32)
    match writeVirt s vif die va (bufEntry s vif va).isSome (l.take k) with
    | (s, .error c) => (s, .error c)
    | (s, .ok ()) => writeCollBy f s vif die ((va + k) % 2 ^ 64) (l.drop k)

def writeColl (s : State) (vif die va : Nat) (l : List Byte) : State × Except Nat Unit := writeCollBy l.length s vif die va l

/-! ### Long runs at home -/

/-- The cells of memory within a run of lines. -/
def memWithin (m : Memory) (pa n : Nat) : Memory := m.filter (fun c => pa / 128 * 128 ≤ c.1 && c.1 < (pa + n + 127) / 128 * 128)

/-- `n` bytes from a physical address as the home's L2 slices and memory hold them. -/
def homeRead (s : State) (pa n : Nat) : Nat :=
  let t := { s with mem := memWithin s.mem pa n }
  let l := pa / 128
  let all := (List.range ((pa + n + 127) / 128 - l)).foldr (fun i r => (homeValue t (l + i)).toNat + 2 ^ 1024 * r) 0
  all / 256 ^ (pa % 128) % 256 ^ n

/-- `n` bytes written at their home, line by line; other packages' copies go first (R204). -/
def homeBytesBy (fuel : Nat) (s : State) (pa n x : Nat) : State :=
  match fuel with
  | 0 => s
  | f + 1 =>
    if n = 0 then s else
    let k := min n (128 - pa % 128)
    homeBytesBy f (unpoison (writeHome s (lineOf pa) (dataAt pa (x % 256 ^ k)) (maskAt pa k)) pa k) (pa + k) (n - k) (x / 256 ^ k)

def homeBytes (s : State) (pa n x : Nat) : State := homeBytesBy n s pa n x

/-- The lines of a 64 KiB granule that other packages hold. -/
def heldLines (s : State) (pa : Nat) : List Nat :=
  (s.snoop.filter (fun kv => pa ≤ 128 * kv.1 && 128 * kv.1 < pa + 65536)).map (·.1)

/-- A 64 KiB granule written at its home; other packages' copies go first (R204). -/
def homeGranule (s : State) (pa x : Nat) : State :=
  let s := (heldLines s pa).foldl (fun s l => backInvalidate s l 512) s
  let keep : State := { s with
    mem := s.mem.filter (fun c => !(pa ≤ c.1 && c.1 < pa + 65536))
    poison := s.poison.filter (fun c => !(pa ≤ 32 * c.1 && 32 * c.1 < pa + 65536))
    cache := s.cache.map (fun kv =>
      let l := kv.1 % 2 ^ 53
      if kv.1 / 2 ^ 53 ≥ 262144 && pa ≤ 128 * l && 128 * l < pa + 65536 then
        (kv.1, { kv.2 with data := BitVec.ofNat 1024 (x / 256 ^ (128 * l - pa)) })
      else kv) }
  if x = 0 then keep else
  { keep with mem := ((natBytes 65536 x).zipIdx.filter (fun b => b.1 != emptyByte)).foldl (fun m b => m.write (pa + b.2) b.1) keep.mem }

end Sys2Proof.Machine
end

