-- ==== Sys2Proof/Machine/Ops.lean ====
section
/-! DEFINITION. The named operations over waves, registers, paths and masks, how an instruction ends, and taking a trap and
returning from one as one shared operation each (R18 to R20, R28, R87, R88, R164 to R173, R406 to R422). -/

namespace Sys2Proof.Machine

/-! ### Waves -/

def getWave (s : State) (w : Nat) : Wave := if w = s.cur then s.wave else smGet s.waves {} w

def setWave (s : State) (w : Nat) (x : Wave) : State :=
  if w = s.cur then { s with wave := x } else { s with waves := smSet s.waves {} w x }

def modWave (s : State) (w : Nat) (f : Wave → Wave) : State := setWave s w (f (getWave s w))

/-- Make `w` the wave that issues next. -/
def focus (s : State) (w : Nat) : State :=
  if w = s.cur then s
  else { s with cur := w, wave := smGet s.waves {} w, waves := smSet (smSet s.waves {} s.cur s.wave) {} w {} }

/-- Every wave, by its number. -/
def allWaves (s : State) : List (Nat × Wave) := (s.cur, s.wave) :: s.waves

def getCrew (s : State) (c : Nat) : Crew := smGet s.crews {} c
def modCrew (s : State) (c : Nat) (f : Crew → Crew) : State := { s with crews := smMod s.crews {} c f }
def getCore (s : State) (c : Nat) : Core := smGet s.cores {} c
def modCore (s : State) (c : Nat) (f : Core → Core) : State := { s with cores := smMod s.cores {} c f }

/-- The compute wave of a pair, which takes the pair's traps (R410). -/
def mainWave (s : State) (w : Nat) : Nat :=
  let x := getWave s w
  if x.shadow then x.partner.getD w else w

/-! ### Registers -/

def sGet (x : Wave) (i : Nat) : Nat := (smGet x.s 0 i).toNat
def sPut (x : Wave) (i v : Nat) : Wave := { x with s := smSet x.s 0 i (BitVec.ofNat 32 v) }

/-- A 64-bit value in scalar `i` and `i` + 1, low half first (R36). -/
def sPair64 (x : Wave) (i : Nat) : Nat := sGet x i + 2 ^ 32 * sGet x (i + 1)
def sPutPair (x : Wave) (i v : Nat) : Wave := sPut (sPut x i v) (i + 1) (v / 2 ^ 32)

def vGet (x : Wave) (r l : Nat) : Nat := (smGet x.v 0 (32 * r + l)).toNat
def vPut (x : Wave) (r l v : Nat) : Wave := { x with v := smSet x.v 0 (32 * r + l) (BitVec.ofNat 32 v) }

/-- The granule of lane `l` of a vector register (R253, R449), and whether the `n` bytes of a lane from register `r` touch a poisoned one. -/
def regGranule (r l : Nat) : Nat := 4 * r + l / 8
def regPoison (x : Wave) (r l n : Nat) : Bool := (List.range ((n + 3) / 4)).any (fun i => smGet x.poison false (regGranule (r + i) l))

/-- Lanes have been written in `n` registers from `r` by one instruction: a granule that they cover loses its poison (R253). -/
def healRegs (x : Wave) (m : Lanes) (r n : Nat) : Wave :=
  let whole (g : Nat) : Bool := (List.range 8).all (fun i => m.getLsbD (8 * g + i))
  { x with poison := x.poison.filter (fun e => !(4 * r ≤ e.1 && e.1 < 4 * (r + n) && e.1 < 1024 && whole (e.1 % 4))) }

def pGet (x : Wave) (i : Nat) : Lanes := smGet x.p 0 i
def pPut (x : Wave) (i : Nat) (m : Lanes) : Wave := { x with p := smSet x.p 0 i m }

def kGet (x : Wave) (i : Nat) : Lanes := smGet x.k 0 i
def kPut (x : Wave) (i : Nat) (m : Lanes) : Wave := { x with k := smSet x.k 0 i m }

/-- k0, the live lanes (R24, R119). -/
def live (x : Wave) : Lanes := kGet x 0

/-! ### The wave status word and ORDP (R124, R127) -/

def inTrap (x : Wave) : Bool := x.wsw.getLsbD 10
def stepOn (x : Wave) : Bool := x.wsw.getLsbD 16
def prio (x : Wave) : Nat := natBits x.wsw.toNat 23 21
def boff (x : Wave) : Nat := natBits x.wsw.toNat 20 17
def lanePart (x : Wave) : Nat := natBits x.wsw.toNat 14 12

/-- Tile width in lanes. -/
def tileWidth (x : Wave) : Nat := 32 >>> lanePart x

/-- Replace bits `[hi:lo]` of a word. -/
def setBits (w : Word) (hi lo v : Nat) : Word :=
  let m := (2 ^ (hi + 1 - lo) - 1) * 2 ^ lo
  BitVec.ofNat 32 (w.toNat - (w.toNat &&& m) + v * 2 ^ lo % 2 ^ (hi + 1))

/-- The ORDP slot of a path as eight bits: pending, scope, order. -/
def slotOf (x : Wave) (b : Bool) : Nat := if b then natBits x.ordp.toNat 15 8 else natBits x.ordp.toNat 7 0

def setSlot (x : Wave) (b : Bool) (v : Nat) : Wave :=
  { x with ordp := if b then setBits x.ordp 15 8 v else setBits x.ordp 7 0 v }

/-! ### Lanes and paths (R18 to R20, R164) -/

def getLane (x : Wave) (l : Nat) : Lane := smGet x.lane {} l
def modLane (x : Wave) (l : Nat) (f : Lane → Lane) : Wave := { x with lane := smMod x.lane {} l f }
def modLanes (x : Wave) (m : Lanes) (f : Lane → Lane) : Wave := (lanesOf m).foldl (fun x l => modLane x l f) x

/-- A lane stands at a header. -/
def atHeader (pc : DWord) (y : Lane) : Lane := { y with pc := pc, head := pc, mid := false }

/-- A lane stands inside a stroke. -/
def atInstr (pc head : DWord) (y : Lane) : Lane := { y with pc := pc, head := head, mid := true }

def pathOf (x : Wave) (b : Bool) : Path := if b then x.pathB else x.pathA
def setPath (x : Wave) (b : Bool) (p : Path) : Wave := if b then { x with pathB := p } else { x with pathA := p }

/-- The path whose instruction is due. -/
def curPath (x : Wave) : Path := pathOf x x.turnB

/-- A path's lanes that are live. -/
def activeLanes (x : Wave) (p : Path) : Lanes := p.lanes &&& live x

/-- The lanes of `act` in which a guard holds (R87). -/
def guardLanes (x : Wave) (g : BitVec 5) (act : Lanes) : Lanes :=
  let pred := g.toNat % 16
  if pred ≥ 12 then act else if g.getLsbD 4 then act &&& ~~~(pGet x pred) else act &&& pGet x pred

/-- Lanes leave the path that is issuing. -/
def leavePath (x : Wave) (m : Lanes) : Wave :=
  let p := curPath x
  setPath x x.turnB { p with lanes := p.lanes &&& ~~~m }

/-- Lanes branch to a header (R168). -/
def branchLanes (x : Wave) (m : Lanes) (target : DWord) : Wave := leavePath (modLanes x m (atHeader target)) m

/-- A path stops mid-stroke; its lanes keep the instruction due as their PC, or the header of a stroke that has not begun. -/
def syncPath (x : Wave) (b : Bool) : Wave :=
  let p := pathOf x b
  if p.on then setPath (modLanes x p.lanes (if p.pc == p.head then atHeader p.pc else atInstr p.pc p.head)) b {} else x

/-- Both paths stop (R407); the lanes that were issuing are noted (R412). -/
def syncPaths (x : Wave) : Wave :=
  let m := (if x.pathA.on then x.pathA.lanes else 0) ||| (if x.pathB.on then x.pathB.lanes else 0)
  { syncPath (syncPath x false) true with active := x.active ||| m }

/-- Give up the turn after an instruction; when no path is left the wave gives up its port. -/
def passTurn (x : Wave) : Wave :=
  let x := { x with
    turnB := if x.turnB then !x.pathA.on else x.pathB.on
    cycle := if x.turnB || !x.pathB.on then x.cycle + 1 else x.cycle }
  if x.pathA.on || x.pathB.on then x else { x with turnB := false }

/-- The end of a stroke clears both slots, but for those that continuations keep; a path that is issuing does not show one (R127). -/
def clearSlots (x : Wave) : Wave :=
  x.conts.foldl (fun x c => match c.slot with
    | some v => if (pathOf x (c.path == 1)).on then x else setSlot x (c.path == 1) v
    | none => x) { x with ordp := 0 }

/-- End the issuing path's stroke. -/
def endPath (x : Wave) : Wave := clearSlots (setPath x x.turnB {})

/-- The issuing path goes on behind an instruction of `n` bytes, or ends its stroke (R73, R168). -/
def advance (x : Wave) (n : Nat) : Wave :=
  let p := curPath x
  if !p.on then passTurn x
  else if p.lanes == 0 then passTurn (endPath x)
  else if p.idx + 1 ≥ p.count then passTurn (endPath (modLanes x p.lanes (atHeader p.fall)))
  else passTurn (setPath x x.turnB { p with pc := p.pc + BitVec.ofNat 64 n, idx := p.idx + 1 })

/-- The issuing path's stroke ends at the instruction due, which begins a continuation (R28); `keep` keeps the path's
ORDP slot (R127). -/
def holdPath (x : Wave) (c : Cond) (keep : Option Nat) : Wave :=
  let p := curPath x
  let x := modLanes x p.lanes (atInstr p.pc p.head)
  let x := { x with conts := x.conts ++ [⟨p.lanes, p.pc, p.head, keep, c, if x.turnB then 1 else 0, false⟩] }
  passTurn (endPath x)

/-- The stroke ends behind the instruction due; the continuation begins at the next one (R157, R425). -/
def holdAfter (x : Wave) (n : Nat) (c : Cond) : Wave :=
  let p := curPath x
  let last := p.idx + 1 ≥ p.count
  let pc := if last then p.fall else p.pc + BitVec.ofNat 64 n
  let head := if last then p.fall else p.head
  let x := modLanes x p.lanes (if last then atHeader p.fall else atInstr pc head)
  let x := { x with conts := x.conts ++ [⟨p.lanes, pc, head, none, c, if x.turnB then 1 else 0, false⟩] }
  passTurn (endPath x)

/-- Every active lane of the issuing path parks, its PC at the fall-through header (R261, R393, R400). -/
def parkPath (x : Wave) (on : Await) : Wave :=
  let p := curPath x
  let m := activeLanes x p
  let x := modLanes x m (atHeader p.fall)
  let x := { x with waits := x.waits ++ [⟨m, if x.turnB then 1 else 0, p.pc, p.head, p.fall, on, x.cycle⟩] }
  leavePath x m

/-! ### Masks (R173, R415) -/

/-- The lanes of one tile, for a lane and a tile width. -/
def tileMask (l width : Nat) : Lanes := BitVec.ofNat 32 ((2 ^ width - 1) * 2 ^ (l / width * width))

/-- A lane's mask wait is over (R173). -/
def maskDone (x : Wave) (l : Nat) : Bool :=
  let y := getLane x l
  if y.park = 15 then false
  else if y.tile then kGet x y.park &&& tileMask l (tileWidth x) == 0 else kGet x y.park == 0

/-- Evaluate every parked lane (R173); while a handler runs, nothing is evaluated (R415). -/
def evalMasks (x : Wave) : Wave :=
  if inTrap x then x else
  modLanes x (maskOf ((lanesOf (live x)).filter (maskDone x))) (fun y => { y with park := 15, tile := false })

/-- A lane is ready as far as its own waits go (R18, R414): live, not parked on a mask unless a handler runs, in no other
wait and no continuation. -/
def readyLanes (x : Wave) : Lanes :=
  let parked := maskOf ((List.range 32).filter (fun l => (getLane x l).park != 15))
  let busy := x.waits.foldl (fun m w => m ||| w.lanes) 0 ||| (x.conts.filter (fun c => !c.kept)).foldl (fun m c => m ||| c.lanes) 0
  live x &&& ~~~busy &&& (if inTrap x then BitVec.allOnes 32 else ~~~parked)

/-! ### Ending lanes and waves (R31, R169) -/

/-- A wave has ended: its paths, waits and continuations go, and its queue entries are discarded (R120). -/
def finishWave (x : Wave) : Wave :=
  { x with status := .ended, pathA := {}, pathB := {}, turnB := false, conts := [], waits := [], q := [], pend := [], reinject := [] }

/-! ### Barrier objects (R386 to R388) -/

/-- The number of a bench object, by core and absolute bench offset, and of a memory object, by physical address. -/
def benchObj (core off : Nat) : Nat := 2 * (core * 16384 + off / 32)
def memObj (pa : Nat) : Nat := 2 * (pa / 32) + 1

/-! Fields of an object (R386). -/

def objTarget (x : Nat) : Nat := natBits x 47 0
def objPhase (x : Nat) : Nat := natBits x 63 48
def objArrived (x : Nat) : Nat := natBits x 111 64
def objWaiters (x : Nat) : Nat := natBits x 127 112
def objArmed (x : Nat) : Bool := x.testBit 128
def objAuto (x : Nat) : Bool := x.testBit 129
def objErr (x : Nat) : Bool := x.testBit 130
def objScope (x : Nat) : Nat := natBits x 134 132
def objCause (x : Nat) : Nat := natBits x 145 136

def getBar (s : State) (o : Nat) : Barrier := smGet s.bars {} o
def modBar (s : State) (o : Nat) (f : Barrier → Barrier) : State := { s with bars := smMod s.bars {} o f }

/-- The 256 bits of an object, read at its counting unit. -/
def readObj (s : State) (o : Nat) : State × Nat :=
  if o % 2 = 0 then (s, s.bench.readN (o / 2 / 16384 * 2 ^ 19 + o / 2 % 16384 * 32) 32)
  else readDie s (homeDie (o / 2 * 32)) (o / 2 * 32) 32

/-- Write `n` bytes of an object from byte `i`, at its counting unit. -/
def writeObj (s : State) (o i n v : Nat) : State :=
  if o % 2 = 0 then { s with bench := s.bench.writeN (o / 2 / 16384 * 2 ^ 19 + o / 2 % 16384 * 32 + i) n v }
  else
    let pa := o / 2 * 32 + i
    writeL2 s (homeDie pa) (lineOf pa) (dataAt pa v) (maskAt pa n) noThread

/-- Change WAITERS, bits [127:112] of an object. -/
def addWaiters (s : State) (o : Nat) (d : Int) : State :=
  let (s, x) := readObj s o
  writeObj s o 14 2 (truncI ((bytesAt x 14 2 : Int) + d) 16)

/-- An object that is not armed, has no waiter and no counted work is no longer tracked (R387); what its unit keeps of it stays (R386). -/
def settle (s : State) (o : Nat) : State :=
  let b := getBar s o
  if !b.tracked then s else
  let (s, x) := readObj s o
  if objArmed x || objWaiters x ≠ 0 || b.work ≠ 0 || b.arrived ≠ 0 || b.error ≠ 0 then s
  else modBar s o (fun b => { b with tracked := false })

/-- The bench objects that `n` bytes from a bench key touch. -/
def benchObjs (pa n : Nat) : List Nat := (List.range ((pa + n - 1) / 32 + 1 - pa / 32)).map (fun i => 2 * (pa / 32 + i))

/-- Bytes that anything but the counting unit writes on a bench, from a bench key: an object that they leave idle is no longer
tracked (R387, R397). -/
def benchPut (s : State) (pa n v : Nat) : State := (benchObjs pa n).foldl settle { s with bench := s.bench.writeN pa n v }

def benchRead (s : State) (core off n : Nat) : Nat := s.bench.readN (core * 2 ^ 19 + off) n
def benchWrite (s : State) (core off n v : Nat) : State := benchPut s (core * 2 ^ 19 + off) n v

/-- A wait on an object that path A of a wave entered in the cycle of path B's instruction. -/
def waitNow (cycle o : Nat) (y : Wait) : Bool := y.path == 0 && y.cycle == cycle && (match y.on with | .barrier o' _ => o' == o | _ => false)

/-- The wave is counted in WAITERS of an object for such a wait alone. -/
def parkedNow (x : Wave) (pathB : Bool) (o : Nat) : Bool :=
  pathB && x.waits.any (waitNow x.cycle o)
    && !x.waits.any (fun y => !waitNow x.cycle o y && (match y.on with | .barrier o' _ => o' == o | _ => false))

/-! ### Route tags (R398 to R401) -/

/-- The dies of a tag's set: a `PKG` set holds its tag on both (R25). -/
def tagDies (s : State) (die n : Nat) : List Nat :=
  let t := smGet s.tags {} (8 * die + n)
  if t.pkg && t.owner.isSome then [die, die ^^^ 1] else [die]

/-- The lanes of a wave that are parked on tag `n`. -/
def tagLanes (x : Wave) (n : Nat) : Lanes := x.waits.foldl (fun m y => if y.on = .tag n then m ||| y.lanes else m) 0

/-- Every live lane of the crew's compute waves, and at least one, is parked on tag `n`. -/
def crewParked (s : State) (c n : Nat) : Bool :=
  let ws := ((getCrew s c).slots.take (getCrew s c).waves).map (getWave s)
  ws.all (fun x => live x &&& ~~~(tagLanes x n) == 0) && ws.any (fun x => tagLanes x n != 0)

/-- A wave's lanes that were parked on tag `n` are released, and wait for the wires only. -/
def releaseLanes (n : Nat) (x : Wave) : Wave :=
  { x with waits := x.waits.map (fun y => if y.on = .tag n then { y with on := .tag (n + 8) } else y) }

/-- The release test of R400: when the arrivals of the set's dies reach EXPECT, the round ends. -/
def tagTest (s : State) (die n : Nat) : State :=
  let ds := tagDies s die n
  let t := smGet s.tags {} (8 * die + n)
  let sum := ds.foldl (fun a d => a + (smGet s.tags {} (8 * d + n)).arrived) 0
  if t.expect > 0 && sum ≥ t.expect then
    let members := s.crews.filter (fun kv => ds.contains (coreDie kv.2.core) && kv.2.bound.testBit n)
    let s := members.foldl (fun s kv => kv.2.slots.foldl (fun s w => modWave s w (releaseLanes n)) s) s
    { s with tags := ds.foldl (fun m d => smMod m {} (8 * d + n) (fun t =>
        if t.owner.isNone then t else { t with arrived := 0, round := (t.round + 1) % 65536, releasing := true })) s.tags }
  else s

/-- A crew arrives (R400). -/
def tagArrive (s : State) (die n : Nat) : State :=
  tagTest { s with tags := smMod s.tags {} (8 * die + n) (fun t => { t with arrived := t.arrived + 1 }) } die n

/-- Take a counted arrival of a crew back (R401, R409). -/
def tagWithdraw (s : State) (die n : Nat) : State :=
  { s with tags := smMod s.tags {} (8 * die + n) (fun t => { t with arrived := t.arrived - 1 }) }

/-! ### Withdrawing waits (R409) -/

/-- Withdraw one wait of wave `w`: WAITERS falls once for the wave, an arrival is taken back. -/
def withdrawOne (s : State) (w : Nat) (y : Wait) (others : List Wait) : State :=
  match y.on with
  | .barrier o _ =>
    if others.any (fun z => match z.on with | .barrier o' _ => o' == o | _ => false) then s
    else { addWaiters s o (-1) with bars := smMod s.bars {} o (fun b => { b with parked := b.parked.erase w }) }
  | .tag n => if n < 8 && crewParked s (getWave s w).crew n then tagWithdraw s (waveDie w) n else s
  | .value .. => s

/-- A store of path B that changes an object on which path A of its cycle parked the wave comes before that `WAITB` (R391, R397): where
the fields that it leaves do not hold the wave, the `WAITB` stands at its instruction and is judged again. -/
def rejudgeWait (s : State) (w o : Nat) (y : Wait) : State :=
  let x := (readObj s o).2
  let d := match y.on with | .barrier _ d => sGet (getWave s w) d % 65536 | _ => 0
  if !objErr x && objPhase x == d then s else
  let s := withdrawOne s w y ((getWave s w).waits.erase y)
  modWave s w (fun x =>
    let x := modLanes x y.lanes (atInstr y.pc y.head)
    { x with waits := x.waits.erase y, conts := x.conts ++ [⟨y.lanes, y.pc, y.head, none, .now, y.path, false⟩] })

def rejudge (s : State) (w path cycle pa n : Nat) : State :=
  if path ≠ 1 then s else
  (benchObjs pa n).foldl (fun s o => ((getWave s w).waits.filter (waitNow cycle o)).foldl (fun s y => rejudgeWait s w o y) s) s

/-- Withdraw the waits `l` of wave `w`, one after another, each gone from the wave once it is withdrawn. -/
def withdrawEach (s : State) (w : Nat) : List Wait → State
  | [] => s
  | y :: rest => withdrawEach (modWave (withdrawOne s w y rest) w (fun x => { x with waits := rest })) w rest

/-- The slots that a wave's continuations keep go back into ORDP (R127). -/
def slotsBack (x : Wave) : Wave :=
  x.conts.foldl (fun x c => match c.slot with
    | some v => setSlot x (c.path == 1) v
    | none => x) x

/-- What waits for a system operation stands over the stop (R425). -/
def keptConts (x : Wave) : List Cont := (x.conts.filter (fun c => c.cond == .sysop)).map (fun c => { c with kept := true })

/-- Withdraw every wait of a wave but the mask waits: the lanes stand at the waiting instruction again, but for lanes that a
tag has released. A request of the register allocator is withdrawn with its `GROW`. -/
def withdrawWaits (s : State) (w : Nat) : State :=
  let waits := (getWave s w).waits
  let s := withdrawEach s w waits
  let s := modCore s (waveCore w) (fun c => { c with grow := c.grow.filter (fun r => r.w != w) })
  modWave s w (fun x => waits.foldl (fun x y =>
    match y.on with
    | .tag n => if n < 8 then modLanes x y.lanes (atInstr y.pc y.head) else x
    | _ => modLanes x y.lanes (atInstr y.pc y.head)) { slotsBack x with waits := [], conts := keptConts x })

/-- The waits of a pair are withdrawn. -/
def withdrawPair (s : State) (w : Nat) : State :=
  match (getWave s w).partner with
  | some q => withdrawWaits (withdrawWaits s w) q
  | none => withdrawWaits s w

/-! ### Ending lanes (R31, R169) -/

/-- Lanes leave the masks `ks`. -/
def dropLanes (x : Wave) (ks : List Nat) (m : Lanes) : Wave := ks.foldl (fun x k => kPut x k (kGet x k &&& ~~~m)) x

/-- Lanes leave every mask and every wait (R169). A wave whose lanes have all ended has ended, and its shadow with it, whose waits and request
of the allocator go (R31). -/
def clearLanes (s : State) (w : Nat) (m : Lanes) : State :=
  let x := dropLanes (getWave s w) (List.range 12) m
  let x := modLanes x m (fun y => { y with park := 15, tile := false })
  let x := { x with
    pathA := { x.pathA with lanes := x.pathA.lanes &&& ~~~m }, pathB := { x.pathB with lanes := x.pathB.lanes &&& ~~~m }
    conts := (x.conts.map (fun c => { c with lanes := c.lanes &&& ~~~m })).filter (fun c => c.lanes != 0)
    waits := (x.waits.map (fun c => { c with lanes := c.lanes &&& ~~~m })).filter (fun c => c.lanes != 0) }
  let x := evalMasks x
  if live x == 0 then
    let s := setWave s w (finishWave x)
    match x.partner with
    | some p =>
      if x.shadow || (getWave s p).status == .absent then s
      else modWave (withdrawWaits s p) p (fun y => finishWave (kPut y 0 0))
    | none => s
  else setWave s w x

/-- End lanes as by `EXIT` (R169); a crew whose other lanes are all parked on a tag arrives there (R400). -/
def endLanes (s : State) (w : Nat) (m : Lanes) : State :=
  let c := (getWave s w).crew
  let s' := clearLanes s w m
  (List.range 8).foldl (fun r n =>
    if (getCrew s c).bound.testBit n && !crewParked s c n && crewParked s' c n then tagArrive r (waveDie w) n else r) s'


/-! ### Raising a cause (R406, R407, R421) -/

/-- The slots of reads that a fault stopped go back into ORDP (R482). -/
def lateBack (x : Wave) : Wave := { x.late.foldl (fun x e => setSlot x (e.1 == 1) e.2) x with late := [] }

/-- A running wave stops with a status; where the cause lets its cycle complete (`later`), one that is issuing does not yet. -/
def stopAs (later : Bool) (st : WaveStatus) (y : Wave) : Wave :=
  match y.status with
  | .running => if later && (y.pathA.on || y.pathB.on) then y else { lateBack (syncPaths y) with status := st, turnB := false }
  | _ => y

/-- Stop a wave and its partner; the raising wave's status says that a cause stands undelivered. -/
def stopWave (s : State) (w : Nat) (later : Bool) : State :=
  let m := mainWave s w
  let s := modWave s m (stopAs later .stopped)
  match (getWave s m).partner with
  | some p => modWave s p (stopAs later .held)
  | none => s

/-- Record the cause that lanes of a wave met (R412). -/
def markLanes (x : Wave) (m : Lanes) (cause : Nat) : Wave :=
  { x with
    faulted := x.faulted ||| m
    lcause := (lanesOf m).foldl (fun t l => if smGet t 0 l = 0 then smSet t 0 l cause else t) x.lcause }

/-- A deferred or a parked cause lets the instructions of its cycle complete (R407). -/
def Pending.later (p : Pending) : Bool := p.rank == 4 || p.rank == 5

/-- A cause stops a wave: it stands undelivered until trap delivery takes it. -/
def raise (s : State) (w : Nat) (p : Pending) : State :=
  let x := getWave s w
  if x.status = .absent ∨ x.status = .ended then s else
  let s := modWave s w (fun x => markLanes x p.lanes p.cause)
  let s := modWave s (mainWave s w) (fun x => { x with pend := x.pend ++ [{ p with shadow := (getWave s w).shadow }] })
  stopWave s w p.later

/-! ### How an instruction ends -/

/-- The outcome of an instruction's own effect. -/
inductive Res where
  /-- it has its effect, and the path goes on -/
  | done (s : State)
  /-- the stroke ends at the instruction, which begins a continuation (R28); the slot that is kept -/
  | hold (s : State) (c : Cond) (keep : Option Nat)
  /-- it has its effect, and the stroke ends behind it (R157, R425) -/
  | after (s : State) (c : Cond)
  /-- it faults precisely: lanes that met the cause, each lane's own cause where they differ, the address -/
  | fault (s : State) (cause : Nat) (lanes : Lanes) (own : List (Nat × Nat)) (addr : Nat)
  /-- it has its effect, which ends the stroke for the lanes that execute it: no step retires (R420) -/
  | park (s : State)
  /-- a fault of its own read, found after issue: the path stops at it, no lane is re-injected (R482) -/
  | late (s : State) (cause : Nat) (lanes : Lanes) (addr : Nat)
  /-- the wave has stopped before it could run -/
  | stop (s : State)
  /-- it completes and raises an after cause (R182) -/
  | trap (s : State) (cause : Nat) (lanes : Lanes)
  deriving DecidableEq, Repr

/-- The next-state outcome of the machine. -/
abbrev Out := Host.Outcome State Fault Refusal

/-- The bytes of an instruction. -/
def instrBytes (i : Instr) : Nat := 4 * (encode i).length

/-- The wave's pre-step: STEP set and no handler running (R126, R420). -/
def stepping (x : Wave) : Bool := stepOn x && !inTrap x

/-- A step has retired: 0x3E1 (R420). -/
def stepTrap (s : State) (w : Nat) (i : Instr) (was : Bool) (path : Nat) (lanes : Lanes) : State :=
  if was then
    let s := modWave s w (fun x => { x with stepped := true })
    raise s w { cause := 0x3E1, rank := 6, path := path, lanes := lanes, parcels := encode i }
  else s

/-- The issuing path stops at its instruction, and the other goes on to the end of the cycle. -/
def latePath (x : Wave) : Wave := passTurn { syncPath x x.turnB with active := x.active ||| (curPath x).lanes }

/-- A stroke-start cause of a path (R480): the address of its lanes is the header's (log entry 53). -/
def strokeFault (s : State) (w : Nat) (b : Bool) (lanes : Lanes) (head : DWord) (e : Nat × List Word) : State :=
  raise s w { cause := e.1, rank := if b then 2 else 1, path := if b then 1 else 0, lanes := lanes
              addr := if e.1 / 256 = 1 then head.toNat else 0, parcels := e.2 }

/-- The cycle that wave `w` was in, in state `x0`, is over: a cause that stands undelivered stops it (R407). Behind path A's
instruction a path B whose stroke cannot start raises its cause. -/
def endCycle (x0 : Wave) (w : Nat) (s : State) : State :=
  let x := getWave s w
  if x.status ≠ .running then s
  else if !x0.turnB && x0.pathB.on then (match x.pathB.bad with
    | some e => strokeFault s w true x.pathB.lanes x.pathB.head e
    | none => s)
  else if (getWave s (mainWave s w)).pend.isEmpty then s
  else modWave s w (stopAs false (if x.shadow then .held else .stopped))

/-- Finish the instruction due on the current wave's issuing path. -/
def commit (i : Instr) (s0 : State) (r : Res) : State :=
  let w := s0.cur
  let x0 := s0.wave
  let p := curPath x0
  let path := if x0.turnB then 1 else 0
  let act := activeLanes x0 p
  match r with
  | .done s => endCycle x0 w (stepTrap (modWave s w (fun x => advance x (instrBytes i))) w i (stepping x0) path act)
  | .hold s c keep => endCycle x0 w (modWave s w (fun x => holdPath x c keep))
  | .park s => endCycle x0 w (modWave s w (fun x => advance x (instrBytes i)))
  | .after s c => endCycle x0 w (stepTrap (modWave s w (fun x => holdAfter x (instrBytes i) c)) w i (stepping x0) path act)
  | .fault s cause lanes own addr =>
    let s := modWave s w (fun x => own.foldl (fun x lc => markLanes x (laneBit lc.1) lc.2) x)
    raise s w { cause := cause, rank := path + 1, path := path, lanes := lanes, addr := addr, parcels := encode i }
  | .late s cause lanes addr =>
    endCycle x0 w (raise (modWave s w latePath) w { cause := cause, rank := 4, order := s.nextId, path := path, lanes := lanes, addr := addr })
  | .stop s => s
  | .trap s cause lanes =>
    stepTrap (raise (modWave s w (fun x => advance x (instrBytes i))) w
      { cause := cause, rank := 3, path := path, lanes := lanes, parcels := encode i }) w i (stepping x0) path act

/-- Run an instruction: with no instruction due the state stands; an encoding cause `pre` is raised whatever the guard
holds; a vector register at or beyond the allocation is 0x008 (R85, R88, R92); else `body` gets the path and the executing
lanes. -/
def runInstr (i : Instr) (g : BitVec 5) (pre : Option Nat) (vregs : Nat) (s : State)
    (body : Path → Lanes → Res) : Out :=
  let x := s.wave
  let p := curPath x
  let act := activeLanes x p
  if !p.on then .next s
  else match pre with
    | some c => .next (commit i s (.fault s c act [] 0))
    | none =>
      if vregs > 8 * x.gran then .next (commit i s (.fault s 0x008 act [] 0))
      else .next (commit i s (body p (guardLanes x g act)))

/-- A wave-wide instruction (R88): it acts once when an active lane executes it. -/
def runWide (i : Instr) (g : BitVec 5) (pre : Option Nat) (s : State) (body : Path → Lanes → Res) : Out :=
  runInstr i g pre 0 s (fun p ex => if ex == 0 then .done s else body p ex)

/-! ### Queue registers as a program's operands (R30, R120) -/

/-- The code that binds queue register `q` (R131). -/
def qCode (x : Wave) (q : Nat) : Nat := natBits (if q < 8 then x.qmap0 else x.qmap1).toNat (4 * (q % 8) + 3) (4 * (q % 8))

/-- The wave that holds the entries of register `q`: the window of a pair is held once, by its compute wave. -/
def queueWave (s : State) (w q : Nat) : Nat := if qCode (getWave s w) q = 1 then mainWave s w else w
def queueOf (s : State) (w q : Nat) : List (BitVec 1024) := smGet (getWave s (queueWave s w q)).q [] q
def setQueue (s : State) (w q : Nat) (l : List (BitVec 1024)) : State :=
  modWave s (queueWave s w q) (fun x => { x with q := smSet x.q [] q l })

/-- An access of register `q` by the current wave, a push or a pop, is unbound: 0x205. -/
def queueUnbound (x : Wave) (q : Nat) (push : Bool) : Bool := qCode x q = 0 || (qCode x q = 1 && x.shadow != push)

/-- Pop the oldest entry of register `q`: an empty register ends the stroke. No operand list names a queue register (log entry 7). -/
def popQueue (s : State) (q : Nat) (ex : Lanes) (f : State → BitVec 1024 → Res) : Res :=
  if queueUnbound s.wave q false then .fault s 0x205 ex [] 0
  else match queueOf s s.cur q with
    | [] => .hold s (.pop q) none
    | e :: rest => f (setQueue s s.cur q rest) e

/-- Push an entry: a full register ends the stroke. -/
def pushQueue (s : State) (q : Nat) (ex : Lanes) (e : BitVec 1024) : Res :=
  if queueUnbound s.wave q true then .fault s 0x205 ex [] 0
  else if (queueOf s s.cur q).length ≥ 8 then .hold s (.push q) none
  else .done (setQueue s s.cur q (queueOf s s.cur q ++ [e]))

/-- A counter is at or below a threshold; 256 places no condition (R385). -/
def counterMet (v t : Nat) : Bool := t == 256 || v ≤ t

/-- The lowest-numbered cause whose condition holds. -/
def firstCause (l : List (Bool × Nat)) : Option Nat :=
  l.foldl (fun b c => if c.1 then (match b with | some y => some (min y c.2) | none => some c.2) else b) none

/-! ### Halting (R422, R443) -/

/-- Send an interrupt to the function of an interface. -/
def interrupt (s : State) (vif vector : Nat) : State :=
  { s with notes := s.notes ++ [.interrupt (vifPkg vif) (vif % 64 + 1) vector] }

/-- The ENABLED interface that holds a core's cluster (R378). -/
def coreVif (s : State) (core : Nat) : Option Nat :=
  ((List.range 64).map (fun i => 64 * corePkg core + i)).find? (fun v =>
    (partField s v 44 4).testBit 0 && (partField s v 72 8).testBit (core % 256 / 4))

/-- Append an error record to the management function's log of 4,096, and to an interface's log of 256 (R448). -/
def logError (s : State) (pkg : Nat) (vif : Option Nat) (r : ErrRec) : State :=
  let r := { r with time := s.podTime }
  let s := { s with pkgs := smMod s.pkgs {} pkg (fun p =>
    { p with errors := (p.errors ++ [r]).drop ((p.errors.length + 1) - 4096), overflow := p.overflow || p.errors.length ≥ 4096 }) }
  match vif with
  | none => s
  | some v =>
    let s := { s with ifaces := smMod s.ifaces {} v (fun p =>
      { p with errors := (p.errors ++ [r]).drop ((p.errors.length + 1) - 256), overflow := p.overflow || p.errors.length ≥ 256 }) }
    interrupt s v 3

/-- Halt a wave and its partner for the driver; the halt record is appended before its interrupt. -/
def haltWave (s : State) (w cause inner : Nat) : State :=
  let x := getWave s w
  let halt (y : Wave) : Wave :=
    if y.status = .absent ∨ y.status = .ended then y else { syncPaths y with status := .halted cause inner, turnB := false }
  let s := modWave s w halt
  let s := match x.partner with | some p => modWave s p halt | none => s
  let note (f : Iface) : Iface :=
    { f with haltLog := (f.haltLog ++ [(waveCore w % 256, waveSlot w, cause, inner)]).drop ((f.haltLog.length + 1) - 256) }
  interrupt { s with ifaces := smMod s.ifaces {} x.vif note } x.vif 1

/-! ### The trap frame (R410 to R413) -/

/-- Address of a wave's frame. -/
def frameAddr (s : State) (w : Nat) : Nat :=
  let x := getWave s w
  (x.tvbase.toNat + 0x2000 + 0x10000 * (64 * logicalCore s x.vif (waveCore w) + waveSlot w)) % 2 ^ 64

/-- Store `n` bytes at a virtual address as a relaxed store at thread scope of wave `w` (R408): they lie in one line. -/
def storeVirt (s : State) (w va n v : Nat) : State × Except Nat Unit :=
  let x := getWave s w
  if !canonical va then (s, .error 0x104) else
  match translate s x.vif (waveDie w) va 1 false with
  | (s, .error c) => (s, .error c)
  | (s, .ok t) =>
    let s := recordWrite s x.vif va t.pte
    let p := storePoint (waveCore w) 0 t.mode t.pa false
    (writeBytes s (threadOf w 0) p t.mode t.pa n v true, .ok ())

/-- Load `n` bytes at a virtual address as wave `w`'s own load: they lie in one line. -/
def loadVirt (s : State) (w va n : Nat) : State × Except Nat Nat :=
  let x := getWave s w
  if !canonical va then (s, .error 0x104) else
  match translate s x.vif (waveDie w) va 0 false with
  | (s, .error c) => (s, .error c)
  | (s, .ok t) =>
    if poisoned s t.pa n then (s, .error 0x109) else
    let (s, v) := readBytes s (threadOf w 0) (readPoint (waveCore w) 0 t.pa false) t.pa n true
    (s, .ok v)

/-- Store a list of fields (offset, bytes, value) from a base; the first fault ends it. -/
def storeFields (s : State) (w base : Nat) (fs : List (Nat × Nat × Nat)) : State × Except Nat Unit :=
  match fs with
  | [] => (s, .ok ())
  | (o, n, v) :: rest =>
    match storeVirt s w ((base + o) % 2 ^ 64) n v with
    | (s, .ok ()) => storeFields s w base rest
    | (s, .error c) => (s, .error c)

/-- Load a list of fields (offset, bytes) from a base. -/
def loadFields (s : State) (w base : Nat) (fs : List (Nat × Nat)) : State × Except Nat (List Nat) :=
  match fs with
  | [] => (s, .ok [])
  | (o, n) :: rest =>
    match loadVirt s w ((base + o) % 2 ^ 64) n with
    | (s, .error c) => (s, .error c)
    | (s, .ok v) =>
      match loadFields s w base rest with
      | (s, .ok l) => (s, .ok (v :: l))
      | (s, .error c) => (s, .error c)

/-- A number as fields of 8 bytes from an offset. -/
def words8 (off n v : Nat) : List (Nat × Nat × Nat) := (List.range (n / 8)).map (fun i => (off + 8 * i, 8, v / 2 ^ (64 * i) % 2 ^ 64))

/-- Parcels as one number, parcel 0 lowest. -/
def parcelsNat (l : List Word) : Nat := l.foldr (fun p r => p.toNat + 2 ^ 32 * r) 0

/-- The lane record of lane `l` of a wave, 32 bytes (R412); it reads the wave as it stands at the stop. -/
def laneRecord (x : Wave) (l : Nat) : Nat :=
  let y := getLane x l
  let b (t : Bool) (i : Nat) : Nat := if t then 2 ^ i else 0
  let state := b ((live x).getLsbD l) 0 + b (x.active.getLsbD l) 1 + b (x.faulted.getLsbD l) 2 + b y.mid 3
  y.pc.toNat + 2 ^ 64 * (y.head.toNat) + 2 ^ 128 * state + 2 ^ 136 * (y.park + b y.tile 4) + 2 ^ 144 * y.stack.length
    + 2 ^ 160 * smGet x.lcause 0 l

/-- The return-stack fields of lane record `r` at frame offset `base`: entry 0 the oldest. -/
def stackFields (base r : Nat) (y : Lane) : List (Nat × Nat × Nat) :=
  (List.range y.stack.length).map (fun e => (base + 128 * r + 8 * e, 8, (y.stack.reverse.getD e 0).toNat % 2 ^ 57))

/-- A replay entry as fields (R413), at offset `o`. -/
def replayFields (o : Nat) (r : Replay) : List (Nat × Nat × Nat) :=
  let slot (l : Nat) : Nat := match r.lanes.find? (fun a => a.lane == l) with
    | some a => a.addr % 2 ^ 64 + 2 ^ 64 * (a.data % 2 ^ 128)
    | none => 0
  let opn (i : Nat) : Nat := r.operands.getD i 0 % 2 ^ 64
  [(o, 2, r.ecause), (o + 2, 1, if r.shadow then 1 else 0), (o + 3, 1, r.path), (o + 4, 4, r.rlanes.toNat), (o + 8, 8, r.ipc.toNat)]
    ++ (List.range 7).map (fun i => (o + 16 + 4 * i, 4, (r.parcels.getD i 0).toNat))
    ++ [(o + 44, 4, r.order + 8 * r.scope)] ++ words8 (o + 48) 16 0
    ++ (List.range 32).flatMap (fun l => words8 (o + 64 + 24 * l) 24 (slot l))
    ++ (List.range 8).map (fun i => (o + 0x340 + 8 * i, 8, if i < 4 then opn i else if i = 4 then r.t0 else 0))
    ++ words8 (o + 0x380) 128 0

/-- The delivered cause among those that stand (R421): the lowest rank, then issue order, compute before shadow. -/
def choosePending (l : List Pending) : Option Pending :=
  l.foldl (fun b p => match b with
    | none => some p
    | some q =>
      let key (z : Pending) : Nat := (z.rank * 2 + if z.shadow && z.rank == 4 then 1 else 0) * 2 ^ 64 + z.order
      if key p < key q then some p else some q) none

/-- The delivered cause with every lane of the raising wave that met it, and the address of the lowest of them (R411). -/
def gatherCause (s : State) (w : Nat) (p : Pending) : Pending :=
  let x := getWave s w
  let y := if p.shadow then (match x.partner with | some q => getWave s q | none => x) else x
  let met := maskOf ((List.range 32).filter (fun l => smGet y.lcause 0 l == p.cause))
  let same := x.pend.filter (fun q => q.cause == p.cause && q.shadow == p.shadow && q.lanes != 0)
  let low (q : Pending) : Nat := (lanesOf q.lanes).headD 32
  let first := same.foldl (fun b q => if low q < low b then q else b) p
  { p with lanes := same.foldl (fun m q => m ||| q.lanes) (p.lanes ||| met), addr := first.addr }

/-- The whole frame of wave `w` and its shadow as fields (R411 to R413). -/
def frameFields (s : State) (w : Nat) (p : Pending) : List (Nat × Nat × Nat) :=
  let x := getWave s w
  let sh := match x.partner with | some q => getWave s q | none => {}
  let rs := x.replay ++ sh.replay
  let flags := (if p.shadow then 1 else 0) + (if x.partner.isSome then 2 else 0) + (if x.stepped || sh.stepped then 4 else 0)
  [(0, 2, p.cause), (2, 1, flags), (3, 1, p.path), (4, 4, p.lanes.toNat), (8, 4, x.wsw.toNat), (12, 4, x.ordp.toNat),
    (16, 4, rs.length), (20, 4, p.detail), (24, 8, p.addr)]
    ++ (List.range 8).map (fun i => (32 + 4 * i, 4, sGet x i))
    ++ (List.range 7).map (fun i => (64 + 4 * i, 4, if p.rank ≤ 3 || p.rank == 6 then (p.parcels.getD i 0).toNat else 0))
    ++ [(92, 4, 0)] ++ words8 96 160 0
    ++ (List.range 32).flatMap (fun l => words8 (0x100 + 32 * l) 32 (laneRecord x l))
    ++ (List.range 32).flatMap (fun l => words8 (0x500 + 32 * l) 32 (if x.partner.isSome then laneRecord sh l else 0))
    ++ (List.range 32).flatMap (fun l => stackFields 0x1000 l (getLane x l))
    ++ (List.range 32).flatMap (fun l => if x.partner.isSome then stackFields 0x2000 l (getLane sh l) else [])
    ++ (rs.zipIdx.flatMap (fun e => replayFields (0x4000 + 0x400 * e.2) e.1))

/-! ### Taking a trap (R408 to R414, R422) -/

/-- A wave's record of a stop is cleared, its lanes captured for the return (R185). -/
def captureLanes (x : Wave) : Wave :=
  { x with
    capPc := (List.range 32).foldl (fun m l => smSet m 0 l (getLane x l).pc) [], capLive := live x
    faulted := 0, lcause := [], active := 0, stepped := false, replay := [] }

/-- The handler's state (R414). -/
def enterHandler (s : State) (w fa : Nat) (p : Pending) (handler : DWord) : State :=
  modWave s w (fun x =>
    let x := { captureLanes x with pend := [], status := .running }
    let x := modLanes x (live x) (atHeader handler)
    let x := sPut (sPut (sPutPair x 0 fa) 2 p.cause) 3 p.lanes.toNat
    { x with wsw := setBits (setBits (setBits (setBits x.wsw 10 10 1) 16 16 0) 20 17 0) 14 12 0, ordp := 0 })

/-- Take a trap: the wave `w` is stopped with causes that stand undelivered. One is chosen; while a handler runs the wave
halts; otherwise the vector entry is read, the frame is written as the wave stands with its waits withdrawn, they are withdrawn, and
the handler is entered. A wave that halts on the way keeps all of its state (R422). -/
def takeTrap (s : State) (w : Nat) : State :=
  let x := getWave s w
  match choosePending x.pend with
  | none => s
  | some p0 =>
    let p := gatherCause s w p0
    if inTrap x then haltWave s w 0x3E2 p.cause else
    match readVirt s x.vif (waveDie w) ((x.tvbase.toNat + 8 * p.cause) % 2 ^ 64) 8 with
    | (s, .error _) => haltWave s w 0x3E4 p.cause
    | (s, .ok bs) =>
      let e := bytesNat bs
      if !e.testBit 0 || natBits e 2 1 != 0 || !canonical (e / 8 * 8) then haltWave s w 0x3E4 p.cause else
      let fa := frameAddr s w
      match storeFields s w fa (frameFields (withdrawPair s w) w p) with
      | (s, .error c) => haltWave s w 0x3E3 c
      | (s, .ok ()) =>
        let s := withdrawPair s w
        let s := match x.partner with | some q => modWave s q captureLanes | none => s
        enterHandler s w fa p (BitVec.ofNat 64 (e / 8 * 8))

/-! ### Returning from a trap (R185, R417, R419) -/

/-- The fields that `TRET` reads: header, lane records, return stacks. -/
def headerFields : List (Nat × Nat) := (List.range 32).map (fun i => (8 * i, 8))
def recordFields (r : Nat) : List (Nat × Nat) := (List.range 4).map (fun i => (0x100 + 32 * r + 8 * i, 8))
def stackReads (r depth : Nat) : List (Nat × Nat) := (List.range depth).map (fun e => (0x1000 + 128 * r + 8 * e, 8))
def replayReads (i : Nat) : List (Nat × Nat) := (List.range 128).map (fun k => (0x4000 + 0x400 * i + 8 * k, 8))

/-- A list of 64-bit words as one number. -/
def wordsNat (l : List Nat) : Nat := l.foldr (fun a r => a + 2 ^ 64 * r) 0

/-- A lane record that the format allows (R412): its park tag is one of R164. -/
def recordOk (x : Nat) : Bool :=
  natBits x 135 132 == 0 && natBits x 143 141 == 0 && (natBits x 139 136 == 15 || (1 ≤ natBits x 139 136 && natBits x 139 136 ≤ 11))
    && bytesAt x 18 1 ≤ 16 && bytesAt x 19 1 == 0 && bytesAt x 20 2 < 1024 && bytesAt x 22 10 == 0

/-- Sign-extend a 57-bit address. -/
def sextPc (a : Nat) : DWord := BitVec.ofNat 64 (truncI (sext a 57) 64)

/-- Lanes leave the continuations. -/
def dropConts (x : Wave) (m : Lanes) : Wave :=
  { x with conts := (x.conts.map (fun c => { c with lanes := c.lanes &&& ~~~m })).filter (fun c => c.lanes != 0) }

/-- The continuations that a handler ran over wait again; its own are gone (R425). -/
def resumeConts (x : Wave) : Wave := { x with conts := (x.conts.filter (·.kept)).map (fun c => { c with kept := false }) }

/-- Apply lane record `rec` with its return stack, oldest entry first, to lane `l` (R417); an altered lane leaves every mask it waited
on, and is ended where the handler cleared its live bit (R185). DESIGN CHOICE (log entry 54): a live bit set for a lane that was
captured dead is ignored as a difference too; its PC alone then alters that lane. -/
def applyRecord (s : State) (w l rec : Nat) (stack : List Nat) : State :=
  let x := getWave s w
  let cap := x.capLive.getLsbD l
  let pc := sextPc (rec % 2 ^ 64)
  let ended := cap && !rec.testBit 128
  let altered := ended || pc != smGet x.capPc 0 l
  let y : Lane := { pc := pc, head := sextPc (bytesAt rec 8 8), mid := rec.testBit 131, stack := (stack.map sextPc).reverse
                    park := if altered then 15 else natBits rec 139 136, tile := if altered then false else rec.testBit 140 }
  let s := modWave s w (fun x => modLane x l (fun _ => y))
  if !altered then s
  else
    let s := modWave s w (fun x => dropConts (dropLanes x ((List.range 12).drop 1) (laneBit l)) (laneBit l))
    if ended then endLanes s w (laneBit l) else s

/-- A replay entry read back from its 1 KiB (R413). -/
def replayOf (x : Nat) (seq : Nat) : Replay :=
  let lane (l : Nat) : LaneAcc := { lane := l, addr := bytesAt x (64 + 24 * l) 8, data := bytesAt x (72 + 24 * l) 16 }
  { ecause := bytesAt x 0 2, shadow := bytesAt x 2 1 == 1, path := bytesAt x 3 1, rlanes := BitVec.ofNat 32 (bytesAt x 4 4)
    ipc := BitVec.ofNat 64 (bytesAt x 8 8), parcels := (List.range 7).map (fun i => BitVec.ofNat 32 (bytesAt x (16 + 4 * i) 4))
    order := bytesAt x 44 1 % 8, scope := natBits x 357 355, lanes := (List.range 32).map lane
    operands := (List.range 4).map (fun i => bytesAt x (0x340 + 8 * i) 8), t0 := bytesAt x 0x360 4, seq := seq }

/-- Read the records and stacks of 64 lanes, or of the compute wave's 32, from the frame. -/
def readRecords (s : State) (w fa : Nat) (rs : List Nat) : State × Except Nat (List (Nat × Nat × List Nat)) :=
  match rs with
  | [] => (s, .ok [])
  | r :: rest =>
    match loadFields s w fa (recordFields r) with
    | (s, .error c) => (s, .error c)
    | (s, .ok l) =>
      let x := wordsNat l
      if !recordOk x then (s, .error 0) else
      match loadFields s w fa (stackReads r (bytesAt x 18 1)) with
      | (s, .error c) => (s, .error c)
      | (s, .ok st) =>
        match readRecords s w fa rest with
        | (s, .ok t) => (s, .ok ((r, x, st) :: t))
        | (s, .error c) => (s, .error c)

/-- A replay entry whose reserved bytes are zero (R413). -/
def replayOk (x : Nat) : Bool := natBits x 511 358 == 0 && natBits x 8191 7168 == 0

/-- Read replay entries `i` upwards, `n` of them. -/
def readReplays (s : State) (w fa i n : Nat) : State × Except Nat (List Replay) :=
  match n with
  | 0 => (s, .ok [])
  | n + 1 =>
    match loadFields s w fa (replayReads i) with
    | (s, .error c) => (s, .error c)
    | (s, .ok l) =>
      if !replayOk (wordsNat l) then (s, .error 0) else
      match readReplays s w fa (i + 1) n with
      | (s, .ok t) => (s, .ok (replayOf (wordsNat l) i :: t))
      | (s, .error c) => (s, .error c)

/-- The scalar registers, WSW and ORDP that a return restores (R417). -/
def restoreWave (x : Wave) (h : Nat) : Wave :=
  let x := (List.range 8).foldl (fun x i => sPut x i (bytesAt h (32 + 4 * i) 4)) x
  let saved := bytesAt h 8 4
  { x with
    wsw := setBits (setBits (setBits x.wsw 23 16 (natBits saved 23 16)) 14 12 (natBits saved 14 12)) 11 11 (if x.shadow then 1 else 0)
    ordp := BitVec.ofNat 32 (bytesAt h 12 4) &&& 0xF7F7 }

/-- Return from a trap: read the frame of wave `w`, restore what it holds, apply the altered lanes, clear INTRAP, evaluate
the masks, and leave the replay entries to be issued again (R418). A frame that cannot be read or is invalid halts the wave
with 0x3E3. -/
def returnTrap (s : State) (w : Nat) : State :=
  let x := getWave s w
  let fa := frameAddr s w
  match loadFields s w fa headerFields with
  | (s, .error c) => haltWave s w 0x3E3 c
  | (s, .ok hl) =>
    let h := wordsNat hl
    let n := bytesAt h 16 4
    if bytesAt h 0 2 ≥ 1024 || bytesAt h 2 1 ≥ 8 || bytesAt h 3 1 > 1 || n > 48 || bytesAt h 92 164 != 0 then
      haltWave s w 0x3E3 0 else
    match readRecords s w fa (List.range (if x.partner.isSome then 64 else 32)) with
    | (s, .error c) => haltWave s w 0x3E3 c
    | (s, .ok rs) =>
      match readReplays s w fa 0 n with
      | (s, .error c) => haltWave s w 0x3E3 c
      | (s, .ok reps) =>
        let s := modWave s w (fun x => { syncPaths (restoreWave (resumeConts x) h) with status := .running, turnB := false, waits := [] })
        let s := match x.partner with
          | some q => modWave s q (fun y => { resumeConts y with status := if y.status = .held then .running else y.status })
          | none => s
        let s := rs.foldl (fun s r =>
          if r.1 < 32 then applyRecord s w r.1 r.2.1 r.2.2
          else match x.partner with | some q => applyRecord s q (r.1 - 32) r.2.1 r.2.2 | none => s) s
        let clear (y : Wave) : Wave :=
          if y.status = .ended then y else evalMasks { y with wsw := setBits y.wsw 10 10 0, active := 0 }
        let s := modWave s w (fun y => { clear y with reinject := reps })
        match x.partner with | some q => modWave s q clear | none => s

end Sys2Proof.Machine
end

