-- ==== Sys2Proof/Machine/SoftFloat.lean ====
section
/-! DEFINITION. Number formats and exact arithmetic (R34 to R52): a floating value is unpacked to an exact number, the
operation is computed exactly, and the result is rounded once. Flags are five bits: IV 1, DZ 2, OF 4, UF 8, IX 16 (R45). -/

namespace Sys2Proof.Machine

/-- The floating formats (R37). -/
inductive FKind where
  | fp64 | fp32 | fp16 | bf16 | e4m3 | e5m2
  deriving DecidableEq, Repr

/-- Exponent bits, fraction bits and bias of a format (R37). -/
def FKind.eBits : FKind → Nat
  | .fp64 => 11 | .fp32 => 8 | .fp16 => 5 | .bf16 => 8 | .e4m3 => 4 | .e5m2 => 5
def FKind.mBits : FKind → Nat
  | .fp64 => 52 | .fp32 => 23 | .fp16 => 10 | .bf16 => 7 | .e4m3 => 3 | .e5m2 => 2
def FKind.bias : FKind → Nat
  | .fp64 => 1023 | .fp32 => 127 | .fp16 => 15 | .bf16 => 127 | .e4m3 => 7 | .e5m2 => 15

/-- All bits of a format. -/
def FKind.width (k : FKind) : Nat := 1 + k.eBits + k.mBits

/-- The sign bit of a format. -/
def FKind.signBit (k : FKind) (neg : Bool) : Nat := if neg then 2 ^ (k.width - 1) else 0

/-- The canonical NaN (R39). -/
def FKind.nan : FKind → Nat
  | .fp64 => 0x7FF8000000000000 | .fp32 => 0x7FC00000 | .fp16 => 0x7E00 | .bf16 => 0x7FC0 | .e4m3 => 0x7F | .e5m2 => 0x7E

/-- The magnitude of an infinity; E4M3 has none (R38). -/
def FKind.inf (k : FKind) : Nat := (2 ^ k.eBits - 1) * 2 ^ k.mBits

/-- The magnitude of the largest finite value. -/
def FKind.maxFin (k : FKind) : Nat := match k with | .e4m3 => 0x7E | _ => k.inf - 1

/-- Rounding modes (R41). -/
inductive RMode where
  | rne | rtz | rup | rdn
  deriving DecidableEq, Repr

/-- The mode of a RND field (R41). -/
def rmode (rnd : Nat) : RMode := match rnd with | 0 => .rne | 1 => .rtz | 2 => .rup | _ => .rdn

/-- An unpacked value: a NaN, quiet or signalling; an infinity; or the number (−1)^neg · n · 2^e. -/
inductive FVal where
  | nan (signalling : Bool)
  | inf (neg : Bool)
  | fin (neg : Bool) (n : Nat) (e : Int)
  deriving DecidableEq, Repr

/-- The five flags as bits (R44, R45). -/
def flagIV : Nat := 1
def flagDZ : Nat := 2
def flagOF : Nat := 4
def flagUF : Nat := 8
def flagIX : Nat := 16

/-- Unpack a bit pattern (R37, R38). -/
def unpack (k : FKind) (x : Nat) : FVal :=
  let m := x % 2 ^ k.mBits
  let e := x / 2 ^ k.mBits % 2 ^ k.eBits
  let neg := x.testBit (k.width - 1)
  let num : FVal :=
    if e = 0 then .fin neg m (1 - (k.bias : Int) - (k.mBits : Int))
    else .fin neg (m + 2 ^ k.mBits) ((e : Int) - (k.bias : Int) - (k.mBits : Int))
  match k with
  | .e4m3 => if e = 15 && m = 7 then .nan false else num
  | .e5m2 => if e = 31 then (if m = 0 then .inf neg else .nan false) else num
  | _ =>
    if e = 2 ^ k.eBits - 1 then
      (if m = 0 then .inf neg else .nan (!(m.testBit (k.mBits - 1))))
    else num

/-- The increment that a mode gives to a magnitude with remainder `rem` below `2^s` (R41). -/
def roundInc (mode : RMode) (neg odd : Bool) (rem s : Nat) : Nat :=
  match mode with
  | .rne => if 2 * rem > 2 ^ s || (2 * rem = 2 ^ s && odd) then 1 else 0
  | .rtz => 0
  | .rup => if !neg && rem > 0 then 1 else 0
  | .rdn => if neg && rem > 0 then 1 else 0

/-- The magnitude `n · 2^e` in units of `2^q`, rounded, and whether it was inexact. -/
def roundTo (mode : RMode) (neg : Bool) (n : Nat) (e q : Int) : Nat × Bool :=
  if q ≤ e then (n * 2 ^ (e - q).toNat, false)
  else
    let s := (q - e).toNat
    let m := n >>> s
    let rem := n % 2 ^ s
    (m + roundInc mode neg (m % 2 = 1) rem s, rem != 0)

/-- A result too large for the format (R42, R49): its bits. -/
def overflowBits (k : FKind) (mode : RMode) (neg : Bool) : Nat :=
  k.signBit neg + match k with
    | .e4m3 => k.maxFin
    | _ => match mode with
      | .rne => k.inf
      | .rtz => k.maxFin
      | .rup => if neg then k.maxFin else k.inf
      | .rdn => if neg then k.inf else k.maxFin

/-- Round (−1)^neg · (n + ε) · 2^e to a format, where ε is 0, or strictly between 0 and 1 when `sticky` (R42 to R44); a sticky
`n` has more bits than the format. -/
def roundPack (k : FKind) (mode : RMode) (neg : Bool) (n : Nat) (e : Int) (sticky : Bool) : Nat × Nat :=
  if n = 0 && !sticky then (k.signBit neg, 0)
  else
    let n4 := 4 * n + (if sticky then 1 else 0)
    let e4 := e - 2
    let p := k.mBits + 1
    let top : Int := e4 + (bitLen n4 : Int) - 1
    let emin : Int := 1 - (k.bias : Int)
    let qn : Int := top - (k.mBits : Int)
    let qs : Int := emin - (k.mBits : Int)
    let q := if qn < qs then qs else qn
    let (m, inexact) := roundTo mode neg n4 e4 q
    let bits : Nat := if q = qs then m else (q - qs).toNat * 2 ^ k.mBits + m
    let tiny := top < emin && !(top = emin - 1 && (roundTo mode neg n4 e4 qn).1 = 2 ^ p)
    if bits > k.maxFin then (overflowBits k mode neg, flagOF + flagIX)
    else (k.signBit neg + bits, if inexact then (if tiny then flagUF + flagIX else flagIX) else 0)

/-- The canonical NaN with its flag (R39, R44). -/
def nanOut (k : FKind) (invalid : Bool) : Nat × Nat := (k.nan, if invalid then flagIV else 0)

/-- An infinity in a format; E4M3 gives its NaN with IV (R49). -/
def infOut (k : FKind) (neg : Bool) : Nat × Nat :=
  match k with
  | .e4m3 => (k.signBit neg + k.nan, flagIV)
  | _ => (k.signBit neg + k.inf, 0)

/-- `round(x, fmt, mode)` of an unpacked value (R42, R49). -/
def roundVal (k : FKind) (mode : RMode) (x : FVal) : Nat × Nat :=
  match x with
  | .nan s => nanOut k s
  | .inf neg => infOut k neg
  | .fin neg n e => roundPack k mode neg n e false

def FVal.isNan : FVal → Bool
  | .nan _ => true | _ => false
def FVal.isSnan : FVal → Bool
  | .nan s => s | _ => false
def FVal.isZero : FVal → Bool
  | .fin _ n _ => n = 0 | _ => false
def FVal.isNeg : FVal → Bool
  | .nan _ => false | .inf s => s | .fin s _ _ => s

/-- Sign flip, exact (R108). -/
def FVal.negate : FVal → FVal
  | .nan s => .nan s
  | .inf s => .inf (!s)
  | .fin s n e => .fin (!s) n e

/-- A finite number in units of `2^e0`, for `e0` at most its exponent. -/
def scaled (neg : Bool) (n : Nat) (e e0 : Int) : Int :=
  let m : Int := ((n * 2 ^ (e - e0).toNat : Nat) : Int)
  if neg then -m else m

/-- The exact product, and whether it is invalid (0 × ∞) (R44). A signalling NaN is a signalling result. -/
def mulExact (a b : FVal) : FVal :=
  match a, b with
  | .nan s, y => .nan (s || y.isSnan)
  | x, .nan s => .nan (s || x.isSnan)
  | .inf s, .inf t => .inf (s != t)
  | .inf s, .fin t n _ => if n = 0 then .nan true else .inf (s != t)
  | .fin s n _, .inf t => if n = 0 then .nan true else .inf (s != t)
  | .fin s n e, .fin t m f => .fin (s != t) (n * m) (e + f)

/-- The exact sum (R43, R44); `.nan true` stands for every invalid case. -/
def addExact (mode : RMode) (a b : FVal) : FVal :=
  match a, b with
  | .nan s, y => .nan (s || y.isSnan)
  | x, .nan s => .nan (s || x.isSnan)
  | .inf s, .inf t => if s = t then .inf s else .nan true
  | .inf s, .fin .. => .inf s
  | .fin .., .inf t => .inf t
  | .fin s n e, .fin t m f =>
    let e0 := if e < f then e else f
    let x := scaled s n e e0 + scaled t m f e0
    if x = 0 then .fin (if n = 0 && m = 0 && s = t then s else mode = .rdn) 0 e0
    else .fin (x < 0) x.natAbs e0

def fadd (k : FKind) (mode : RMode) (a b : FVal) : Nat × Nat := roundVal k mode (addExact mode a b)
def fmul (k : FKind) (mode : RMode) (a b : FVal) : Nat × Nat := roundVal k mode (mulExact a b)

/-- Fused multiply-add: one rounding; 0 × ∞ is invalid whatever the addend (R44). -/
def ffma (k : FKind) (mode : RMode) (a b c : FVal) : Nat × Nat := roundVal k mode (addExact mode (mulExact a b) c)

/-- Order two numbers that are not NaN: −1, 0 or 1. -/
def fcmp (a b : FVal) : Int :=
  match a, b with
  | .inf s, .inf t => if s = t then 0 else if s then -1 else 1
  | .inf s, _ => if s then -1 else 1
  | _, .inf t => if t then 1 else -1
  | .fin s n e, .fin t m f =>
    let e0 := if e < f then e else f
    let x := scaled s n e e0 - scaled t m f e0
    if x < 0 then -1 else if x = 0 then 0 else 1
  | _, _ => 0

/-- `FMIN` or `FMAX` (R48): the result's bits among the operands', −0 below +0. -/
def fminmax (k : FKind) (isMax : Bool) (a b : FVal) : Nat × Nat :=
  let iv := if a.isSnan || b.isSnan then flagIV else 0
  if a.isNan && b.isNan then (k.nan, iv)
  else if a.isNan then ((roundVal k .rne b).1, iv)
  else if b.isNan then ((roundVal k .rne a).1, iv)
  else
    let c := fcmp a b
    let aLow := c < 0 || (c = 0 && a.isNeg)
    ((roundVal k .rne (if aLow != isMax then a else b)).1, iv)

/-- `FSETP` (R48, R107): the comparison and IV. -/
def fsetp (cmp : Nat) (a b : FVal) : Bool × Nat :=
  let nan := a.isNan || b.isNan
  let snan := a.isSnan || b.isSnan
  let c := fcmp a b
  let r : Bool := match cmp with
    | 0 => !nan && c = 0
    | 1 => nan || c ≠ 0
    | 2 => !nan && c < 0
    | 3 => !nan && c ≤ 0
    | 4 => !nan && c > 0
    | 5 => !nan && c ≥ 0
    | 6 => !nan
    | _ => nan
  let ordered := 2 ≤ cmp && cmp ≤ 5
  (r, if snan || (ordered && nan) then flagIV else 0)

/-- Round to an integral value in the operand's own format (R148). -/
def frnd (k : FKind) (mode : RMode) (a : FVal) : Nat × Nat :=
  match a with
  | .fin neg n e =>
    let (m, inexact) := roundTo mode neg n e 0
    if e ≥ 0 then (roundVal k mode a) else ((roundPack k mode neg m 0 false).1, if inexact then flagIX else 0)
  | _ => roundVal k mode a

/-- Float to an integer range (R50): the value and the flags. -/
def fToInt (mode : RMode) (lo hi : Int) (a : FVal) : Int × Nat :=
  match a with
  | .nan _ => (0, flagIV)
  | .inf neg => (if neg then lo else hi, flagIV)
  | .fin neg n e =>
    let (m, inexact) := roundTo mode neg n e 0
    let x : Int := if neg then -(m : Int) else (m : Int)
    if x < lo then (lo, flagIV) else if x > hi then (hi, flagIV) else (x, if inexact then flagIX else 0)

/-- Integer to float (R50). -/
def intToF (k : FKind) (mode : RMode) (x : Int) : Nat × Nat := roundPack k mode (x < 0) x.natAbs 0 false

/-! ### Special functions (R51, R52) -/

/-- The integer square root, bit by bit from bit `i` − 1. -/
def isqrtFrom (n : Nat) (i r : Nat) : Nat :=
  match i with
  | 0 => r
  | i + 1 => isqrtFrom n i (if (r + 2 ^ i) * (r + 2 ^ i) ≤ n then r + 2 ^ i else r)

def isqrt (n : Nat) : Nat := isqrtFrom n (bitLen n / 2 + 1) 0

/-- Fraction bits of the fixed-point evaluations below. -/
def fixBits : Nat := 512
def fixOne : Nat := 2 ^ fixBits

/-- `scale / d · Σ (±1)^i / ((2i + 1) d^(2i))`: the inverse tangent (alternating) or inverse hyperbolic tangent of 1/d. -/
def atanInv (alt : Bool) (scale d : Nat) : Nat :=
  let r := (List.range 180).foldl (fun (a : Int × Nat) i =>
    let t : Int := ((a.2 / (2 * i + 1) : Nat) : Int)
    (if alt && i % 2 = 1 then a.1 - t else a.1 + t, a.2 / (d * d))) ((0 : Int), scale / d)
  r.1.toNat

/-- ln 2 and π in fixed point, by 2 artanh(1/3) and Machin's formula. -/
def fixLn2 : Nat := atanInv false (2 * 2 ^ (fixBits + 16)) 3 / 2 ^ 16
def fixPi : Nat := (4 * (4 * atanInv true (2 ^ (fixBits + 16)) 5 - atanInv true (2 ^ (fixBits + 16)) 239)) / 2 ^ 16

/-- `e^y` for a fixed-point `y` in [0, 1). -/
def fixExp (y : Nat) : Nat :=
  ((List.range 110).foldl (fun (a : Nat × Nat) i => (a.1 + a.2, a.2 * y / fixOne / (i + 1))) (0, fixOne)).1

/-- ln m for a fixed-point `m` in [1, 2). -/
def fixLn (m : Nat) : Nat :=
  let z := (m - fixOne) * fixOne / (m + fixOne)
  let z2 := z * z / fixOne
  2 * ((List.range 180).foldl (fun (a : Nat × Nat) i => (a.1 + a.2 / (2 * i + 1), a.2 * z2 / fixOne)) (0, z)).1

/-- sin y (`odd`) or cos y for a fixed-point `y` in [0, 2). -/
def fixTrig (odd : Bool) (y : Nat) : Nat :=
  let y2 := y * y / fixOne
  let r := (List.range 90).foldl (fun (a : Int × Nat) i =>
    let d := if odd then (2 * i + 2) * (2 * i + 3) else (2 * i + 1) * (2 * i + 2)
    (if i % 2 = 0 then a.1 + (a.2 : Int) else a.1 - (a.2 : Int), a.2 * y2 / fixOne / d)) ((0 : Int), if odd then y else fixOne)
  r.1.toNat

/-- A finite number as fixed point: whole part below `2^k` kept exactly; bits below the fixed point never occur for FP32. -/
def fixOf (n : Nat) (e : Int) : Nat :=
  if e ≥ 0 then n * fixOne * 2 ^ e.toNat else n * fixOne / 2 ^ (-e).toNat

/-- 1/x. -/
def frcp (k : FKind) (mode : RMode) (a : FVal) : Nat × Nat :=
  match a with
  | .nan s => nanOut k s
  | .inf neg => (k.signBit neg, 0)
  | .fin neg n e =>
    if n = 0 then (k.signBit neg + k.inf, flagDZ)
    else
      let b := 2 * k.mBits + 64
      roundPack k mode neg (2 ^ b / n) (-e - (b : Int)) (2 ^ b % n ≠ 0)

/-- √x. -/
def fsqrt (k : FKind) (mode : RMode) (a : FVal) : Nat × Nat :=
  match a with
  | .nan s => nanOut k s
  | .inf neg => if neg then nanOut k true else (k.inf, 0)
  | .fin neg n e =>
    if n = 0 then (k.signBit neg, 0)
    else if neg then nanOut k true
    else
      let sh : Nat := if e % 2 = 0 then 160 else 161
      let m := n * 2 ^ sh
      let r := isqrt m
      roundPack k mode false r ((e - (sh : Int)) / 2) (r * r ≠ m)

/-- 1/√x. -/
def frsq (k : FKind) (mode : RMode) (a : FVal) : Nat × Nat :=
  match a with
  | .nan s => nanOut k s
  | .inf neg => if neg then nanOut k true else (0, 0)
  | .fin neg n e =>
    if n = 0 then (k.signBit neg + k.inf, flagDZ)
    else if neg then nanOut k true
    else
      let b : Nat := if e % 2 = 0 then 320 else 321
      let r := isqrt (2 ^ b / n)
      roundPack k mode false r ((-e - (b : Int)) / 2) (r * r * n ≠ 2 ^ b)

/-- 2ˣ. -/
def fexp2 (k : FKind) (mode : RMode) (a : FVal) : Nat × Nat :=
  match a with
  | .nan s => nanOut k s
  | .inf neg => if neg then (0, 0) else (k.inf, 0)
  | .fin neg n e =>
    let whole := roundTo .rtz false n e 0
    if n = 0 then roundPack k mode false 1 0 false
    else if whole.1 ≥ 2000 then roundPack k mode false (2 ^ 64) (if neg then -2064 else 2000) true
    else if !whole.2 then roundPack k mode false 1 (if neg then -(whole.1 : Int) else whole.1) false
    else
      let f := fixOf n e % fixOne
      let (i, f) : Int × Nat := if neg then (-(whole.1 : Int) - 1, fixOne - f) else ((whole.1 : Int), f)
      roundPack k mode false (fixExp (f * fixLn2 / fixOne) / 2 ^ 64) (i - (fixBits : Int) + 64) true

/-- log₂ x. -/
def flog2 (k : FKind) (mode : RMode) (a : FVal) : Nat × Nat :=
  match a with
  | .nan s => nanOut k s
  | .inf neg => if neg then nanOut k true else (k.inf, 0)
  | .fin neg n e =>
    if n = 0 then (k.signBit true + k.inf, flagDZ)
    else if neg then nanOut k true
    else
      let b := bitLen n
      let i : Int := e + (b : Int) - 1
      if n = 2 ^ (b - 1) then intToF k mode i
      else
        let l := fixLn (n * fixOne / 2 ^ (b - 1)) * fixOne / fixLn2
        let r : Int := i * (fixOne : Int) + (l : Int)
        if r < 0 then roundPack k mode true (r.natAbs / 2 ^ 64) (64 - (fixBits : Int)) true
        else roundPack k mode false (r.toNat / 2 ^ 64) (64 - (fixBits : Int)) true

/-- sin(π x) or cos(π x): the operand modulo 2 in quarter turns of ½, the remainder by series. -/
def fsincospi (k : FKind) (mode : RMode) (cosine : Bool) (a : FVal) : Nat × Nat :=
  match a with
  | .nan s => nanOut k s
  | .inf _ => nanOut k true
  | .fin neg n e =>
    if n = 0 then (if cosine then roundPack k mode false 1 0 false else (k.signBit neg, 0))
    else
      let r := if e ≥ 0 then n % 2 * 2 ^ (if e > 0 then 1 else 0) % 2 * fixOne else fixOf n e % (2 * fixOne)
      let q := r / (fixOne / 2)
      let t := r % (fixOne / 2)
      let q' := if cosine then q + 1 else q
      if t = 0 then
        if q' % 2 = 0 then (k.signBit (!cosine && neg), 0)
        else roundPack k mode ((q' % 4 = 3) != (!cosine && neg)) 1 0 false
      else
        let y := t * fixPi / fixOne
        let v := fixTrig (q' % 2 = 0) y
        let sgn := (q' % 4 ≥ 2) != (!cosine && neg)
        roundPack k mode sgn (v / 2 ^ 32) (32 - (fixBits : Int)) true

/-- tanh x. -/
def ftanh (k : FKind) (mode : RMode) (a : FVal) : Nat × Nat :=
  match a with
  | .nan s => nanOut k s
  | .inf neg => roundPack k mode neg 1 0 false
  | .fin neg n e =>
    if n = 0 then (k.signBit neg, 0)
    else if (roundTo .rtz false n e 0).1 ≥ 64 then roundPack k mode neg (2 ^ 180 - 1) (-180) true
    else
      let y : Nat := 2 * fixOf n e
      let i : Nat := y / fixLn2
      let ex := fixExp (y % fixLn2) * 2 ^ i
      roundPack k mode neg ((ex - fixOne) * 2 ^ 340 / (ex + fixOne)) (-340) true

/-! ### Format codes (R109) -/

/-- The floating format of a format code. -/
def fkindOf (code : Nat) : Option FKind :=
  match code with
  | 0 => some .fp64 | 1 => some .fp32 | 2 => some .fp16 | 3 => some .bf16 | 4 => some .e4m3 | 5 => some .e5m2 | _ => none

/-- Width and signedness of an integer format code. -/
def intFmt (code : Nat) : Nat × Bool :=
  match code with
  | 6 => (8, true) | 7 => (8, false) | 8 => (16, true) | 9 => (16, false) | 10 => (32, true) | 11 => (32, false)
  | 12 => (64, true) | 13 => (64, false) | 14 => (4, true) | _ => (4, false)

/-- The range of an integer format. -/
def intRange (w : Nat) (signed : Bool) : Int × Int :=
  if signed then (-((2 ^ (w - 1) : Nat) : Int), ((2 ^ (w - 1) : Nat) : Int) - 1) else (0, ((2 ^ w : Nat) : Int) - 1)

/-- An integer of a format read from a register's low bits. -/
def intOf (w : Nat) (signed : Bool) (x : Nat) : Int := if signed then sext x w else ((x % 2 ^ w : Nat) : Int)

/-- Convert a register value from format code `s` to `t` (R49, R50, R109, R150): bits for the target register, extended by the
target's signedness to 32 bits (64 for the wide formats), and the flags. DESIGN CHOICE (log entry 68): FN[5] saturates every integer pair,
also one that does not narrow, where a negative value becomes 0 in an unsigned target. -/
def convert (t s : Nat) (mode : RMode) (saturate : Bool) (x : Nat) : Nat × Nat :=
  let wide (w : Nat) : Nat := if w = 64 then 64 else 32
  match fkindOf s, fkindOf t with
  | some a, some b => roundVal b mode (unpack a (x % 2 ^ a.width))
  | some a, none =>
    let (w, sg) := intFmt t
    let (lo, hi) := intRange w sg
    let (v, fl) := fToInt mode lo hi (unpack a (x % 2 ^ a.width))
    (truncI v (wide w), fl)
  | none, some b =>
    let (w, sg) := intFmt s
    intToF b mode (intOf w sg x)
  | none, none =>
    let (w, sg) := intFmt s
    let (w', sg') := intFmt t
    let v := intOf w sg x
    let y : Int := if saturate then (if sg' then satS v w' else satU v w') else intOf w' sg' (truncI v w')
    (truncI y (wide w'), 0)

end Sys2Proof.Machine
end

