-- ==== Sys2Proof/Machine/Flags.lean ====
section
/-! DEFINITION. The flag computations: FCSR and its traps (R45, R46). Integer instructions set no flag (R35). -/

namespace Sys2Proof.Machine

/-- The sticky flags of FCSR after an instruction raised `fl` (R45). -/
def fcsrSet (x : Wave) (fl : Nat) : Wave := { x with fcsr := x.fcsr ||| BitVec.ofNat 32 (fl % 32) }

/-- The cause of the lowest-numbered enabled exception among the raised flags (R46). -/
def fcsrCause (x : Wave) (fl : Nat) : Option Nat :=
  ((List.range 5).find? (fun i => fl.testBit i && x.fcsr.getLsbD (8 + i))).map (fun i => 0x010 + i)

/-- The flags that a list of lanes raised, ORed. -/
def orFlags (l : List (Nat × Nat)) : Nat := l.foldl (fun a y => a ||| y.2) 0

/-- An instruction that sets flags ends (R46): the flags are set; with an enabled exception it faults and writes nothing, each
lane with its own lowest enabled cause; otherwise `s'` holds its results. `per` lists the executing lanes with their flags. -/
def endFlags (s : State) (per : List (Nat × Nat)) (s' : Wave → State) : Res :=
  let x := s.wave
  let fl := orFlags per
  let y := fcsrSet x fl
  match fcsrCause x fl with
  | none => .done (s' y)
  | some c =>
    let own := per.filterMap (fun p => (fcsrCause x p.2).map (fun k => (p.1, k)))
    .fault { s with wave := y } c (maskOf ((own.filter (fun p => p.2 == c)).map (·.1))) own 0

end Sys2Proof.Machine
end

