-- ==== Sys2Proof/Machine/Operands.lean ====
section
/-! DEFINITION. Operand forms: what an operand field reads, how a destination is written, and how a register instruction
runs over the lanes (R84, R85, R88, R105, R132 to R136). -/

namespace Sys2Proof.Machine

/-- An operand of a register instruction: its class (R84), its register, whether it is a 64-bit pair, and the value it has
as an immediate. -/
structure Opnd where
  cls : Nat := 3
  idx : Nat := 0
  wide : Bool := false
  imm : Nat := 0
  deriving DecidableEq, Repr

/-- An operand that an instruction lacks. -/
def noOpnd : Opnd := {}

/-- A vector register of a 32-bit form. -/
def vOpnd (f : BitVec 8) : Opnd := ⟨0, f.toNat, false, 0⟩

/-- The operand of a class and field of F64R. -/
def opnd (cls : BitVec 2) (f : BitVec 8) (wide : Bool) (imm : Nat) : Opnd := ⟨cls.toNat, f.toNat, wide, imm⟩

/-- The first vector register beyond the operand. -/
def Opnd.top (o : Opnd) : Nat := if o.cls = 0 then o.idx + (if o.wide then 2 else 1) else 0

def topReg (l : List Opnd) : Nat := l.foldl (fun m o => max m o.top) 0

/-- A vector register, or a pair, of lane `l`. -/
def vRead (x : Wave) (r l : Nat) (wide : Bool) : Nat := if wide then vGet x r l + 2 ^ 32 * vGet x (r + 1) l else vGet x r l
def vWrite (x : Wave) (r l : Nat) (wide : Bool) (v : Nat) : Wave :=
  if wide then vPut (vPut x r l v) (r + 1) l (v / 2 ^ 32) else vPut x r l v

/-- What an operand reads in lane `l`; a scalar reads the same in every lane (R132). -/
def readOpnd (x : Wave) (o : Opnd) (l : Nat) : Nat :=
  match o.cls with
  | 0 => vRead x o.idx l o.wide
  | 1 => if o.wide then sPair64 x o.idx else sGet x o.idx
  | _ => o.imm

/-- Write a destination in the executing lanes; a scalar once, when some lane executes (R88). -/
def writeOpnd (x : Wave) (ex : Lanes) (o : Opnd) (f : Nat → Nat) : Wave :=
  if o.cls = 1 then
    (if ex == 0 then x else if o.wide then sPutPair x o.idx (f 0) else sPut x o.idx (f 0))
  else healRegs ((lanesOf ex).foldl (fun y l => vWrite y o.idx l o.wide (f l)) x) ex o.idx (if o.wide then 2 else 1)

/-- Write a predicate register in the executing lanes; the others keep theirs (R146). -/
def writePred (x : Wave) (ex : Lanes) (d : Nat) (f : Nat → Bool) : Wave :=
  pPut x d ((pGet x d &&& ~~~ex) ||| maskOf ((lanesOf ex).filter f))

/-! ### Immediates (R106, R134) -/

/-- An 8-bit immediate of an integer instruction, extended to `n` bits by U. -/
def immInt (uns : Bool) (n : Nat) (f : BitVec 8) : Nat := if uns then f.toNat else truncI (sext f.toNat 8) n

/-- The same number in each of `e` elements of `n` bits. -/
def replicate (n e x : Nat) : Nat := (List.range e).foldl (fun a i => a + x % 2 ^ n * 2 ^ (n * i)) 0

/-- Element width and count of a W field (R106). -/
def elemWidth (w : Nat) : Nat := match w with | 0 => 32 | 1 => 64 | 2 => 16 | _ => 8
def elemCount (w : Nat) : Nat := match w with | 2 => 2 | 3 => 4 | _ => 1

/-- LIT32 of an integer instruction, extended to 64 bits by U when W = 01. -/
def litInt (uns : Bool) (w : Nat) (lit : Word) : Nat := if w = 1 && !uns then truncI (sext lit.toNat 32) 64 else lit.toNat

/-- An 8-bit immediate of a floating instruction: −128 to 127 in the format (R134). -/
def immFlt (k : FKind) (f : BitVec 8) : Nat := (intToF k .rne (sext f.toNat 8)).1

/-- IMM9 extended as R103 gives. -/
def imm9 (signed : Bool) (f : BitVec 9) : Nat := if signed then truncI (sext f.toNat 9) 32 else f.toNat

/-! ### Running over the lanes -/

/-- A register instruction without flags: `f` gets the old value of D and the values of A, B and C, and gives D. -/
def runAlu (i : Instr) (g : BitVec 5) (s : State) (d a b c : Opnd) (f : Nat → Nat → Nat → Nat → Nat) : Out :=
  runInstr i g none (topReg [d, a, b, c]) s fun _ ex =>
    let x := s.wave
    .done { s with wave := writeOpnd x ex d (fun l => f (readOpnd x d l) (readOpnd x a l) (readOpnd x b l) (readOpnd x c l)) }

/-- A register instruction that sets flags: `f` gives the value of D and the flags. -/
def runFlt (i : Instr) (g : BitVec 5) (s : State) (d a b c : Opnd) (f : Nat → Nat → Nat → Nat → Nat × Nat) : Out :=
  runInstr i g none (topReg [d, a, b, c]) s fun _ ex =>
    let x := s.wave
    let r (l : Nat) : Nat × Nat := f (readOpnd x d l) (readOpnd x a l) (readOpnd x b l) (readOpnd x c l)
    endFlags s ((lanesOf ex).map (fun l => (l, (r l).2))) (fun y =>
      { s with wave := writeOpnd y ex d (fun l => (r l).1) })

/-- A comparison into a predicate register, with flags. -/
def runCmp (i : Instr) (g : BitVec 5) (s : State) (d : Nat) (a b : Opnd) (f : Nat → Nat → Bool × Nat) : Out :=
  runInstr i g none (topReg [a, b]) s fun _ ex =>
    let x := s.wave
    let r (l : Nat) : Bool × Nat := f (readOpnd x a l) (readOpnd x b l)
    endFlags s ((lanesOf ex).map (fun l => (l, (r l).2))) (fun y => { s with wave := writePred y ex d (fun l => (r l).1) })

end Sys2Proof.Machine
end

