-- ==== Sys2Proof/Machine/Integer.lean ====
section
/-! DEFINITION. Moves and selection (R144, R145), integer comparison (R146), integer and logic instructions (R139 to
R143). -/

namespace Sys2Proof.Machine

/-! ### Elementwise integer operations (R139) -/

/-- Element `i` of width `n`. -/
def elemOf (x n i : Nat) : Nat := x / 2 ^ (n * i) % 2 ^ n

/-- `ext` of R139: an element as a signed or unsigned integer. -/
def extElem (uns : Bool) (n x : Nat) : Int := if uns then ((x % 2 ^ n : Nat) : Int) else sext x n

/-- The loop body of R139 over the elements of W: exact operation, then saturation or truncation. -/
def elemwise (w : Nat) (uns satur : Bool) (op : Int → Int → Int → Int) (a b c : Nat) : Nat :=
  let n := elemWidth w
  (List.range (elemCount w)).foldl (fun r i =>
    let x := op (extElem uns n (elemOf a n i)) (extElem uns n (elemOf b n i)) (extElem uns n (elemOf c n i))
    let y := if satur then (if uns then satU x n else satS x n) else x
    r + truncI y n * 2 ^ (n * i)) 0

/-- The same over the bit patterns of the elements. -/
def elembits (w : Nat) (op : Nat → Nat → Nat → Nat) (a b : Nat) : Nat :=
  let n := elemWidth w
  (List.range (elemCount w)).foldl (fun r i => r + op n (elemOf a n i) (elemOf b n i) % 2 ^ n * 2 ^ (n * i)) 0

/-- FN fields of the integer cells (R106). -/
def fSat (f : F64R) : Bool := fnBits f.fn 5 5 == 1
def fUns (f : F64R) : Bool := fnBits f.fn 4 4 == 1
def fW (f : F64R) : Nat := fnBits f.fn 3 2
def fWide (f : F64R) : Bool := fW f == 1

/-- An immediate operand field of an integer instruction, in every element of W. -/
def immR (f : F64R) (x : BitVec 8) : Nat := replicate (elemWidth (fW f)) (elemCount (fW f)) (immInt (fUns f) (elemWidth (fW f)) x)

/-- The operands of an integer F64R, pairs when W = 01. -/
def intD (f : F64R) : Opnd := opnd f.cd f.d (fWide f) 0
def intA (f : F64R) : Opnd := opnd f.ca f.a (fWide f) 0
def intB (f : F64R) : Opnd := opnd f.cb f.b (fWide f) (immR f f.b)
def intC (f : F64R) : Opnd := opnd f.cc f.c (fWide f) (immR f f.c)

/-- LIT32 in place of B. -/
def litOpnd (f : F96R) : Opnd := { cls := 3, imm := litInt (fUns f.r) (fW f.r) f.lit }

/-- A three-operand integer instruction over Int, 64-bit map. -/
def intR (mk : F64R → Instr) (op : Int → Int → Int → Int) (f : F64R) (s : State) : Out :=
  runAlu (mk f) f.g s (intD f) (intA f) (intB f) (intC f) (fun _ a b c => elemwise (fW f) (fUns f) (fSat f) op a b c)

/-- The same with LIT32 in place of B, 96-bit map. -/
def intL (mk : F96R → Instr) (op : Int → Int → Int → Int) (f : F96R) (s : State) : Out :=
  runAlu (mk f) f.r.g s (intD f.r) (intA f.r) (litOpnd f) (intC f.r)
    (fun _ a b c => elemwise (fW f.r) (fUns f.r) (fSat f.r) op a b c)

/-- An instruction over bit patterns, 64-bit map. -/
def bitsR (mk : F64R → Instr) (op : Nat → Nat → Nat → Nat) (f : F64R) (s : State) : Out :=
  runAlu (mk f) f.g s (intD f) (intA f) (intB f) noOpnd (fun _ a b _ => elembits (fW f) op a b)

def bitsL (mk : F96R → Instr) (op : Nat → Nat → Nat → Nat) (f : F96R) (s : State) : Out :=
  runAlu (mk f) f.r.g s (intD f.r) (intA f.r) (litOpnd f) noOpnd (fun _ a b _ => elembits (fW f.r) op a b)

/-- 32-bit two-address forms (R136): D op A, D op immediate, and op(A). -/
def bin32 (mk : F32A → Instr) (op : Nat → Nat → Nat) (f : F32A) (s : State) : Out :=
  runAlu (mk f) f.g s (vOpnd f.d) (vOpnd f.a) noOpnd noOpnd (fun d a _ _ => op d a)

def imm32 (mk : F32I → Instr) (signed : Bool) (op : Nat → Nat → Nat) (f : F32I) (s : State) : Out :=
  runAlu (mk f) f.g s (vOpnd f.d) { cls := 3, imm := imm9 signed f.imm } noOpnd noOpnd (fun d a _ _ => op d a)

def un32 (mk : F32A → Instr) (op : Nat → Nat) (f : F32A) (s : State) : Out :=
  runAlu (mk f) f.g s (vOpnd f.d) (vOpnd f.a) noOpnd noOpnd (fun _ a _ _ => op a)

/-! ### The operations -/

def iAdd (a b _c : Int) : Int := a + b
def iSub (a b _c : Int) : Int := a - b
def iMul (a b _c : Int) : Int := a * b
def iMad (a b c : Int) : Int := a * b + c
def iAbs (a _b _c : Int) : Int := if a < 0 then -a else a
def iMin (a b _c : Int) : Int := if a ≤ b then a else b
def iMax (a b _c : Int) : Int := if a ≤ b then b else a

/-- ⌊a × b / 2ⁿ⌋. -/
def iMulh (n : Nat) (a b _c : Int) : Int := a * b / ((2 ^ n : Nat) : Int)

def bAnd (_n a b : Nat) : Nat := a &&& b
def bOr (_n a b : Nat) : Nat := a ||| b
def bXor (_n a b : Nat) : Nat := a ^^^ b
def bNot (n a _b : Nat) : Nat := 2 ^ n - 1 - a % 2 ^ n
def bPopc (n a _b : Nat) : Nat := popCount a n
def bClz (n a _b : Nat) : Nat := n - bitLen (a % 2 ^ n)
def bBrev (n a _b : Nat) : Nat := (List.range n).foldl (fun r j => if a.testBit (n - 1 - j) then r + 2 ^ j else r) 0

/-- Shifts by an amount modulo the width (R141). -/
def bShl (n a b : Nat) : Nat := a * 2 ^ (b % n)
def bShr (n a b : Nat) : Nat := a % 2 ^ n / 2 ^ (b % n)
def bSar (n a b : Nat) : Nat := truncI (sext a n / ((2 ^ (b % n) : Nat) : Int)) n
def bRot (n a b : Nat) : Nat := a * 2 ^ (b % n) + a % 2 ^ n / 2 ^ (n - b % n)

/-- The 32-bit form of an operation over Int, signed unless `uns`. -/
def i32 (op : Int → Int → Int → Int) (uns : Bool) (a b : Nat) : Nat := elemwise 0 uns false op a b 0
def b32 (op : Nat → Nat → Nat → Nat) (a b : Nat) : Nat := elembits 0 op a b

/-- The operand B of a 64-bit shift is a single register at W = 00 or 01 (R135). -/
def shiftB (f : F64R) : Opnd := opnd f.cb f.b false (immR f f.b)

def shiftR (mk : F64R → Instr) (op : Nat → Nat → Nat → Nat) (f : F64R) (s : State) : Out :=
  runAlu (mk f) f.g s (intD f) (intA f) (shiftB f) noOpnd (fun _ a b _ => elembits (fW f) op a b)

/-! ### IADD to BREV (R139) -/

def execIadd32 (f : F32A) (s : State) : Out := bin32 .iadd32 (i32 iAdd false) f s
def execIadd32i (f : F32I) (s : State) : Out := imm32 .iadd32i true (i32 iAdd false) f s
def execIadd64 (f : F64R) (s : State) : Out := intR .iadd64 iAdd f s
def execIadd96 (f : F96R) (s : State) : Out := intL .iadd96 iAdd f s
def execIsub32 (f : F32A) (s : State) : Out := bin32 .isub32 (i32 iSub false) f s
def execIsub64 (f : F64R) (s : State) : Out := intR .isub64 iSub f s
def execImul32 (f : F32A) (s : State) : Out := bin32 .imul32 (i32 iMul false) f s
def execImul32i (f : F32I) (s : State) : Out := imm32 .imul32i true (i32 iMul false) f s
def execImul64 (f : F64R) (s : State) : Out := intR .imul64 iMul f s
def execImul96 (f : F96R) (s : State) : Out := intL .imul96 iMul f s
def execImad64 (f : F64R) (s : State) : Out := intR .imad64 iMad f s
def execImad96 (f : F96R) (s : State) : Out := intL .imad96 iMad f s
def execImulh64 (f : F64R) (s : State) : Out := intR .imulh64 (iMulh (elemWidth (fW f))) f s
def execIabs32 (f : F32A) (s : State) : Out := un32 .iabs32 (fun a => i32 iAbs false a 0) f s
def execIabs64 (f : F64R) (s : State) : Out := intR .iabs64 iAbs f s
def execImin32 (f : F32A) (s : State) : Out := bin32 .imin32 (i32 iMin f.x) f s
def execImin64 (f : F64R) (s : State) : Out := intR .imin64 iMin f s
def execImax32 (f : F32A) (s : State) : Out := bin32 .imax32 (i32 iMax f.x) f s
def execImax64 (f : F64R) (s : State) : Out := intR .imax64 iMax f s
def execPopc32 (f : F32A) (s : State) : Out := un32 .popc32 (fun a => b32 bPopc a 0) f s
def execPopc64 (f : F64R) (s : State) : Out := bitsR .popc64 bPopc f s
def execClz32 (f : F32A) (s : State) : Out := un32 .clz32 (fun a => b32 bClz a 0) f s
def execClz64 (f : F64R) (s : State) : Out := bitsR .clz64 bClz f s
def execAnd32 (f : F32A) (s : State) : Out := bin32 .and32 (b32 bAnd) f s
def execAnd32i (f : F32I) (s : State) : Out := imm32 .and32i false (b32 bAnd) f s
def execAnd64 (f : F64R) (s : State) : Out := bitsR .and64 bAnd f s
def execAnd96 (f : F96R) (s : State) : Out := bitsL .and96 bAnd f s
def execOr32 (f : F32A) (s : State) : Out := bin32 .or32 (b32 bOr) f s
def execOr32i (f : F32I) (s : State) : Out := imm32 .or32i false (b32 bOr) f s
def execOr64 (f : F64R) (s : State) : Out := bitsR .or64 bOr f s
def execOr96 (f : F96R) (s : State) : Out := bitsL .or96 bOr f s
def execXor32 (f : F32A) (s : State) : Out := bin32 .xor32 (b32 bXor) f s
def execXor32i (f : F32I) (s : State) : Out := imm32 .xor32i false (b32 bXor) f s
def execXor64 (f : F64R) (s : State) : Out := bitsR .xor64 bXor f s
def execXor96 (f : F96R) (s : State) : Out := bitsL .xor96 bXor f s
def execNot32 (f : F32A) (s : State) : Out := un32 .not32 (fun a => b32 bNot a 0) f s
def execNot64 (f : F64R) (s : State) : Out := bitsR .not64 bNot f s
def execBrev32 (f : F32A) (s : State) : Out := un32 .brev32 (fun a => b32 bBrev a 0) f s
def execBrev64 (f : F64R) (s : State) : Out := bitsR .brev64 bBrev f s

/-! ### Shifts (R141) -/

def execShl32 (f : F32A) (s : State) : Out := bin32 .shl32 (b32 bShl) f s
def execShl32i (f : F32I) (s : State) : Out := imm32 .shl32i false (b32 bShl) f s
def execShl64 (f : F64R) (s : State) : Out := shiftR .shl64 bShl f s
def execShr32 (f : F32A) (s : State) : Out := bin32 .shr32 (b32 bShr) f s
def execShr32i (f : F32I) (s : State) : Out := imm32 .shr32i false (b32 bShr) f s
def execShr64 (f : F64R) (s : State) : Out := shiftR .shr64 bShr f s
def execSar32 (f : F32A) (s : State) : Out := bin32 .sar32 (b32 bSar) f s
def execSar32i (f : F32I) (s : State) : Out := imm32 .sar32i false (b32 bSar) f s
def execSar64 (f : F64R) (s : State) : Out := shiftR .sar64 bSar f s
def execRot32 (f : F32A) (s : State) : Out := bin32 .rot32 (b32 bRot) f s
def execRot32i (f : F32I) (s : State) : Out := imm32 .rot32i false (b32 bRot) f s
def execRot64 (f : F64R) (s : State) : Out := shiftR .rot64 bRot f s

/-! ### IDIV and IREM (R140) -/

/-- Quotient and remainder of R140 over `n` bits. -/
def divRem (n : Nat) (a b : Int) : Int × Int :=
  if b = 0 then (((2 ^ n - 1 : Nat) : Int), a) else (a.tdiv b, a - a.tdiv b * b)

/-- `IDIV` or `IREM`: with TRAP, a zero divisor in an executing lane faults with 0x015. -/
def idivR (mk : F64R → Instr) (wantRem : Bool) (f : F64R) (s : State) : Out :=
  let n := elemWidth (fW f)
  let d := intD f
  let a := intA f
  let b := intB f
  runInstr (mk f) f.g none (topReg [d, a, b]) s fun _ ex =>
    let x := s.wave
    let ext (v : Nat) : Int := extElem (fUns f) n v
    let zero := (lanesOf ex).filter (fun l => readOpnd x b l % 2 ^ n = 0)
    if fnBits f.fn 0 0 = 1 && !zero.isEmpty then .fault s 0x015 (maskOf zero) [] 0
    else .done { s with wave := writeOpnd x ex d (fun l =>
      let q := divRem n (ext (readOpnd x a l)) (ext (readOpnd x b l))
      truncI (if wantRem then q.2 else q.1) n) }

def execIdiv64 (f : F64R) (s : State) : Out := idivR .idiv64 false f s
def execIrem64 (f : F64R) (s : State) : Out := idivR .irem64 true f s

/-! ### Fields (R142) and LEA (R143) -/

/-- Position and length of a field, or none where it is empty. -/
def fieldSpan (n b c : Nat) : Option (Nat × Nat) :=
  let pos := b % 256
  let len := c % 256
  if len = 0 || pos ≥ n then none else some (pos, min len (n - pos))

def bfe (n : Nat) (uns : Bool) (a b c : Nat) : Nat :=
  match fieldSpan n b c with
  | none => 0
  | some (pos, len) =>
    let x := a / 2 ^ pos % 2 ^ len
    if uns then x else truncI (sext x len) n

def bfi (n : Nat) (d a b c : Nat) : Nat :=
  match fieldSpan n b c with
  | none => d
  | some (pos, len) => d - d / 2 ^ pos % 2 ^ len * 2 ^ pos + a % 2 ^ len * 2 ^ pos

/-- B and C of BFE and BFI are single registers (R135). -/
def fieldOp (mk : F64R → Instr) (op : Nat → Nat → Nat → Nat → Nat) (f : F64R) (s : State) : Out :=
  runAlu (mk f) f.g s (intD f) (intA f) (opnd f.cb f.b false (immInt (fUns f) 32 f.b))
    (opnd f.cc f.c false (immInt (fUns f) 32 f.c)) op

def execBfe64 (f : F64R) (s : State) : Out := fieldOp .bfe64 (fun _ a b c => bfe (elemWidth (fW f)) (fUns f) a b c) f s
def execBfi64 (f : F64R) (s : State) : Out := fieldOp .bfi64 (fun d a b c => bfi (elemWidth (fW f)) d a b c) f s

/-- The scale of LEA. -/
def leaShift (f : F64R) : Nat := match fnBits f.fn 1 0 with | 0 => 0 | 1 => 2 | 2 => 3 | _ => 4

def lea (n : Nat) (uns : Bool) (sh a b : Nat) : Nat :=
  truncI ((a : Int) + extElem uns 32 b * ((2 ^ sh : Nat) : Int)) n

def execLea64 (f : F64R) (s : State) : Out :=
  runAlu (.lea64 f) f.g s (intD f) (intA f) (opnd f.cb f.b false (immInt (fUns f) 32 f.b)) noOpnd
    (fun _ a b _ => lea (elemWidth (fW f)) (fUns f) (leaShift f) a b)
def execLea96 (f : F96R) (s : State) : Out :=
  runAlu (.lea96 f) f.r.g s (intD f.r) (intA f.r) { cls := 3, imm := f.lit.toNat } noOpnd
    (fun _ a b _ => lea (elemWidth (fW f.r)) (fUns f.r) (leaShift f.r) a b)

/-! ### Comparison (R146) -/

/-- The comparison of R107 over two integers. -/
def icmp (cmp : Nat) (a b : Int) : Bool :=
  match cmp with
  | 0 => a = b | 1 => a ≠ b | 2 => a < b | 3 => a ≤ b | 4 => a > b | _ => a ≥ b

/-- ISETP over operands of 32 or 64 bits. -/
def isetp (i : Instr) (f : F64R) (b : Opnd) (s : State) : Out :=
  let wide := fnBits f.fn 3 3 == 1
  let uns := fnBits f.fn 4 4 == 1
  let n := if wide then 64 else 32
  runCmp i f.g s (f.d.toNat % 32) (opnd f.ca f.a wide 0) b
    (fun a b => (icmp (fnBits f.fn 2 0) (extElem uns n a) (extElem uns n b), 0))

def execIsetp64 (f : F64R) (s : State) : Out :=
  let wide := fnBits f.fn 3 3 == 1
  isetp (.isetp64 f) f (opnd f.cb f.b wide (immInt (fnBits f.fn 4 4 == 1) (if wide then 64 else 32) f.b)) s
def execIsetp96 (f : F96R) (s : State) : Out :=
  isetp (.isetp96 f) f.r { cls := 3, imm := litInt (fnBits f.r.fn 4 4 == 1) (fnBits f.r.fn 3 3) f.lit } s

/-! ### Moves and selection (R144, R145) -/

def execMov32 (f : F32A) (s : State) : Out := un32 .mov32 id f s
def execMovi32 (f : F32I) (s : State) : Out := imm32 .movi32 true (fun _ a => a) f s
def execMovi96 (f : F96R) (s : State) : Out :=
  runAlu (.movi96 f) f.r.g s (intD f.r) (litOpnd f) noOpnd noOpnd (fun _ a _ _ => a)

/-- SEL: A where the predicate holds, B elsewhere. -/
def selR (i : Instr) (f : F64R) (b : Opnd) (s : State) : Out :=
  let d := intD f
  let a := intA f
  runInstr i f.g none (topReg [d, a, b]) s fun _ ex =>
    let x := s.wave
    let m := pGet x (f.c.toNat % 32)
    .done { s with wave := writeOpnd x ex d (fun l => if m.getLsbD l then readOpnd x a l else readOpnd x b l) }

def execSel64 (f : F64R) (s : State) : Out :=
  selR (.sel64 f) f (opnd f.cb f.b (fWide f) (immInt false (if fWide f then 64 else 32) f.b)) s
def execSel96 (f : F96R) (s : State) : Out := selR (.sel96 f) f.r (litOpnd f) s

/-- A lane mask is written: the wave's waits on masks are evaluated (R173). -/
def writeMask (s : State) (k : Nat) (m : Lanes) : State := { s with wave := evalMasks (kPut s.wave k m) }

/-- MOV, 64-bit form: the source operand, and the effect by class of destination (R144). -/
def execMov64 (f : F64R) (s : State) : Out :=
  let wide := fWide f
  let scls := if f.cb == 3 then f.cb else f.ca
  let sfld := if f.cb == 3 then f.b else f.a
  let src := opnd scls sfld wide (immInt false (if wide then 64 else 32) sfld)
  let d := opnd f.cd f.d wide 0
  let dk := opKind f.cd f.d
  let sk := opKind scls sfld
  let pre := if dk = some .k && f.d.toNat % 32 = 0 then some 0x002 else none
  runInstr (.mov64 f) f.g pre (topReg [d, src]) s fun _ ex =>
    let x := s.wave
    let pbit (l : Nat) : Bool := (pGet x (sfld.toNat % 32)).getLsbD l
    match dk with
    | some .v =>
      .done { s with wave := writeOpnd x ex d (fun l => if sk = some .p then (if pbit l then 1 else 0) else readOpnd x src l) }
    | some .p =>
      .done { s with wave := writePred x ex (f.d.toNat % 32) (fun l => if sk = some .p then pbit l else readOpnd x src l ≠ 0) }
    | some .k =>
      let v : Lanes := if sk = some .k then kGet x (sfld.toNat % 32)
        else if scls == 3 then BitVec.ofNat 32 sfld.toNat else BitVec.ofNat 32 (readOpnd x src 0)
      .done (if ex == 0 then s else writeMask s (f.d.toNat % 32) v)
    | _ =>
      .done { s with wave := writeOpnd x ex d (fun l => if sk = some .k then (kGet x (sfld.toNat % 32)).toNat else readOpnd x src l) }

end Sys2Proof.Machine
end

