-- ==== Sys2Proof/Machine/Control.lean ====
section
/-! DEFINITION. Control flow, lane masks, partitions, cross-lane operations and traps raised by program (R163 to R183). -/

namespace Sys2Proof.Machine

/-! ### Transfers of control (R165 to R169) -/

/-- An address `d` bytes away, as a PC of 57 bits. -/
def addPc (pc : DWord) (d : Int) : DWord := sextPc (truncI ((pc.toNat : Int) + d) 64)

/-- Lanes branch to a target. -/
def branchTo (s : State) (ex : Lanes) (t : DWord) : State := { s with wave := branchLanes s.wave ex t }

/-- BRA to a distance from the instruction. -/
def braBy (i : Instr) (g : BitVec 5) (d : Int) (s : State) : Out :=
  runInstr i g none 0 s fun p ex => .done (branchTo s ex (addPc p.pc d))

/-- CALL: the fall-through header is pushed; a full stack in an executing lane is 0x018. -/
def callBy (i : Instr) (g : BitVec 5) (d : Int) (s : State) : Out :=
  runInstr i g none 0 s fun p ex =>
    let full := (lanesOf ex).filter (fun l => (getLane s.wave l).stack.length ≥ 16)
    if !full.isEmpty then .fault s 0x018 (maskOf full) [] 0
    else
      let x := modLanes s.wave ex (fun y => { y with stack := p.fall :: y.stack })
      .done (branchTo { s with wave := x } ex (addPc p.pc d))

def execBra32 (f : F32J) (s : State) : Out := braBy (.bra32 f) f.g (sext f.off.toNat 17 * 8) s
def execBra96 (f : F96R) (s : State) : Out := braBy (.bra96 f) f.r.g (sext f.lit.toNat 32) s
def execCall32 (f : F32J) (s : State) : Out := callBy (.call32 f) f.g (sext f.off.toNat 17 * 8) s
def execCall96 (f : F96R) (s : State) : Out := callBy (.call96 f) f.r.g (sext f.lit.toNat 32) s

/-- Each executing lane goes to a target of its own. -/
def branchEach (x : Wave) (ex : Lanes) (t : Nat → DWord) : Wave :=
  leavePath ((lanesOf ex).foldl (fun y l => modLane y l (atHeader (t l))) x) ex

def execBrx64 (f : F64R) (s : State) : Out :=
  let a := opnd f.ca f.a true 0
  let d := opnd f.cd f.d true 0
  let link := f.fn == 1
  runInstr (.brx64 f) f.g none (topReg (if link then [a, d] else [a])) s fun p ex =>
    let x := s.wave
    let y := if link then writeOpnd x ex d (fun _ => p.fall.toNat) else x
    .done { s with wave := branchEach y ex (fun l => sextPc (readOpnd x a l)) }

def execRet32 (f : F32Z) (s : State) : Out :=
  runInstr (.ret32 f) f.g none 0 s fun _ ex =>
    let x := s.wave
    let empty := (lanesOf ex).filter (fun l => (getLane x l).stack.isEmpty)
    if !empty.isEmpty then .fault s 0x019 (maskOf empty) [] 0
    else
      let y := modLanes x ex (fun z => { z with stack := z.stack.tail })
      .done { s with wave := branchEach y ex (fun l => (getLane x l).stack.headD 0) }

def execExit32 (f : F32Z) (s : State) : Out :=
  runInstr (.exit32 f) f.g none 0 s fun _ ex => .done (if ex == 0 then s else endLanes s s.cur ex)

def execNop32 (f : F32Z) (s : State) : Out := runInstr (.nop32 f) f.g none 0 s fun _ _ => .done s

/-! ### Traps raised by program (R182, R183) -/

def execTrap32 (f : F32Z) (s : State) : Out :=
  runWide (.trap32 f) f.g none s fun _ ex => .trap s (0x080 + f.fn.toNat % 128) ex

def execBkpt32 (f : F32Z) (s : State) : Out := runWide (.bkpt32 f) f.g none s fun _ ex => .fault s 0x3E0 ex [] 0

/-! ### Predicate logic (R170) -/

/-- A predicate register is written in the executing lanes with bits of a mask. -/
def predWrite (s : State) (ex : Lanes) (d : Nat) (m : Lanes) : State :=
  { s with wave := pPut s.wave d ((pGet s.wave d &&& ~~~ex) ||| (m &&& ex)) }

def pred32 (mk : F32A → Instr) (op : Lanes → Lanes → Lanes) (f : F32A) (s : State) : Out :=
  runInstr (mk f) f.g none 0 s fun _ ex =>
    .done (predWrite s ex f.d.toNat (op (pGet s.wave f.d.toNat) (pGet s.wave f.a.toNat)))

/-- The 64-bit forms: A and B, each inverted by NA and NB; an immediate B is true when it is not zero. -/
def pred64 (mk : F64R → Instr) (op : Lanes → Lanes → Lanes) (f : F64R) (s : State) : Out :=
  runInstr (mk f) f.g none 0 s fun _ ex =>
    let a := pGet s.wave (f.a.toNat % 32)
    let b : Lanes := if f.cb == 3 then (if f.b == 0 then 0 else BitVec.allOnes 32) else pGet s.wave (f.b.toNat % 32)
    let a := if f.fn.getLsbD 1 then ~~~a else a
    let b := if f.fn.getLsbD 0 then ~~~b else b
    .done (predWrite s ex (f.d.toNat % 32) (op a b))

def execPand32 (f : F32A) (s : State) : Out := pred32 .pand32 (fun d a => d &&& a) f s
def execPand64 (f : F64R) (s : State) : Out := pred64 .pand64 (fun a b => a &&& b) f s
def execPor32 (f : F32A) (s : State) : Out := pred32 .por32 (fun d a => d ||| a) f s
def execPor64 (f : F64R) (s : State) : Out := pred64 .por64 (fun a b => a ||| b) f s
def execPxor32 (f : F32A) (s : State) : Out := pred32 .pxor32 (fun d a => d ^^^ a) f s
def execPxor64 (f : F64R) (s : State) : Out := pred64 .pxor64 (fun a b => a ^^^ b) f s
def execPnot32 (f : F32A) (s : State) : Out := pred32 .pnot32 (fun _ a => ~~~a) f s
def execPnot64 (f : F64R) (s : State) : Out := pred64 .pnot64 (fun a _ => ~~~a) f s

/-! ### Lane-mask sets (R171, R172) -/

/-- A destination `k0` is 0x002 (R24). -/
def k0Cause (k : Nat) : Option Nat := if k = 0 then some 0x002 else none

/-- B of JOIN and LEAVE: a mask, a scalar, or a zero-extended immediate. -/
def maskB (x : Wave) (f : F64R) : Lanes :=
  match opKind f.cb f.b with
  | some .k => kGet x (f.b.toNat % 32)
  | some .s => smGet x.s 0 f.b.toNat
  | _ => BitVec.ofNat 32 f.b.toNat

def execJoin32 (f : F32A) (s : State) : Out :=
  runWide (.join32 f) f.g (k0Cause f.d.toNat) s fun _ ex => .done (writeMask s f.d.toNat (kGet s.wave f.d.toNat ||| ex))

def execJoin64 (f : F64R) (s : State) : Out :=
  let k := f.d.toNat % 32
  runWide (.join64 f) f.g (k0Cause k) s fun _ ex =>
    .done (writeMask s k (kGet s.wave k ||| (if f.fn == 1 then maskB s.wave f &&& live s.wave else ex)))

def execLeave32 (f : F32A) (s : State) : Out :=
  runWide (.leave32 f) f.g (k0Cause f.d.toNat) s fun _ ex => .done (writeMask s f.d.toNat (kGet s.wave f.d.toNat &&& ~~~ex))

def execLeave64 (f : F64R) (s : State) : Out :=
  let k := f.d.toNat % 32
  runWide (.leave64 f) f.g (k0Cause k) s fun _ ex =>
    .done (writeMask s k (kGet s.wave k &&& ~~~(if f.fn == 1 then maskB s.wave f else ex)))

/-- WAITM: the executing lanes clear their bits, park with the fall-through header as PC and leave the path; then the masks
are evaluated. In a handler it is 0x002 (R415). -/
def waitm (i : Instr) (g : BitVec 5) (k : Nat) (tile : Bool) (s : State) : Out :=
  runInstr i g (if inTrap s.wave then some 0x002 else k0Cause k) 0 s fun p ex =>
    if ex == 0 then .done s else
    let x := kPut s.wave k (kGet s.wave k &&& ~~~ex)
    let x := modLanes x ex (fun y => { atHeader p.fall y with park := k, tile := tile })
    .park { s with wave := evalMasks (leavePath x ex) }

def execWaitm32 (f : F32A) (s : State) : Out := waitm (.waitm32 f) f.g f.d.toNat f.x s
def execWaitm64 (f : F64R) (s : State) : Out := waitm (.waitm64 f) f.g (f.d.toNat % 32) (f.fn == 4) s

/-! ### Partitions and lane numbers (R175, R176) -/

/-- The LANEPART code of a tile width, none for a width that is not allowed (R124). -/
def partCode (w : Nat) : Option Nat :=
  match w with | 32 => some 0 | 16 => some 1 | 8 => some 2 | 4 => some 3 | 2 => some 4 | _ => none

def setPart (i : Instr) (g : BitVec 5) (w : Nat) (s : State) : Out :=
  runWide i g (if (partCode w).isNone then some 0x002 else none) s fun _ _ =>
    .done { s with wave := evalMasks { s.wave with wsw := setBits s.wave.wsw 14 12 ((partCode w).getD 0) } }

def execPart32 (f : F32I) (s : State) : Out := setPart (.part32 f) f.g f.imm.toNat s
def execPart64 (f : F64R) (s : State) : Out :=
  setPart (.part64 f) f.g (if f.cb == 3 then f.b.toNat else sGet s.wave f.b.toNat) s

def execLaneid32 (f : F32A) (s : State) : Out :=
  runInstr (.laneid32 f) f.g none (f.d.toNat + 1) s fun _ ex =>
    let x := s.wave
    .done { s with wave := writeOpnd x ex (vOpnd f.d) (fun l => if f.x then l % tileWidth x else l) }

/-! ### Cross-lane operations (R177 to R181) -/

/-- The contributing lanes of the tile of lane `l`, ascending. -/
def tileMates (x : Wave) (ex : Lanes) (l : Nat) : List Nat := lanesOf (ex &&& tileMask l (tileWidth x))

def execVote64 (f : F64R) (s : State) : Out :=
  let mode := fnBits f.fn 1 0
  let k := f.d.toNat % 32
  let dk := opKind f.cd f.d
  let isV := f.ca == 0
  let a := opnd f.ca f.a false 0
  let d := opnd f.cd f.d false 0
  runInstr (.vote64 f) f.g (if dk = some .k then k0Cause k else none) (topReg [a, d]) s fun _ ex =>
    let x := s.wave
    let truth (l : Nat) : Bool := if isV then vGet x f.a.toNat l ≠ 0 else (pGet x (f.a.toNat % 32)).getLsbD l
    let ballot := maskOf ((lanesOf ex).filter truth)
    match mode with
    | 0 => .done { s with wave := writePred x ex k (fun l => (tileMates x ex l).any truth) }
    | 1 => .done { s with wave := writePred x ex k (fun l => (tileMates x ex l).all truth) }
    | 2 => .done { s with wave := writePred x ex k (fun l => (tileMates x ex l).all (fun m => vGet x f.a.toNat m = vGet x f.a.toNat l)) }
    | _ =>
      if dk = some .k then .done (if ex == 0 then s else writeMask s k ballot)
      else .done { s with wave := writeOpnd x ex d (fun l =>
        (if f.cd == 0 then ballot &&& tileMask l (tileWidth x) else ballot).toNat) }

/-- The source lane of SHFL within the tile, none outside it. -/
def shflFrom (mode w l n : Nat) : Option Nat :=
  let r : Int := match mode with
    | 0 => ((n % w : Nat) : Int)
    | 1 => (l : Int) - (n : Int)
    | 2 => (l : Int) + (n : Int)
    | _ => ((l ^^^ (n % w) : Nat) : Int)
  if 0 ≤ r && r < (w : Int) then some r.toNat else none

def execShfl64 (f : F64R) (s : State) : Out :=
  let wide := f.fn.getLsbD 3
  let a := opnd f.ca f.a wide 0
  let d := opnd f.cd f.d wide 0
  let b := opnd f.cb f.b false f.b.toNat
  runInstr (.shfl64 f) f.g none (topReg [a, b, d]) s fun _ ex =>
    let x := s.wave
    let w := tileWidth x
    let pick (i : Nat) : Nat :=
      match shflFrom (fnBits f.fn 1 0) w (i % w) (readOpnd x b i) with
      | some r => if ex.getLsbD (i / w * w + r) then i / w * w + r else i
      | none => i
    .done { s with wave := writeOpnd x ex d (fun l => readOpnd x a (pick l)) }

def execPush64 (f : F64R) (s : State) : Out :=
  let wide := f.fn.getLsbD 3
  let a := opnd f.ca f.a wide 0
  let d := opnd f.cd f.d wide 0
  let b := opnd f.cb f.b false f.b.toNat
  runInstr (.push64 f) f.g none (topReg [a, b, d]) s fun _ ex =>
    let x := s.wave
    let w := tileWidth x
    let dest (i : Nat) : Nat := i / w * w + readOpnd x b i % w
    .done { s with wave := writeOpnd x ex d (fun j =>
      match (lanesOf ex).reverse.find? (fun i => dest i = j) with
      | some i => readOpnd x a i
      | none => readOpnd x d j) }

/-- Combine two nodes of a tree (R64): an absent one passes the other through. A node is a value and the flags below it. -/
def joinNodes (op : Nat → Nat → Nat × Nat) (a b : Option (Nat × Nat)) : Option (Nat × Nat) :=
  match a, b with
  | some (u, fu), some (v, fv) => let r := op u v; some (r.1, fu ||| fv ||| r.2)
  | some u, none => some u
  | none, v => v

/-- The node over `2^lv` lanes from lane `b`. -/
def treeNode (op : Nat → Nat → Nat × Nat) (leaf : Nat → Option Nat) (lv b : Nat) : Option (Nat × Nat) :=
  match lv with
  | 0 => (leaf b).map (fun v => (v, 0))
  | lv + 1 => joinNodes op (treeNode op leaf lv b) (treeNode op leaf lv (b + 2 ^ lv))

/-- The scan over `n` lanes from lane `b` (R65): the blocks of the binary digits of `n`, highest first, left to right. -/
def scanFrom (op : Nat → Nat → Nat × Nat) (leaf : Nat → Option Nat) (lv n b : Nat) (acc : Option (Nat × Nat)) : Option (Nat × Nat) :=
  match lv with
  | 0 => acc
  | lv + 1 =>
    if n.testBit lv then scanFrom op leaf lv n (b + 2 ^ lv) (joinNodes op acc (treeNode op leaf lv b))
    else scanFrom op leaf lv n b acc

/-- The operation of an OP code and its identity (R66, R181). -/
def treeOp (op : Nat) (wide : Bool) (rnd : Nat) : (Nat → Nat → Nat × Nat) × Nat :=
  let n := if wide then 64 else 32
  let k : FKind := if wide then .fp64 else .fp32
  let int (g : Int → Int → Int) (uns : Bool) (a b : Nat) : Nat × Nat := (truncI (g (extElem uns n a) (extElem uns n b)) n, 0)
  let mn (a b : Int) : Int := if a ≤ b then a else b
  let mx (a b : Int) : Int := if a ≤ b then b else a
  match op with
  | 0 => (int (fun a b => a + b) true, 0)
  | 1 => (int mn false, 2 ^ (n - 1) - 1)
  | 2 => (int mn true, 2 ^ n - 1)
  | 3 => (int mx false, 2 ^ (n - 1))
  | 4 => (int mx true, 0)
  | 5 => (fun a b => (a &&& b, 0), 2 ^ n - 1)
  | 6 => (fun a b => (a ||| b, 0), 0)
  | 7 => (fun a b => (a ^^^ b, 0), 0)
  | 8 => (fun a b => fadd k (rmode rnd) (unpack k a) (unpack k b), k.signBit true)
  | 9 => (fun a b => fminmax k false (unpack k a) (unpack k b), k.inf)
  | _ => (fun a b => fminmax k true (unpack k a) (unpack k b), k.signBit true + k.inf)

/-- REDUCE or SCAN: `pick` gives a lane's node from its tile's base, width exponent and local index. -/
def treeRun (i : Instr) (f : F64R) (s : State)
    (pick : (Nat → Nat → Nat × Nat) → (Nat → Option Nat) → Nat → Nat → Nat → Option (Nat × Nat)) : Out :=
  let wide := f.fn.getLsbD 4
  let a := opnd f.ca f.a wide 0
  let d := opnd f.cd f.d wide 0
  let (op, ident) := treeOp (fnBits f.fn 3 0) wide f.rnd.toNat
  runInstr i f.g none (topReg [a, d]) s fun _ ex =>
    let x := s.wave
    let w := tileWidth x
    let leaf (l : Nat) : Option Nat := if ex.getLsbD l then some (readOpnd x a l) else none
    let r (l : Nat) : Nat × Nat := (pick op leaf (l / w * w) w.log2 (l % w)).getD (ident, 0)
    endFlags s ((lanesOf ex).map (fun l => (l, (r l).2))) (fun y => { s with wave := writeOpnd y ex d (fun l => (r l).1) })

def execReduce64 (f : F64R) (s : State) : Out :=
  treeRun (.reduce64 f) f s (fun op leaf b lv _ => treeNode op leaf lv b)

def execScan64 (f : F64R) (s : State) : Out :=
  treeRun (.scan64 f) f s (fun op leaf b lv l =>
    scanFrom op leaf (lv + 1) (if f.fn.getLsbD 5 then l else l + 1) b none)

end Sys2Proof.Machine
end

