-- ==== Sys2Proof/Machine/Float.lean ====
section
/-! DEFINITION. Floating arithmetic, comparison, conversion and special functions (R146 to R151), and the narrow formats
(R53 to R58, R152 to R156). -/

namespace Sys2Proof.Machine

/-! ### Operands (R108, R134) -/

/-- The format of FMT. -/
def fltKind (f : F64R) : FKind := if fnBits f.fn 1 0 = 1 then .fp64 else .fp32

/-- The operands of a floating F64R; an immediate is an integer converted exactly. -/
def fltD (f : F64R) : Opnd := opnd f.cd f.d (isF64 f) 0
def fltA (f : F64R) : Opnd := opnd f.ca f.a (isF64 f) 0
def fltB (f : F64R) : Opnd := opnd f.cb f.b (isF64 f) (immFlt (fltKind f) f.b)
def fltC (f : F64R) : Opnd := opnd f.cc f.c (isF64 f) (immFlt (fltKind f) f.c)

/-- An FP32 pattern widened exactly to FP64; a NaN keeps its fraction, so that a signalling one still signals. -/
def widen32 (x : Nat) : Nat :=
  if natBits x 30 23 = 255 && x % 2 ^ 23 != 0 then x / 2 ^ 31 * 2 ^ 63 + 0x7FF * 2 ^ 52 + x % 2 ^ 23 * 2 ^ 29
  else (roundVal .fp64 .rne (unpack .fp32 x)).1

/-- LIT32 in place of B: an FP32 pattern, widened exactly for FP64. -/
def fltLit (k : FKind) (lit : Word) : Opnd := { cls := 3, imm := if k = .fp64 then widen32 lit.toNat else lit.toNat }

/-- Negate a bit pattern's value. -/
def negIf (b : Bool) (v : FVal) : FVal := if b then v.negate else v

/-- NA and NC of FN. -/
def fNA (f : F64R) : Bool := f.fn.getLsbD 2
def fNC (f : F64R) : Bool := f.fn.getLsbD 3

/-- A floating instruction of up to three operands: `op` gets them unpacked, A and C negated as FN says. -/
def fltR (i : Instr) (f : F64R) (b : Opnd) (op : FKind → RMode → FVal → FVal → FVal → Nat × Nat) (s : State) : Out :=
  let k := fltKind f
  runFlt i f.g s (fltD f) (fltA f) b (fltC f) (fun _ x y z =>
    op k (rmode f.rnd.toNat) (negIf (fNA f) (unpack k x)) (unpack k y) (negIf (fNC f) (unpack k z)))

/-- The 32-bit forms: D op A in FP32 under RNE (R136). -/
def flt32 (mk : F32A → Instr) (op : FKind → RMode → FVal → FVal → Nat × Nat) (f : F32A) (s : State) : Out :=
  runFlt (mk f) f.g s (vOpnd f.d) (vOpnd f.a) noOpnd noOpnd (fun d a _ _ => op .fp32 .rne (unpack .fp32 d) (unpack .fp32 a))

/-- FMIN and FMAX take no mode. -/
def fminOp (k : FKind) (_ : RMode) (a b : FVal) : Nat × Nat := fminmax k false a b
def fmaxOp (k : FKind) (_ : RMode) (a b : FVal) : Nat × Nat := fminmax k true a b

/-- A binary operation as `fltR` takes it, and a unary one. -/
def two (op : FKind → RMode → FVal → FVal → Nat × Nat) (k : FKind) (m : RMode) (a b _c : FVal) : Nat × Nat := op k m a b
def one (op : FKind → RMode → FVal → Nat × Nat) (k : FKind) (m : RMode) (a _b _c : FVal) : Nat × Nat := op k m a

/-! ### FADD to FRND (R147, R148) -/

def execFadd32 (f : F32A) (s : State) : Out := flt32 .fadd32 fadd f s
def execFadd64 (f : F64R) (s : State) : Out := fltR (.fadd64 f) f (fltB f) (two fadd) s
def execFadd96 (f : F96R) (s : State) : Out := fltR (.fadd96 f) f.r (fltLit (fltKind f.r) f.lit) (two fadd) s
def execFmul32 (f : F32A) (s : State) : Out := flt32 .fmul32 fmul f s
def execFmul64 (f : F64R) (s : State) : Out := fltR (.fmul64 f) f (fltB f) (two fmul) s
def execFmul96 (f : F96R) (s : State) : Out := fltR (.fmul96 f) f.r (fltLit (fltKind f.r) f.lit) (two fmul) s
def execFfma64 (f : F64R) (s : State) : Out := fltR (.ffma64 f) f (fltB f) ffma s
def execFfma96 (f : F96R) (s : State) : Out := fltR (.ffma96 f) f.r (fltLit (fltKind f.r) f.lit) ffma s
def execFmin32 (f : F32A) (s : State) : Out := flt32 .fmin32 fminOp f s
def execFmin64 (f : F64R) (s : State) : Out := fltR (.fmin64 f) f (fltB f) (two fminOp) s
def execFmin96 (f : F96R) (s : State) : Out := fltR (.fmin96 f) f.r (fltLit (fltKind f.r) f.lit) (two fminOp) s
def execFmax32 (f : F32A) (s : State) : Out := flt32 .fmax32 fmaxOp f s
def execFmax64 (f : F64R) (s : State) : Out := fltR (.fmax64 f) f (fltB f) (two fmaxOp) s
def execFmax96 (f : F96R) (s : State) : Out := fltR (.fmax96 f) f.r (fltLit (fltKind f.r) f.lit) (two fmaxOp) s
def execFrnd64 (f : F64R) (s : State) : Out := fltR (.frnd64 f) f noOpnd (one frnd) s

/-! ### Special functions (R151) -/

def execFrcp64 (f : F64R) (s : State) : Out := fltR (.frcp64 f) f noOpnd (one frcp) s
def execFsqrt64 (f : F64R) (s : State) : Out := fltR (.fsqrt64 f) f noOpnd (one fsqrt) s
def execFrsq64 (f : F64R) (s : State) : Out := fltR (.frsq64 f) f noOpnd (one frsq) s
def execFexp264 (f : F64R) (s : State) : Out := fltR (.fexp264 f) f noOpnd (one fexp2) s
def execFlog264 (f : F64R) (s : State) : Out := fltR (.flog264 f) f noOpnd (one flog2) s
def execFsinpi64 (f : F64R) (s : State) : Out := fltR (.fsinpi64 f) f noOpnd (one (fun k m => fsincospi k m false)) s
def execFcospi64 (f : F64R) (s : State) : Out := fltR (.fcospi64 f) f noOpnd (one (fun k m => fsincospi k m true)) s
def execFtanh64 (f : F64R) (s : State) : Out := fltR (.ftanh64 f) f noOpnd (one ftanh) s

/-! ### HFMA2 (R149) -/

/-- The 16-bit format of HFMA2. -/
def halfKind (f : F64R) : FKind := if fnBits f.fn 1 0 = 2 then .bf16 else .fp16

/-- An immediate stands in both halves. -/
def halfOpnd (f : F64R) (cls : BitVec 2) (x : BitVec 8) : Opnd := opnd cls x false (immFlt (halfKind f) x * 65537)

def hfma2 (i : Instr) (f : F64R) (b : Opnd) (s : State) : Out :=
  let k := halfKind f
  runFlt i f.g s (opnd f.cd f.d false 0) (opnd f.ca f.a false 0) b (halfOpnd f f.cc f.c) (fun _ x y z =>
    let half (n : Nat) : Nat × Nat := ffma k (rmode f.rnd.toNat)
      (negIf (fNA f) (unpack k (x / 65536 ^ n % 65536))) (unpack k (y / 65536 ^ n % 65536))
      (negIf (fNC f) (unpack k (z / 65536 ^ n % 65536)))
    ((half 0).1 + 65536 * (half 1).1, (half 0).2 ||| (half 1).2))

def execHfma264 (f : F64R) (s : State) : Out := hfma2 (.hfma264 f) f (halfOpnd f f.cb f.b) s
def execHfma296 (f : F96R) (s : State) : Out := hfma2 (.hfma296 f) f.r { cls := 3, imm := f.lit.toNat } s

/-! ### FSETP (R146) -/

/-- The format that TY selects. -/
def setpKind (f : F64R) : FKind := match fnBits f.fn 4 3 with | 0 => .fp32 | 1 => .fp64 | 2 => .bf16 | _ => .fp16

def fsetpR (i : Instr) (f : F64R) (b : Opnd) (s : State) : Out :=
  let k := setpKind f
  runCmp i f.g s (f.d.toNat % 32) (opnd f.ca f.a (k = .fp64) 0) b (fun x y =>
    fsetp (fnBits f.fn 2 0) (unpack k (x % 2 ^ k.width)) (unpack k (y % 2 ^ k.width)))

def execFsetp64 (f : F64R) (s : State) : Out :=
  fsetpR (.fsetp64 f) f (opnd f.cb f.b (setpKind f = .fp64) (immFlt (setpKind f) f.b)) s
def execFsetp96 (f : F96R) (s : State) : Out := fsetpR (.fsetp96 f) f.r (fltLit (setpKind f.r) f.lit) s

/-! ### CVT (R150) -/

def wideCode (c : Nat) : Bool := c = 0 || c = 12 || c = 13

def execCvt64 (f : F64R) (s : State) : Out :=
  let t := f.c.toNat / 16
  let c := f.c.toNat % 16
  runFlt (.cvt64 f) f.g s (opnd f.cd f.d (wideCode t) 0) (opnd f.ca f.a (wideCode c) 0) noOpnd noOpnd (fun _ a _ _ =>
    convert t c (rmode f.rnd.toNat) (f.fn.getLsbD 5) a)

/-! ### Q4N (R53 to R58, R152 to R154) -/

/-- The codebook numerators m(k) of R53. -/
def q4nLevels : List Int := [-128, -97, -74, -56, -40, -26, -13, 0, 12, 24, 37, 51, 67, 86, 108, 128]
def q4nLevel (k : Nat) : Int := q4nLevels.getD (k % 16) 0

/-- A super-scale that quantising accepts: positive, normal and finite (R56). -/
def scaleOk (sc : Nat) : Bool := sc / 2 ^ 31 % 2 = 0 && 0 < sc / 2 ^ 23 % 256 && sc / 2 ^ 23 % 256 < 255

/-- The exact value of a Q4N element: m(k) × (c + 1) × S × 2⁻¹⁵ (R54). -/
def q4nValue (k c sc : Nat) : FVal :=
  let m := q4nLevel k
  match unpack .fp32 sc with
  | .nan s => .nan s
  | .inf neg => if m = 0 then .nan true else .inf (neg != (m < 0))
  | .fin neg n e => .fin (if m = 0 then neg else neg != (m < 0)) (m.natAbs * (c + 1) * n) (e - 15)

/-- Sign-magnitude numbers `x` and `f · num / den`, compared exactly after scaling to one exponent: `x·den − f·num`. -/
def cmpScaled (neg : Bool) (n : Nat) (e : Int) (fn : Nat) (fe : Int) (num den : Int) : Int :=
  let e0 := if e < fe then e else fe
  scaled neg n e e0 * den - scaled false fn fe e0 * num

/-- The code of a value under a factor f = fn · 2^fe (R56), and its flags. -/
def q4nCode (x : FVal) (fn : Nat) (fe : Int) : Nat × Nat :=
  match x with
  | .nan _ => (7, flagIV)
  | .inf neg => (if neg then 0 else 15, flagIV)
  | .fin neg n e =>
    if n = 0 then (7, 0)
    else if cmpScaled neg n e fn fe 1 1 > 0 then (15, flagOF + flagIX)
    else if cmpScaled neg n e fn fe (-1) 1 < 0 then (0, flagOF + flagIX)
    else
      let k := (List.range 15).foldl (fun k i =>
        let d := cmpScaled neg n e fn fe (q4nLevel i + q4nLevel (i + 1)) 256
        if d > 0 || (d = 0 && i % 2 = 1) then i + 1 else k) 0
      (k, if cmpScaled neg n e fn fe (q4nLevel k) 128 = 0 then 0 else flagIX)

/-- The factor S × (c + 1) / 256 of a valid descriptor. -/
def q4nFactor (sc c : Nat) : Nat × Int :=
  match unpack .fp32 sc with
  | .fin _ n e => (n * (c + 1), e - 8)
  | _ => (0, 0)

/-- Quantise a value under a descriptor. -/
def quantise (x : FVal) (sc c : Nat) : Nat × Nat :=
  if scaleOk sc then q4nCode x (q4nFactor sc c).1 (q4nFactor sc c).2 else (7, flagIV)

/-- The smallest scale code that covers |x| (R57, R152). -/
def chooseScale (x : FVal) (sc : Nat) : Nat × Nat :=
  if !scaleOk sc then (0, flagIV) else
  match x with
  | .nan s => (0, if s then flagIV else 0)
  | .inf _ => (255, 0)
  | .fin _ n e =>
    (((List.range 256).find? (fun c =>
      cmpScaled false n e (q4nFactor sc c).1 (q4nFactor sc c).2 1 1 ≤ 0)).getD 255, 0)

/-- The descriptor in scalars `r` and `r` + 1: S and c. -/
def descr (x : Wave) (r : BitVec 8) : Nat × Nat := (sGet x r.toNat, sGet x (r.toNat + 1) % 256)

/-- Replace `n` bits of `d` at bit `lo`. -/
def putField (d lo n v : Nat) : Nat := d - d / 2 ^ lo % 2 ^ n * 2 ^ lo + v % 2 ^ n * 2 ^ lo

def execQuant64 (f : F64R) (s : State) : Out :=
  let q := descr s.wave f.b
  let pos := fnBits f.fn 2 0
  runFlt (.quant64 f) f.g s (opnd f.cd f.d false 0) (opnd f.ca f.a false 0) noOpnd noOpnd (fun d a _ _ =>
    if f.fn.getLsbD 3 then chooseScale (unpack .fp32 a) q.1
    else
      let r := quantise (unpack .fp32 a) q.1 q.2
      (putField d (4 * pos) 4 r.1, r.2))

def execDeq64 (f : F64R) (s : State) : Out :=
  let q := descr s.wave f.b
  let k : FKind := match fnBits f.fn 4 3 with | 0 => .fp32 | 1 => .bf16 | _ => .fp16
  runFlt (.deq64 f) f.g s (opnd f.cd f.d false 0) (opnd f.ca f.a false 0) noOpnd noOpnd (fun _ a _ _ =>
    roundVal k (rmode f.rnd.toNat) (q4nValue (a / 16 ^ fnBits f.fn 2 0 % 16) q.2 q.1))

def execRequant64 (f : F64R) (s : State) : Out :=
  let q := descr s.wave f.b
  let r := descr s.wave f.c
  runFlt (.requant64 f) f.g s (opnd f.cd f.d false 0) (opnd f.ca f.a false 0) noOpnd noOpnd (fun _ a _ _ =>
    (List.range 8).foldl (fun (acc : Nat × Nat) i =>
      let v := q4nValue (a / 16 ^ i % 16) q.2 q.1
      let c := quantise v r.1 r.2
      (acc.1 + c.1 * 16 ^ i, acc.2 ||| c.2)) (0, 0))

/-! ### CVT8 and SCALE (R155, R156) -/

def execCvt864 (f : F64R) (s : State) : Out :=
  let k : FKind := if f.fn.getLsbD 0 then .e5m2 else .e4m3
  let h := fnBits f.fn 1 1
  let unpackDir := f.fn.getLsbD 2
  runFlt (.cvt864 f) f.g s (opnd f.cd f.d unpackDir 0) (opnd f.ca f.a false 0) (opnd f.cb f.b false (immFlt .fp32 f.b)) noOpnd
    (fun d a b _ =>
      if unpackDir then
        let byte (i : Nat) : Nat × Nat := roundVal .fp32 .rne (unpack k (a / 256 ^ (2 * h + i) % 256))
        ((byte 0).1 + 2 ^ 32 * (byte 1).1, (byte 0).2 ||| (byte 1).2)
      else
        let lo := roundVal k (rmode f.rnd.toNat) (unpack .fp32 a)
        let hi := roundVal k (rmode f.rnd.toNat) (unpack .fp32 b)
        (putField d (16 * h) 16 (lo.1 + 256 * hi.1), lo.2 ||| hi.2))

def execScale64 (f : F64R) (s : State) : Out :=
  let t := fnBits f.fn 3 2
  let k : FKind := match t with | 0 => .e4m3 | 1 => .e5m2 | 2 => .bf16 | _ => .fp16
  let pos := fnBits f.fn 1 0
  runFlt (.scale64 f) f.g s (opnd f.cd f.d false 0) (opnd f.ca f.a false 0) (opnd f.cb f.b false (immFlt .fp32 f.b)) noOpnd
    (fun d a b _ =>
      let r := fmul k (rmode f.rnd.toNat) (unpack .fp32 a) (unpack .fp32 b)
      (putField d (k.width * pos) k.width r.1, r.2))

end Sys2Proof.Machine
end

