-- ==== Sys2Proof/Machine/MemOps.lean ====
section
/-! DEFINITION. Memory operations in flight: translation (R191 to R195), what blocks an operation (R213 to R216, R236), the
release and acquire steps (R216, R220, R226), sync lines (R222 to R224), atomics (R250 to R252, R255), the effect of a lane,
replay entries and deferred faults (R243), and the end of an operation (R247, R248, R383). -/

namespace Sys2Proof.Machine

/-! ### Orders and signatures -/

/-- Orders that acquire, and orders that release (R215). -/
def ordAcq (o : Nat) : Bool := o == 1 || o == 3 || o == 4
def ordRel (o : Nat) : Bool := o == 2 || o == 3 || o == 4

/-- The index of hash multiplier `m` for line `l` (R222). -/
def sigIndex (m l : Nat) : Nat := (List.range 53).foldl (fun a i => if l.testBit i then a ^^^ ((i + 1) * m % 256) else a) 0

/-- The three bits of a line. -/
def sigOf (l : Nat) : Nat := 2 ^ sigIndex 0x9D l ||| 2 ^ sigIndex 0x5B l ||| 2 ^ sigIndex 0xE3 l

/-- A line hits a signature. -/
def sigHit (sig l : Nat) : Bool := sig &&& sigOf l == sigOf l

/-- A signature of all ones. -/
def sigAll : Nat := 2 ^ 256 - 1

/-- Insert the line of an address into a wave's pending signature (R221). -/
def sigInsert (s : State) (w pa : Nat) : State := modWave s w (fun x => { x with sig := x.sig ||| BitVec.ofNat 256 (sigOf (lineOf pa)) })

/-! ### Release and acquire steps -/

/-- Write back every dirty L1 line of a core to the cluster cache. -/
def cleanCore (s : State) (core : Nat) : State := (linesOf s 0 core).foldl (fun s l => cleanL1 s core l.1) s

/-- Write back far-dirty entries of both dies of a package whose lines satisfy `p` (R220). -/
def flushFar (s : State) (pkg : Nat) (p : Nat → Bool) : State :=
  [2 * pkg, 2 * pkg + 1].foldl (fun s d => ((smGet s.farDirty [] d).filter p).foldl (fun s l => cleanL2 s d l) s) s

/-- A line homed on another package, and one homed in host or CXL memory. -/
def isPool (l : Nat) : Bool := regionOf (l * 128) == .host || regionOf (l * 128) == .cxl
def isRemote (pkg l : Nat) : Bool := homePkg (l * 128) != pkg && !isPool l

/-- Take every invalidation under way to a die. -/
def drainInval (s : State) (die : Nat) : State :=
  (s.dieInval.filter (fun x => x.1 == die)).foldl (fun s x => takeInval s x.1 x.2) s

/-- A writer record's name for a core: its package core index plus one (R198). -/
def grainName (core : Nat) : Nat := core % 256 + 1

/-- A release at die scope or wider clears the writer records of its core, at the homes of its own package (R198; log entry 29). -/
def clearGrains (s : State) (core scope : Nat) : State :=
  if scope ≥ 4 then
    { s with grain := s.grain.filter (fun kv => !(kv.2 == grainName core && homePkg (kv.1 * 512) == corePkg core)) }
  else s

/-- Carry a wave's performed writes to a scope (R220). -/
def pushWrites (s : State) (w scope : Nat) : State :=
  let core := waveCore w
  let die := coreDie core
  let pkg := corePkg core
  let sig := (getWave s w).sig.toNat
  let mine := (linesOf s 0 core).filter (fun l => l.2.dirty != 0) |>.map (·.1)
  let s := if scope ≥ 3 then cleanCore s core else s
  let s := if scope ≥ 4 then
      (linesOf s 1 (coreCluster core)).foldl (fun s l =>
        if l.2.writers.testBit (core % 4) || mine.contains l.1 || sigHit sig l.1 then cleanCC s (coreCluster core) l.1 else s) s
    else s
  let s := if scope ≥ 5 then drainInval s (die ^^^ 1) else s
  let s := if scope ≥ 6 then flushFar s pkg (isRemote pkg) else s
  if scope ≥ 7 then flushFar s pkg isPool else s

/-- The steps of a release after its wait for earlier accesses (R220, R198). -/
def releaseSteps (s : State) (w scope : Nat) : State := clearGrains (pushWrites s w scope) (waveCore w) scope

/-- The steps of an acquire with signature `sig` (R226); below cluster scope there are none, but for a barrier, whose L1 step
holds at every scope (R231). -/
def acquireSteps (s : State) (w scope sig : Nat) (barrier : Bool) : State :=
  let core := waveCore w
  if scope < 3 && !barrier then s else
  let s := (linesOf s 0 core).foldl (fun s l => if sigHit sig l.1 then evictL1 s core l.1 else s) s
  let s := if scope ≥ 4 then
      (linesOf s 1 (coreCluster core)).foldl (fun s l => if sigHit sig l.1 then evictCC s (coreCluster core) l.1 else s) s
    else s
  modWave s w (fun x => { x with sig := x.sig ||| BitVec.ofNat 256 sig })

/-- What a seq_cst fence adds (R216): at device scope or wider every transfer between the dies, at pod scope or wider every
back-invalidation sent for the package's lines. -/
def seqSteps (s : State) (w scope : Nat) : State :=
  let die := waveDie w
  let s := if scope ≥ 5 then drainInval (drainInval s die) (die ^^^ 1) else s
  if scope ≥ 6 then
    (s.backInv.filter (fun b => homePkg (b.line * 128) == die / 2)).foldl (fun s b => answerBackInv s b.line b.holder) s
  else s

/-- The steps of a fence of an order at a scope (R256). -/
def fenceSteps (s : State) (w order scope : Nat) : State :=
  let s := if ordRel order then releaseSteps s w scope else s
  let s := if order == 4 then seqSteps s w scope else s
  if ordAcq order then acquireSteps s w scope sigAll false else s

/-! ### Sync lines (R223, R224) -/

/-- The 43 bytes of a sync line after a release write: VALUE's low `n` bytes from `off`, SIG, PHASE, flags. -/
def syncBytes (cur off n v sig scope : Nat) (rmw : Bool) : Nat :=
  let value := putField (cur % 2 ^ 64) (8 * off) (8 * n) v
  let old := bytesAt cur 8 32
  let full := cur.testBit 336
  let sg := if rmw then old ||| sig else sig
  let sat := popCount sg 256 > 153 || (full && rmw)
  value + 2 ^ 64 * (if sat then sigAll else sg) + 2 ^ 320 * ((bytesAt cur 40 2 + 1) % 65536)
    + 2 ^ 336 * ((if sat then 1 else 0) + 4 * scope)

/-- The signature that an acquire takes from a sync line's bytes (R226). -/
def syncSig (cur : Nat) : Nat := if cur.testBit 336 then sigAll else bytesAt cur 8 32

/-! ### Translation of lanes -/

/-- Whether an operation's accesses write (R196), and what permission they need. -/
def opWrites (k : OpKind') : Bool :=
  match k with
  | .store | .atom | .red | .rel | .bari | .badd => true
  | _ => false

/-- A network access (R355). -/
def isNet (k : OpKind') : Bool := k == .rput || k == .rget || k == .ratom

def opAcc (k : OpKind') : Nat := if opWrites k then 1 else 0

/-- A virtual address through the buffer map or the TLBs (R194, R372); `need` where neither holds it. A large page does not reach
what is off limits (R191, R193). -/
def lookup (s : State) (w acc va : Nat) : LaneStage :=
  let x := getWave s w
  match bufEntry s x.vif va with
  | some (i, e) => if offLimits s x.vif (bufPhys e va false) then .bad 0x108 else .ready (bufPhys e va false) 0 0 (i + 1)
  | none =>
    match tlbHit s (waveCore w) x.vif va with
    | some t =>
      let pa := t.pbase + (va - t.vbase)
      if offLimits s x.vif pa then .bad 0x108
      else if (if acc = 1 then t.w else true) then .ready pa t.mode t.pte 0 else .bad 0x102
    | none => .need

/-- A walk for a virtual address (R195, R481); success fills the TLBs. -/
def walk (s : State) (w acc va : Nat) : State × LaneStage :=
  let x := getWave s w
  match walkFrom s x.vif (waveDie w) (va % 2 ^ 57) acc (ptRoot s x.vif) 5 with
  | (s, .ok t) => (tlbFill s (waveCore w) x.vif va t, .ready t.pa t.mode t.pte 0)
  | (s, .error c) => (s, .bad c)

/-- The interface whose tables translate a lane, and the address there: for `.x` the target's (R192). -/
def laneVif (s : State) (w space addr : Nat) : Nat × Nat :=
  let vif := (getWave s w).vif
  if space = 3 then
    let (pkg, va) := xTarget addr
    if pkg = vifPkg vif then (vif, va) else ((jobIface s vif pkg).getD vif, va)
  else (vif, addr)

/-- A `.x` address whose target is another package. -/
def isAway (s : State) (w space addr : Nat) : Bool := space == 3 && (xTarget addr).1 != vifPkg (getWave s w).vif

/-- The target package translates a `.x` address with its own tables (R192); with no interface of the job there, no entry is
valid. -/
def remoteXlat (s : State) (w acc addr : Nat) : State × LaneStage :=
  let (pkg, va) := xTarget addr
  match jobIface s (getWave s w).vif pkg with
  | none => (s, .bad 0x100)
  | some v =>
    match translate s v (2 * pkg) va acc false with
    | (s, .ok t) => (s, .ready t.pa t.mode t.pte t.buf)
    | (s, .error c) => (s, .bad c)

/-- The first look at a lane when its instruction issues. -/
def firstStage (s : State) (w space acc addr : Nat) : LaneStage :=
  match space with
  | 1 =>
    let cr := getCrew s (getWave s w).crew
    .ready (waveCore w * 2 ^ 19 + cr.benchBase + addr) 0 0 0
  | 2 =>
    match vaultAddr s (getWave s w).vif addr with
    | .ok (.ok pa) => .ready pa vaultMode 0 0
    | .ok (.error c) => .bad c
    | .error c => .bad c
  | 3 => if isAway s w 3 addr then .need else lookup s w acc (xTarget addr).2
  | _ => lookup s w acc addr

/-! ### Operations in flight -/

def getOp (s : State) (id : Nat) : Option Op := s.ops.find? (fun o => o.id == id)
def setOp (s : State) (o : Op) : State := { s with ops := s.ops.map (fun p => if p.id == o.id then o else p) }
/-- A packet carries a lane of an operation. -/
def accessPacket (p : Packet) : Bool := p.kind == .request || p.kind == .response

def dropOp (s : State) (id : Nat) : State :=
  { s with
    ops := s.ops.filter (fun p => p.id != id), atomPend := s.atomPend.filter (fun x => x.op != id)
    packets := s.packets.filter (fun p => !(accessPacket p && p.index == id)) }

/-- A lane waits for its translation. -/
def untranslated (a : LaneAcc) : Bool := match a.stage with | .need | .walking => true | _ => false
def isBad (a : LaneAcc) : Bool := match a.stage with | .bad _ => true | _ => false
def isReady (a : LaneAcc) : Bool := match a.stage with | .ready .. => true | _ => false
def isDone (a : LaneAcc) : Bool := match a.stage with | .done => true | _ => false
def stagePa (a : LaneAcc) : Option Nat := match a.stage with | .ready pa _ _ _ => some pa | _ => none

/-- Bytes of an element (R82). -/
def szBytes (sz : Nat) : Nat := match sz with | 0 | 1 => 1 | 2 | 3 => 2 | 4 => 4 | 5 => 8 | _ => 16

/-- The bytes that an operation's lane touches. -/
def opBytes (o : Op) : Nat :=
  match o.kind with
  | .rel | .acq => 8
  | .bari | .badd => 32
  | .cwb | .cinv | .devl | .fence | .tdone => 1
  | _ => szBytes o.sz

/-- An operation has not passed its last fault check (R243). -/
def inCheck (o : Op) : Bool :=
  o.entry && o.lanes.any (fun a => untranslated a || isBad a || (isReady a && (o.kind == .load || o.kind == .atom || o.kind == .red
    || o.kind == .acq || (match a.stage with | .ready _ 1 _ _ => opWrites o.kind | _ => false))))

/-- A tile operation may still fault (R283): a sparse `MMA` until its mask reads; a drain, a stream, a merge and a bypass until they
complete. -/
def tileInCheck (o : TileOp) : Bool :=
  match o.instr with
  | .mma64 _ => o.ra.w1.getLsbD 13
  | .mdrain64 _ | .lstream64 _ | .lsmerge64 _ | .mbyp64 _ => true
  | _ => false

/-- The tile operations of a wave: armed, and in the engine's queue. -/
def tileOpsOf (s : State) (w : Nat) : List TileOp :=
  let cr := getCrew s (getWave s w).crew
  ((cr.cv.flatMap (fun c => c.2.arm)) ++ (getCore s (waveCore w)).engine).filter (fun o => o.w == w)

/-- The engine commands of a wave whose last byte has not been read (R313, R317). -/
def commandsOf (s : State) (w : Nat) : List Command :=
  ((getCore s (waveCore w)).chan.flatMap (·.2) ++ smGet s.gathers [] (coreCluster (waveCore w))).filter (fun c => c.w == w && !c.read)

/-- Replay entries whose checks are still to come. -/
def entriesOpen (s : State) (w : Nat) : Nat :=
  (s.ops.filter (fun o => o.w == w && inCheck o)).length + ((tileOpsOf s w).filter tileInCheck).length + (commandsOf s w).length

/-- The operation of an entry whose faulting lanes a wave holds already still has lanes to be checked. -/
def sharesEntry (s : State) (w seq : Nat) : Bool := s.ops.any (fun o => o.w == w && o.id == seq && inCheck o)

/-- Replay entries in use by a wave: those still to be checked, and those that hold faulting lanes, one for each instruction. -/
def entriesUsed (s : State) (w : Nat) : Nat :=
  entriesOpen s w + ((getWave s w).replay.filter (fun r => !sharesEntry s w r.seq)).length

/-- Spaces of one memory: the bench, the network, and those that a physical address names. -/
def sameMemory (a b : Nat) : Bool := (a == 1) == (b == 1) && (a == 4) == (b == 4)

/-- Two spans meet modulo 64 KiB. -/
def meetsMod (a n b m : Nat) : Bool := (b + 65536 - a % 65536) % 65536 < n || (a + 65536 - b % 65536) % 65536 < m

/-- Two lanes touch a common byte: by physical address when both are known; else they may, where their addresses agree in the 16 bits
that no translation changes (R213; log entry 33). -/
def lanesOverlap (o p : Op) (a b : LaneAcc) : Bool :=
  let n := opBytes o
  let m := opBytes p
  sameMemory o.space p.space && (match stagePa a, stagePa b with
  | some x, some y => x < y + m && y < x + n
  | _, _ => if o.space == 4 then a.addr < b.addr + m && b.addr < a.addr + n else meetsMod a.addr n b.addr m)

def sameLine (o p : Op) (a b : LaneAcc) : Bool :=
  sameMemory o.space p.space && (match stagePa a, stagePa b with
  | some x, some y => lineOf x == lineOf y
  | _, _ => if o.space == 4 then lineOf a.addr == lineOf b.addr else a.addr / 128 % 512 == b.addr / 128 % 512)

/-- Some lanes of two operations, not performed yet, are related. -/
def anyLanes (f : Op → Op → LaneAcc → LaneAcc → Bool) (o p : Op) : Bool :=
  o.lanes.any (fun a => !isDone a && p.lanes.any (fun b => !isDone b && f o p a b))

/-- Every lane of an operation reaches CXL or host memory (R234). -/
def onlyPool (o : Op) : Bool :=
  !o.lanes.isEmpty && o.lanes.all (fun a => match stagePa a with | some pa => o.space != 1 && isPool (lineOf pa) | none => false)

/-- A cache-control operation meets another operation on a line, or acts on every line (R265). -/
def cacheOp (o : Op) : Bool := o.kind == .cwb || o.kind == .cinv
def meetsCacheOp (b a : Op) : Bool :=
  (cacheOp b || cacheOp a) && ((cacheOp b && b.lanes.isEmpty) || (cacheOp a && a.lanes.isEmpty) || anyLanes sameLine b a)

/-- A kind of operation that reads, and so acquires with an order that does (R215, R216). -/
def readsMem (k : OpKind') : Bool := k == .load || k == .atom || k == .red || k == .rget || k == .ratom

/-- An operation that acts as a seq_cst fence first, and has not begun (R216). -/
def fenceFirst (b : Op) : Bool := b.order == 4 && b.stepped == 0

/-- An earlier operation `b` holds back `a` of the same wave (R213, R215, R216, R236, R256). -/
def blocks (b a : Op) : Bool :=
  b.w == a.w && b.id < a.id && (
    (b.path == a.path && (
      b.kind == .fence
      || ((b.kind == .acq || (readsMem b.kind && ordAcq b.order) || fenceFirst b) && !(b.scope < 7 && onlyPool a))
      || ((a.kind == .rel || a.kind == .badd || a.kind == .fence || ordRel a.order) && !(a.scope < 7 && onlyPool b))
      || anyLanes lanesOverlap b a
      || (b.space == 4 && a.space == 4 && anyLanes sameLine b a)
      || meetsCacheOp b a
      || ((b.kind == .atom || b.kind == .red) && a.kind == .load && anyLanes sameLine b a)))
    || (b.path == 0 && a.path == 1 && b.cycle == a.cycle && anyLanes lanesOverlap b a))

/-- The home operation unit of an address (R200, R202): its vault's, or that of its L2 slice. -/
def homeUnit (pa : Nat) : Nat × Nat := if regionOf pa == .vault then (1, pa / 0x400000) else (0, 128 * homeDie pa + sliceOf pa)

/-- A lane of an operation that travels to its home as an active message: HC regions and vaults (R200, R246). -/
def isMessage (o : Op) (a : LaneAcc) : Bool :=
  (o.kind == .store || o.kind == .atom || o.kind == .red || o.kind == .rel) && o.space != 1 &&
    (match a.stage with | .ready _ mode _ _ => o.space == 2 || mode == 2 | _ => false)

/-- A message of `a` stays behind an earlier one of `b` on the same path to the same home, or behind one whose home is not known
yet (R202). -/
def messagesHeld (b a : Op) : Bool :=
  a.lanes.any (fun y => isMessage a y && b.lanes.any (fun x =>
    (opWrites b.kind && b.space != 1 && untranslated x) || (isMessage b x && (stagePa x).map homeUnit == (stagePa y).map homeUnit)))

/-- Nothing holds an operation back. -/
def unblocked (s : State) (o : Op) : Bool :=
  s.ops.all (fun b => !blocks b o && !(b.w == o.w && b.path == o.path && b.id < o.id && messagesHeld b o))

/-- Start the walks of an operation's lanes; a miss on a granule that is being walked joins that walk, and one that finds the
die's pool of 2,048 full waits (R195). -/
def startWalks (s : State) (o : Op) : State × Op :=
  let die := waveDie o.w
  let vif := (getWave s o.w).vif
  o.lanes.foldl (fun (r : State × Op) a =>
    let s := r.1
    if !(a.stage == .need) || isAway s o.w o.space a.addr then r else
    let va := (laneVif s o.w o.space a.addr).2
    let g := va / 65536 * 65536
    let joins := s.walks.any (fun k => k.die == die && k.vif == vif && k.va == g)
    if !joins && (s.walks.filter (fun k => k.die == die)).length ≥ 2048 then r else
    let lanes := r.2.lanes.map (fun b => if b.lane == a.lane then { b with stage := .walking } else b)
    let first := !(r.2.lanes.any (fun b => b.stage == .walking && (laneVif s o.w o.space b.addr).2 / 65536 * 65536 == g))
    let s := if joins then (if first then bump s 6 die 1 else s)
      else { s with walks := s.walks ++ [⟨s.nextId, die, vif, g⟩], nextId := s.nextId + 1 }
    (s, { r.2 with lanes := lanes })) (s, o)

/-- A translated lane of an atomic that executes beyond the L1 (R236): its own copies are written back and dropped, and its
line is marked atomic-pending. -/
def markAtomic (s : State) (o : Op) (a : LaneAcc) : State :=
  match a.stage with
  | .ready pa mode _ _ =>
    if (o.kind == .atom || o.kind == .red) && o.space != 1 && o.space != 2 && mode != 2 then
      match atomicPoint (waveCore o.w) o.scope mode pa false with
      | .l1 => s
      | p =>
        let s := flushOwn s (waveCore o.w) (lineOf pa) (p != .cc)
        { s with atomPend := s.atomPend ++ [⟨o.id, waveCore o.w, lineOf pa, p != .cc⟩] }
    else s
  | _ => s

/-- Enter an operation: it takes the next number, its walks start, its atomics mark their lines. -/
def enterOp (s : State) (o : Op) : State :=
  let o := { o with id := s.nextId, cycle := (getWave s o.w).cycle }
  let s := { s with nextId := s.nextId + 1 }
  let (s, o) := startWalks s o
  let s := { s with ops := s.ops ++ [o] }
  o.lanes.foldl (fun s a => markAtomic s o a) s

/-- Misses that found a die's pool full try again (R195). -/
def retryWalks (s : State) (die : Nat) : State :=
  s.ops.foldl (fun s o =>
    if waveDie o.w == die && o.lanes.any (fun a => a.stage == .need) then
      let r := startWalks s o
      setOp r.1 r.2
    else s) s

/-- A walk ends for every lane that waits for it, and its entry in the pool is free again (R195). -/
def endWalk (s : State) (k : Walk) : State :=
  let s := { s with walks := s.walks.filter (fun y => y.id != k.id) }
  retryWalks (s.ops.foldl (fun s o =>
    if waveDie o.w != k.die || (getWave s o.w).vif != k.vif then s else
    o.lanes.foldl (fun s a =>
      let va := (laneVif s o.w o.space a.addr).2
      if a.stage == .walking && va / 65536 * 65536 == k.va then
        let (s, st) := walk s o.w (opAcc o.kind) va
        let a' := { a with stage := st }
        let s := { s with ops := s.ops.map (fun p => if p.id == o.id then
          { p with lanes := p.lanes.map (fun b => if b.lane == a.lane then a' else b) } else p) }
        markAtomic s o a'
      else s) s) s) k.die

/-! ### The effect of a lane -/

/-- Poisoned bytes of an access, in memory or on a bench. -/
def lanePoisoned (s : State) (bench : Bool) (pa n : Nat) : Bool :=
  if bench then (List.range ((pa + n - 1) / 32 + 1 - pa / 32)).any (fun i => smGet s.benchPoison false (pa / 32 + i))
  else poisoned s pa n

/-- The cluster that reads an HC line becomes a sharer (R200). -/
def share (s : State) (core mode pa : Nat) : State :=
  if mode == 2 then { s with sharers := smMod s.sharers 0 (lineOf pa) (fun m => m ||| 2 ^ (coreCluster core % 32)) } else s

/-- Read `n` bytes for a load of a thread at a scope, with a cache policy (R111, R217). -/
def laneRead (s : State) (t space scope policy mode pa n : Nat) : State × Nat :=
  if space = 1 then (s, s.bench.readN pa n)
  else
    let core := threadCore t
    let p := readPoint core scope pa (space == 2)
    let p := match p with | .l1 => if policy = 2 then Point.cc else .l1 | q => q
    let s := if space = 2 then s else share s core mode pa
    readBytes s t p pa n (policy == 0)

/-- Where an operation's write is made: a plain or release store, or an atomic. -/
def writePoint (w space scope policy mode pa : Nat) (atomic : Bool) : Point :=
  let core := waveCore w
  let p := if atomic then atomicPoint core scope mode pa (space == 2) else storePoint core scope mode pa (space == 2)
  match p with | .l1 => if policy = 2 then .cc else .l1 | q => q

/-- Write `n` bytes of a thread at a point, recording the write (R196, R370). A release write at device scope or wider leaves its line
in one L2 of the package: the other die's copy goes before it is performed (R217, R220). -/
def laneWriteAt (s : State) (t space va pte buf : Nat) (p : Point) (policy mode pa n v : Nat) : State :=
  if space = 1 then benchPut s pa n v
  else
    let (vif, va) := laneVif s (t / 32) space va
    let s := if space = 2 then s else if pte = 0 && buf = 0 then s else recordWrite s vif va pte
    writeBytes s t p mode pa n v (policy == 0)

/-- The lanes of an operation together write every byte of the grain that holds a virtual address. -/
def coversGrain (o : Op) (va : Nat) : Bool :=
  o.lanes.foldl (fun m a => if a.addr / 512 == va / 512 then m ||| ((2 ^ opBytes o - 1) <<< (a.addr % 512)) else m) 0 % 2 ^ 512
    == 2 ^ 512 - 1

/-- The grain record of a GC write (R198): false where the write of a lane faults. A write of an instruction covers a whole grain
where its lanes together do. DEDUCED (log entry 29). -/
def grainOk (s : State) (o : Op) (va pa mode : Nat) : Bool :=
  mode != 1 || smGet s.grain 0 (pa / 512) == 0 || smGet s.grain 0 (pa / 512) == grainName (waveCore o.w) || coversGrain o va

/-- The write of an instruction proceeds: it takes the records of its grains (R198). -/
def takeGrains (s : State) (o : Op) : State :=
  if !opWrites o.kind then s else
  o.lanes.foldl (fun s a => match a.stage with
    | .ready pa 1 _ _ => { s with grain := smSet s.grain 0 (pa / 512) (grainName (waveCore o.w)) }
    | _ => s) s

/-- The value that an atomic leaves (R250), from the old value and the lane's operand; a CAS operand holds the expected value
below the new one. -/
def atomNew (fn4 n old x : Nat) : Nat :=
  let b := 8 * n
  let k : FKind := if n = 8 then .fp64 else .fp32
  match fn4 with
  | 0 => (old + x) % 2 ^ b
  | 1 => if sext old b ≤ sext x b then old else x
  | 2 => if old ≤ x then old else x
  | 3 => if sext old b ≤ sext x b then x else old
  | 4 => if old ≤ x then x else old
  | 5 => old &&& x
  | 6 => old ||| x
  | 7 => old ^^^ x
  | 8 => x
  | 9 => if old = x % 2 ^ b then x / 2 ^ b else old
  | 10 => (fadd k .rne (unpack k old) (unpack k x)).1
  | 11 => (fminmax k false (unpack k old) (unpack k x)).1
  | 12 => (fminmax k true (unpack k old) (unpack k x)).1
  | _ =>
    let h (i : Nat) : Nat := (fadd .bf16 .rne (unpack .bf16 (old / 65536 ^ i % 65536)) (unpack .bf16 (x / 65536 ^ i % 65536))).1
    h 0 + 65536 * h 1

/-- A release or acquire access of the operation works on sync lines: cluster scope or wider (R224, R226). -/
def syncScope (o : Op) : Bool := o.scope ≥ 3 && o.space != 1

/-- The cache policy of an operation (R111). -/
def opPolicy (o : Op) : Nat := if o.kind == .load || o.kind == .store then o.fn4 / 4 else 0

/-- Before the first lane of an operation: the steps of its order, and the copy of the pending signature that its release
writes carry (R216, R220, R248). -/
def beginOp (s : State) (o : Op) : State × Op :=
  if o.stepped ≠ 0 then (s, o) else
  let o := { o with stepped := 1 }
  let isFence := o.kind == .fence
  let rel := !isFence && (o.kind == .rel || o.kind == .badd || ((opWrites o.kind || o.kind == .devl || isNet o.kind) && ordRel o.order))
  let s := if o.order == 4 && !isFence then fenceSteps s o.w 4 o.scope else if rel then releaseSteps s o.w o.scope else s
  let o := if rel && o.scope ≥ 3 then { o with relSig := (getWave s o.w).sig.toNat } else o
  (setOp s o, o)

/-- The release writes of an operation replace the sync line. -/
def writesSync (o : Op) : Bool := syncScope o && (o.kind == .rel || (ordRel o.order && (o.kind == .store || o.kind == .atom || o.kind == .red)))

/-- The lane's write makes its release update of the sync line: an atomic or reduction makes one for each group of lanes on the same
bytes (R252), a store one for each line (log entry 30). -/
def updatesSync (o : Op) (a : LaneAcc) : Bool :=
  let same (b : LaneAcc) : Bool := if o.kind == .store then b.addr / 64 == a.addr / 64 else b.addr == a.addr
  o.lanes.all (fun b => !(isDone b && same b))

/-- A release write at device scope or wider is performed once no other die of the package holds an older copy of its line (R217,
R220). -/
def settleOther (s : State) (p : Point) (scope l : Nat) : State :=
  match p with | .l2 die => if scope ≥ 5 then settleInval s (die ^^^ 1) l else s | _ => s

/-- The bytes of a sync line behind a lane's release write: the whole update, or its VALUE alone where another lane has made it. -/
def syncWrite (s : State) (o : Op) (a : LaneAcc) (p : Point) (pa mode pte buf v : Nat) (rmw : Bool) : State :=
  let n := opBytes o
  let t := threadOf o.w a.lane
  let (s, c) := readBytes (settlePoint s p (lineOf pa)) t p (pa / 64 * 64) 64 true
  let y := if updatesSync o a then syncBytes c (pa % 64) n v o.relSig o.scope rmw else putField c (8 * (pa % 64)) (8 * n) v % 2 ^ 344
  let was := smGet s.poison false (pa / 64 * 2)
  let s := settleOther (laneWriteAt s t o.space a.addr pte buf p 0 mode (pa / 64 * 64) 43 y) p o.scope (lineOf pa)
  if n = 8 then s else setPoison s (pa / 64 * 64) was

/-- The effect of CWB and CINV on one line (R265). -/
def cacheLine (s : State) (core scope : Nat) (inval : Bool) (l : Nat) : State :=
  let s := if scope ≥ 3 then (if inval then evictL1 s core l else cleanL1 s core l) else s
  let s := if scope ≥ 4 then (if inval then evictCC s (coreCluster core) l else cleanCC s (coreCluster core) l) else s
  if inval then s
  else if (scope ≥ 6 && isRemote (corePkg core) l) || (scope ≥ 7 && isPool l) then flushFar s (corePkg core) (fun k => k == l)
  else s

/-- The granules of a write are poisoned where its data were (R253). -/
def spoil (s : State) (bench poison : Bool) (pa n : Nat) : State :=
  if !poison then s else
  (List.range ((pa + n - 1) / 32 + 1 - pa / 32)).foldl (fun s i =>
    if bench then { s with benchPoison := smSet s.benchPoison false (pa / 32 + i) true } else setPoison s (pa / 32 * 32 + 32 * i) true) s

/-- Perform one translated lane; its result goes to `data`, and it becomes `done`, or `bad` where it meets a fault. DESIGN CHOICE (log
entry 30): a store, atomic or REL inserts its own line unless it writes a sync line, so one with a release below cluster scope does.
DESIGN CHOICE (log entry 63): the poison of the element's own bytes alone faults an acquire, not that of the signature's end. -/
def applyLane (s : State) (o : Op) (a : LaneAcc) : State × Op :=
  match a.stage with
  | .ready pa mode pte buf =>
    let n := opBytes o
    let core := waveCore o.w
    let t := threadOf o.w a.lane
    let put (s : State) (o : Op) (b : LaneAcc) : State × Op :=
      (s, { o with lanes := o.lanes.map (fun c => if c.lane == b.lane then b else c) })
    let finish (s : State) (o : Op) (v : Nat) : State × Op := put (spoil s (o.space == 1) a.poison pa n) o { a with stage := .done, data := v }
    let poison := lanePoisoned s (o.space == 1) pa n
    let acqSync (s : State) (p : Point) (o : Op) : State × Op :=
      if syncScope o && (o.kind == .acq || ordAcq o.order) then
        let (s, c) := readBytes s t p (pa / 64 * 64) 64 true
        (s, { o with acqSig := o.acqSig ||| syncSig c })
      else (s, o)
    match o.kind with
    | .load | .acq =>
      if poison then put s o { a with stage := .bad 0x109 } else
      let (s, o) := acqSync s (readPoint core o.scope pa (o.space == 2)) o
      let (s, v) := laneRead s t o.space o.scope (opPolicy o) mode pa n
      finish s o v
    | .store | .rel =>
      let p := writePoint o.w o.space o.scope (opPolicy o) mode pa false
      if writesSync o then finish (syncWrite s o a p pa mode pte buf a.data false) o a.data
      else
        let s := laneWriteAt s t o.space a.addr pte buf p (opPolicy o) mode pa n a.data
        let s := if ordRel o.order || o.kind == .rel then settleOther s p o.scope (lineOf pa) else s
        let s := if o.space == 1 then rejudge s o.w o.path o.cycle pa n else s
        finish (if o.space == 1 then s else sigInsert s o.w pa) o a.data
    | .atom | .red =>
      let p := writePoint o.w o.space o.scope 0 mode pa true
      if poison then
        put s o { a with stage := .bad (if o.space == 1 then 0x109 else match p with | .l1 => 0x109 | .cc => 0x109 | _ => 0x105) }
      else
        let s := settlePoint s p (lineOf pa)
        let (s, o) := acqSync s p o
        let (s, old) := if o.space = 1 then (s, s.bench.readN pa n) else readBytes s t p pa n true
        let v := atomNew o.fn4 n old a.data
        if writesSync o then finish (syncWrite s o a p pa mode pte buf v true) o old
        else
          let s := laneWriteAt s t o.space a.addr pte buf p 0 mode pa n v
          let s := if ordRel o.order then settleOther s p o.scope (lineOf pa) else s
          let s := if o.space == 1 then rejudge s o.w o.path o.cycle pa n else s
          finish (if o.space == 1 then s else sigInsert s o.w pa) o old
    | .cwb | .cinv => finish (cacheLine s core o.scope (o.kind == .cinv) (lineOf pa)) o a.data
    | _ => finish s o a.data
  | _ => (s, o)

/-- A GC write suppresses every lane of its instruction when one lane would fault (R198). -/
def grainFault (s : State) (o : Op) : Bool :=
  opWrites o.kind && o.lanes.any (fun a => match a.stage with
    | .ready pa mode _ _ => !grainOk s o a.addr pa mode
    | _ => false)

/-- The wave's next active messages are numbered: `n` of them have gone (R201). -/
def countMessages (s : State) (w n : Nat) : State :=
  if n = 0 then s else modWave s w (fun x => { x with seqMsg := (x.seqMsg + n) % 4096 })

/-- Perform the translated lanes that satisfy `p`, in ascending order; those that go to their homes as active messages take a number each
(R201). The grain check is made once, before the first lane of the instruction, and the instruction then takes the records of all its
grains (R198). -/
def applyLanes (s : State) (o : Op) (p : LaneAcc → Bool) : State × Op :=
  let first := o.stepped = 0
  let (s, o) := beginOp s o
  if first && grainFault s o then
    let o := { o with lanes := o.lanes.map (fun a => if isReady a then { a with stage := .bad 0x103 } else a) }
    (setOp s o, o)
  else
    let s := if first then takeGrains s o else s
    let s := countMessages s o.w (o.lanes.filter (fun a => isMessage o a && p a)).length
    let (s, o) := o.lanes.foldl (fun (r : State × Op) a => if isReady a && p a then applyLane r.1 r.2 a else r) (s, o)
    (setOp s o, o)

/-! ### Results and the end of an operation -/

/-- Extend a loaded element to what its destination holds (R247). -/
def loadExtend (sz v : Nat) : Nat :=
  match sz with
  | 1 => truncI (sext v 8) 32
  | 3 => truncI (sext v 16) 32
  | _ => v

/-- Write `n` bytes of a result to registers from `d` of a lane that is still live, registers that a SHRINK removed left out
(R162, R169). -/
def writeRegs (x : Wave) (d l n v vlimit : Nat) : Wave :=
  if !(live x).getLsbD l then x else
  (List.range ((n + 3) / 4)).foldl (fun x i =>
    if d + i < vlimit && d + i < 8 * x.gran then vPut x (d + i) l (v / 2 ^ (32 * i)) else x) x

/-- A packet of a lane's remote access is on the fabric. -/
def onFabric (s : State) (o : Op) (a : LaneAcc) : Bool :=
  s.packets.any (fun p => (p.kind == .request || p.kind == .response) && p.index == o.id && p.rank == a.lane)

/-- Lanes that have been performed, and whose answer has come where the fabric carries it. -/
def landed (s : State) (o : Op) : List LaneAcc := o.lanes.filter (fun a => isDone a && !onFabric s o a)

/-- What lanes of a load or atomic loaded goes to their destinations. -/
def writeLanes (x : Wave) (o : Op) (l : List LaneAcc) (value : Nat → Nat) : Wave :=
  let n := opBytes o
  healRegs (l.foldl (fun x a => writeRegs x o.d a.lane n (value a.data) o.vlimit) x)
    (maskOf (l.map (·.lane)) &&& live x) o.d (min ((n + 3) / 4) (min o.vlimit (8 * x.gran) - o.d))

/-- The performed lanes of a load or atomic write their destinations, and leave the operation. -/
def deliver (s : State) (o : Op) : State × Op :=
  let l := landed s o
  let s := match o.kind with
    | .load | .rget => modWave s o.w (fun x => writeLanes x o l (loadExtend o.sz))
    | .atom | .ratom => modWave s o.w (fun x => writeLanes x o l id)
    | .acq => modWave s o.w (fun x => l.foldl (fun x a => sPutPair x o.d a.data) x)
    | _ => s
  let o := { o with lanes := o.lanes.filter (fun a => !(isDone a && !onFabric s o a)) }
  (setOp s o, o)

/-- The count of an operation falls (R382). -/
def lowerCount (s : State) (o : Op) : State :=
  modWave s o.w (fun x => if o.counter = 1 then { x with ld := x.ld - 1 } else if o.counter = 2 then { x with st := x.st - 1 } else x)

/-- Lanes of an entry; those not listed hold zero. -/
def entryLanes (l : List Nat) : BitVec 1024 := BitVec.ofNat 1024 (l.foldr (fun v a => v % 2 ^ 32 + 2 ^ 32 * a) 0)

/-- The code of a queue register. -/
def qmapCode (x : Wave) (i : Nat) : Nat :=
  if i < 8 then natBits x.qmap0.toNat (4 * i + 3) (4 * i) else natBits x.qmap1.toNat (4 * (i - 8) + 3) (4 * (i - 8))

/-- The lowest register of a wave that names an engine. -/
def qreg (x : Wave) (code : Nat) : Option Nat := (List.range 16).find? (fun i => qmapCode x i == code)

def lowerEng (s : State) (w : Nat) : State := modWave s w (fun x => { x with eng := x.eng - 1 })

/-- The entry leaves its engine: into its register, or discarded where no register names the engine or the wave has exited. An
entry behind another for the same register waits, and so does one whose register holds 8. -/
def landEntry (e : Nat) (s : State) : State :=
  match s.entries[e]? with
  | none => s
  | some y =>
    if y.w ≥ 2 ^ 24 then s else
    let x := getWave s y.w
    let gone : State := { s with entries := s.entries.eraseIdx e }
    let done (s : State) : State := if y.lowersEng then lowerEng s y.w else s
    let ahead := (s.entries.take e).any (fun z => z.w == y.w && z.code == y.code)
    match (if x.status == .absent || x.status == .ended then none else qreg x y.code) with
    | none => done gone
    | some i =>
      let q := smGet x.q [] i
      if ahead || q.length ≥ 8 then s
      else done (modWave gone y.w (fun x => { x with q := smSet x.q [] i (q ++ [y.data]) }))

/-- An engine has a result for a wave: its entry goes to its register at once, or waits at the engine (R308). -/
def pushEntry (s : State) (w code : Nat) (lanes : List Nat) (lowersEng : Bool) : State :=
  landEntry s.entries.length { s with entries := s.entries ++ [⟨w, code, entryLanes lanes, lowersEng⟩] }

/-- The completion entry of a network access (R361): sequence number, the cause of the lowest lane that faulted, those lanes, the
largest retry count. -/
def netEntry (s : State) (o : Op) : State :=
  if !isNet o.kind then s else
  pushEntry s o.w 4 [o.netSeq, (o.netBad.head?.map (·.2)).getD 0, (maskOf (o.netBad.map (·.1))).toNat, o.netTry] false

/-- An operation with no lane left ends: the clear of the pending signature after release writes, the acquire steps with what it
read (R224, R226), its count. -/
def endOp (s : State) (o : Op) : State :=
  if !o.lanes.isEmpty then s else
  let acq := o.kind == .acq || ((o.kind == .load || o.kind == .atom || o.kind == .red) && ordAcq o.order)
  let s := if (writesSync o || (o.kind == .badd && o.scope ≥ 3)) && o.stepped ≠ 0 then modWave s o.w (fun x => { x with sig := 0 }) else s
  let s := if acq && syncScope o && o.stepped ≠ 0 then acquireSteps s o.w o.scope o.acqSig false else s
  netEntry (dropOp (lowerCount s o) o.id) o

/-! ### Deferred faults (R243, R383, R406) -/

def badCause (a : LaneAcc) : Nat := match a.stage with | .bad c => c | _ => 0

/-- Two entries of one instruction are one: its lanes together, the lowest cause (R413). -/
def mergeReplay (a b : Replay) : Replay :=
  { a with ecause := min a.ecause b.ecause, rlanes := a.rlanes ||| b.rlanes, lanes := a.lanes ++ b.lanes }

/-- Replay entries stand in issue order, one for each instruction (R413). -/
def insertReplay (r : Replay) : List Replay → List Replay
  | [] => [r]
  | y :: rest => if r.seq = y.seq then mergeReplay y r :: rest else if r.seq < y.seq then r :: y :: rest else y :: insertReplay r rest

/-- A wave takes a replay entry. -/
def addReplay (x : Wave) (r : Replay) : Wave := { x with replay := insertReplay r x.replay }

/-- The faulting lanes of an operation take a replay entry and its wave stops; the operation ends when no lane is left. -/
def foundFault (s : State) (o : Op) : State :=
  let bad := o.lanes.filter isBad
  if bad.isEmpty then s else
  let cause := bad.foldl (fun c a => if c = 0 then badCause a else min c (badCause a)) 0
  let wide := !o.operands.isEmpty
  let met := if wide then o.ex else maskOf ((bad.filter (fun a => badCause a == cause)).map (·.lane))
  let keep := o.lanes.filter (fun a => !isBad a)
  let r : Replay :=
    { ecause := cause, shadow := (getWave s o.w).shadow, path := o.path, rlanes := if wide then o.ex else maskOf (bad.map (·.lane)), ipc := o.pc
      parcels := o.parcels, order := o.order, scope := o.scope
      lanes := if wide then [] else bad.map (fun a => { a with stage := .need })
      operands := o.operands, seq := o.id }
  let s := modWave s o.w (fun x =>
    let x := if wide then x else bad.foldl (fun x a => markLanes x (laneBit a.lane) (badCause a)) x
    addReplay x r)
  let s := setOp s { o with lanes := keep, entry := keep.any (fun _ => o.entry) }
  let s := raise s o.w { cause := cause, rank := 4, order := o.id, path := o.path, lanes := met
                         addr := ((bad.filter (fun a => badCause a == cause)).map (·.addr)).headD 0 }
  endOp s { o with lanes := keep }

/-! ### Forcing operations that an instruction waits for -/

/-- Translate an operation's remaining lanes at once. -/
def forceStages (s : State) (o : Op) : State × Op :=
  let (s, o) := o.lanes.foldl (fun (r : State × Op) a =>
    if !untranslated a then r else
    let (s, st) := if isAway r.1 o.w o.space a.addr then remoteXlat r.1 o.w (opAcc o.kind) a.addr
      else walk r.1 o.w (opAcc o.kind) (laneVif r.1 o.w o.space a.addr).2
    let a' := { a with stage := st }
    (markAtomic s r.2 a', { r.2 with lanes := r.2.lanes.map (fun b => if b.lane == a.lane then a' else b) })) (s, o)
  (setOp s o, o)

end Sys2Proof.Machine
end

