-- ==== Sys2Proof/Machine/Barrier.lean ====
section
/-! DEFINITION. Byte-counting barriers at their counting unit: tracking (R387), arrivals, completion and release (R391,
R393, R231), the error state (R394), and the arming of an object (R390). -/

namespace Sys2Proof.Machine

/-! ### Tracking (R387) -/

/-- The core of a bench object. -/
def objCore (o : Nat) : Nat := o / 2 / 16384

/-- The object of a bench barrier slot of a wave's crew. -/
def slotObj (s : State) (w slot : Nat) : Except Nat Nat :=
  let cr := getCrew s (getWave s w).crew
  if slot > 63 || 32 * slot + 32 > cr.benchSize then .error 0x101
  else .ok (benchObj (waveCore w) (cr.benchBase + 32 * slot))

/-- The unit cannot take one more object: a bench unit tracks at most 64; a memory object has no such limit. -/
def barFull (s : State) (o : Nat) : Bool :=
  o % 2 == 0 && !(getBar s o).tracked
    && (s.bars.filter (fun kv => kv.1 % 2 == 0 && objCore kv.1 == objCore o && kv.2.tracked)).length ≥ 64

/-- An instruction or a command names an object. -/
def track (s : State) (o : Nat) : State := modBar s o (fun b => { b with tracked := true })

/-- Work that counts into an object begins and ends. -/
def beginWork (s : State) (o : Nat) : State := modBar s o (fun b => { b with tracked := true, work := b.work + 1 })
def endWork (s : State) (o : Nat) : State := settle (modBar s o (fun b => { b with work := b.work - 1 })) o

/-! ### The counting cycle (R391) -/

/-- A wait of a wave on an object. -/
def waitsOn (o : Nat) (y : Wait) : Bool := match y.on with | .barrier o' _ => o' == o | _ => false

/-- A completion releases a parked wave: D takes the phase, the lanes become ready behind the acquire (R231, R393). -/
def releaseWaiter (o phase scope sig : Nat) (s : State) (w : Nat) : State :=
  let s := modWave s w (fun x =>
    let x := (x.waits.filter (waitsOn o)).foldl (fun x y => match y.on with | .barrier _ d => sPut x d phase | _ => x) x
    { x with waits := x.waits.filter (fun y => !waitsOn o y) })
  acquireSteps s w scope sig true

/-- An error entry traps a parked wave at its `WAITB` (R394). -/
def trapWaiter (o cause : Nat) (s : State) (w : Nat) : State :=
  let ys := (getWave s w).waits.filter (waitsOn o)
  let s := modWave s w (fun x =>
    let x := ys.foldl (fun x y => modLanes x y.lanes (atInstr y.pc y.head)) x
    { x with waits := x.waits.filter (fun y => !waitsOn o y) })
  raise s w { cause := cause, rank := 5, path := (ys.map (·.path)).headD 0
              lanes := ys.foldl (fun m y => m ||| y.lanes) 0 }

/-- Step 3: the error that stands enters the object (R394). -/
def errorEntry (s : State) (o : Nat) : State :=
  let b := getBar s o
  if b.error = 0 then s else
  let (s, x) := readObj s o
  let s := writeObj s o 14 5 (256 ^ 2 * (bytesAt x 16 1 ||| 4) + 256 ^ 3 * b.error)
  let s := b.parked.foldl (trapWaiter o b.error) s
  modBar s o (fun b => { b with parked := [], error := 0 })

/-- Step 4: the arrivals are added. -/
def addArrived (s : State) (o : Nat) : State :=
  let b := getBar s o
  if b.arrived = 0 then s else
  let (s, x) := readObj s o
  modBar (writeObj s o 8 6 ((objArrived x + b.arrived) % 2 ^ 48)) o (fun b => { b with arrived := 0 })

/-- An object completes. -/
def objFires (x : Nat) : Bool := objArmed x && !objErr x && objTarget x ≤ objArrived x

/-- Step 5: a completion, and the release of every parked wave. -/
def completeObj (s : State) (o : Nat) : State :=
  let (s, x) := readObj s o
  if !objFires x then s else
  let b := getBar s o
  let phase := (objPhase x + 1) % 65536
  let s := writeObj s o 6 8 (phase + 65536 * (objArrived x - objTarget x))
  let s := if objAuto x then s else writeObj s o 16 1 (bytesAt x 16 1 &&& 0xFE)
  let s := writeObj s o 14 2 ((objWaiters x + 65536 - b.parked.length % 65536) % 65536)
  let s := b.parked.foldl (releaseWaiter o phase (objScope x) b.sig.toNat) s
  modBar s o (fun b => { b with parked := [], sig := 0 })

/-- One cycle of the counting unit for one object: steps 3 to 5. -/
def countCycle (s : State) (o : Nat) : State := settle (completeObj (addArrived (errorEntry s o) o) o) o

/-- A cycle is due: arrivals or an error wait, or the object can complete. -/
def cycleDue (s : State) (o : Nat) : Bool :=
  let b := getBar s o
  b.arrived ≠ 0 || b.error ≠ 0 || ((b.tracked || !b.parked.isEmpty || o % 2 == 1) && objFires (readObj s o).2)

/-- The object as the unit holds it after the arrivals that have reached it. -/
def flushBar (s : State) (o : Nat) : State := if cycleDue s o then countCycle s o else s

/-- Bytes arrive at an object, with the lines that they wrote. -/
def arrive (s : State) (o n sig : Nat) : State :=
  modBar s o (fun b => { b with tracked := b.tracked || o % 2 == 1, arrived := b.arrived + n, sig := b.sig ||| BitVec.ofNat 256 sig })

/-- An error reaches an object: it enters its error state at once (R394, R395). -/
def failObj (s : State) (o cause : Nat) : State :=
  errorEntry (modBar s o (fun b => { b with tracked := b.tracked || o % 2 == 1, error := cause })) o

/-- Arm an object with target `t` and an FN field (R390): TARGET, ARRIVED, flags, SCOPE; PHASE and WAITERS stay. -/
def armObj (s : State) (o t fn : Nat) : State :=
  let s := track s o
  let s := writeObj s o 0 6 t
  let s := writeObj s o 8 6 0
  let s := writeObj s o 16 1 (1 + 2 * (fn / 8 % 2) + 16 * (fn % 8))
  let (s, x) := readObj s o
  let s := writeObj s o 17 2 (bytesAt x 17 2 / 1024 * 1024)
  modBar s o (fun b => { b with sig := 0 })

/-- A wave parks on an object: it is counted once in WAITERS (R393). -/
def parkOn (s : State) (o w : Nat) : State :=
  let b := getBar s o
  if b.parked.contains w then s
  else modBar (addWaiters s o 1) o (fun b => { b with tracked := true, parked := b.parked ++ [w] })

/-- WAITERS of an object as an instruction of the current wave finds it: a wait on which path A of its own cycle parked the wave comes
behind it (R391, R397). -/
def waitersNow (s : State) (o : Nat) : Nat :=
  objWaiters (readObj s o).2 - (if parkedNow s.wave s.wave.turnB o then 1 else 0)

/-- A bench object with waves parked overlaps the `n` bytes at an absolute bench offset of a core (R397). -/
def clobbers (s : State) (core off n : Nat) : Bool :=
  [off / 32, (off + n - 1) / 32].any (fun i =>
    (getBar s (benchObj core (32 * i))).tracked && waitersNow s (benchObj core (32 * i)) ≠ 0)

end Sys2Proof.Machine
end

