-- ==== Sys2Proof/Machine/Memory.lean ====
section
/-! DEFINITION. The memory instructions (R238 to R265): what each issues, what performing it does, and the waits on memory. -/

namespace Sys2Proof.Machine

/-! ### Address formation (R241) -/

/-- OFF12 or LIT32, sign-extended. -/
def off64 (m : F64M) : Int := sext m.off.toNat 12
def off96 (f : F96M) : Int := sext f.lit.toNat 32

/-- The address of a lane. -/
def laneAddr (x : Wave) (m : F64M) (off : Int) (l : Nat) : Nat :=
  let idx : Nat := match m.cb.toNat with | 0 => vGet x m.b.toNat l | 1 => sGet x m.b.toNat | _ => 0
  if m.sp == 1 || m.sp == 2 then truncI ((sGet x m.a.toNat : Int) + idx + off) 32
  else truncI ((sPair64 x m.a.toNat : Int) + sext idx 32 + off) 64

/-- Registers of `n` bytes from `d`, low register first. -/
def gatherRegs (x : Wave) (d l n : Nat) : Nat :=
  (List.range ((n + 3) / 4)).foldl (fun a i => a + vGet x (d + i) l * 2 ^ (32 * i)) 0 % 2 ^ (8 * n)

/-- Bytes of an atomic's operand: CAS holds two values (R249). -/
def atomBytes (m : F64M) : Nat := if m.fn4 == 9 then 2 * szBytes m.sz.toNat else szBytes m.sz.toNat

/-- The first vector register beyond the operands of an F64M instruction whose D is `n` bytes of vector registers. -/
def topM (m : F64M) (n : Nat) : Nat := max (if n = 0 then 0 else m.d.toNat + (n + 3) / 4) (if m.cb == 0 then m.b.toNat + 1 else 0)

/-! ### Order and scope at issue (R245, R246) -/

/-- The orders that an instruction accepts, its default order and scope, and the scopes it accepts. -/
structure MemRule where
  orders : List Nat
  order : Nat := 0
  scope : Nat := 0
  scopes : List Nat := [0, 1, 2, 3, 4, 5, 6, 7]

/-- The issuing path's slot is consumed. -/
def useSlot (s : State) : State := { s with wave := setSlot s.wave s.wave.turnB 0 }

/-- A slot that holds an order and scope. -/
def slotFor (order scope : Nat) : Nat := 128 + 16 * scope + order

/-- The order and scope that a faulting read took stand in its path's slot once the wave has stopped (R482). -/
def lateSlot (x : Wave) (path order scope : Nat) : Wave := { x with late := smSet x.late 0 path (slotFor order scope) }

/-- A memory instruction: the pending slot or the defaults give order and scope, and the slot is consumed; what it does not accept is
0x002, whatever the guard holds (R88, R127, R245). -/
def runMem (i : Instr) (g : BitVec 5) (space vregs : Nat) (r : MemRule) (s : State)
    (body : Path → Lanes → Nat → Nat → Res) : Out :=
  runInstr i g none 0 s fun p ex =>
    let x := s.wave
    let v := slotOf x x.turnB
    let order := if v ≥ 128 then v % 8 else r.order
    let scope := if v ≥ 128 then v / 16 % 8 else if space = 1 then 2 else r.scope
    if !r.orders.contains order || !r.scopes.contains scope || (space == 1 && scope > 2) then
      .fault (useSlot s) 0x002 (activeLanes x p) [] 0
    else if vregs > 8 * x.gran then .fault s 0x008 (activeLanes x p) [] 0
    else if ex == 0 then .done (useSlot s)
    else body p ex order scope

/-! ### Checks at issue (R242, R397) -/

/-- The lowest cause that a lane's address meets. -/
def laneCause (s : State) (w : Nat) (o : Op) (a : Nat) : Option Nat :=
  let n := opBytes o
  let cr := getCrew s (getWave s w).crew
  let sync := (o.kind == .load || o.kind == .acq || o.kind == .store || o.kind == .rel || o.kind == .atom || o.kind == .red)
    && (ordAcq o.order || ordRel o.order) && o.scope ≥ 3
  firstCause [
    (o.space == 0 && !canonical a, 0x104),
    (o.space == 3 && !canonical (xTarget a).2, 0x104),
    (o.space == 1 && a + n > cr.benchSize, 0x101),
    (o.space == 2 && (match vaultAddr s (getWave s w).vif a with | .error _ => true | .ok _ => false), 0x101),
    (a % n != 0, 0x107),
    (sync && a % 64 + n > 8, 0x10A),
    (o.space == 1 && opWrites o.kind && clobbers s (waveCore w) (cr.benchBase + a) n, 0x200)]

/-- The lanes that a check stops, with the cause of each. -/
def laneFaults (s : State) (w : Nat) (o : Op) : List (Nat × Nat) :=
  o.lanes.filterMap (fun a => (laneCause s w o a.addr).map (fun c => (a.lane, c)))

/-- A precise fault of lanes: the lowest cause that any lane met (R242). -/
def faultOf (s : State) (o : Op) (own : List (Nat × Nat)) : Res :=
  let c := own.foldl (fun c x => if c = 0 then x.2 else min c x.2) 0
  let met := maskOf ((own.filter (fun x => x.2 == c)).map (·.1))
  let addr := ((o.lanes.filter (fun a => met.getLsbD a.lane)).map (·.addr)).headD 0
  if o.operands.isEmpty then .fault s c met own addr else .fault s c o.ex [] addr

/-- Count an instruction at issue (R382). -/
def raiseCount (x : Wave) (c : Nat) : Wave :=
  if c = 1 then { x with ld := x.ld + 1 } else if c = 2 then { x with st := x.st + 1 } else x

/-- An operation as the issuing instruction leaves it. -/
def issued (i : Instr) (s : State) (p : Path) (ex : Lanes) (o : Op) : Op :=
  let x := s.wave
  { o with
    w := s.cur, path := if x.turnB then 1 else 0, pc := p.pc, parcels := encode i, vlimit := 8 * x.gran, ex := ex
    lanes := o.lanes.map (fun a => { a with stage := firstStage s s.cur o.space (opAcc o.kind) a.addr }) }

/-- Issue an operation: the address checks, a replay entry, its count (R242, R243). -/
def issueOp (i : Instr) (s : State) (p : Path) (ex : Lanes) (o : Op) : Res :=
  let o := { o with ex := ex }
  let own := laneFaults s s.cur o
  if !own.isEmpty then faultOf s o own
  else if entriesUsed s s.cur ≥ Config.replayLimit then .hold s .replay (some (slotFor o.order o.scope))
  else
    let s := useSlot s
    .done (enterOp { s with wave := raiseCount s.wave o.counter } { issued i s p ex o with entry := !o.lanes.isEmpty })

/-- The part of an operation that its words give. -/
def memOp (k : OpKind') (m : F64M) (counter : Nat) : Op :=
  { kind := k, space := m.sp.toNat, sz := m.sz.toNat, fn4 := m.fn4.toNat, d := m.d.toNat, counter := counter }

/-- The part of a per-lane memory operation that is decoded from its words again (R418). -/
def laneOp (i : Instr) : Option Op :=
  match i with
  | .ld64 m => some (memOp .load m 1)
  | .ld96 f => some (memOp .load f.m 1)
  | .st64 m => some (memOp .store m 2)
  | .st96 f => some (memOp .store f.m 2)
  | .atom64 m => some (memOp .atom m 1)
  | .atom96 f => some (memOp .atom f.m 1)
  | .red64 m => some (memOp .red m 2)
  | .red96 f => some (memOp .red f.m 2)
  | .cwb64 m => some (memOp .cwb m 2)
  | .cinv64 m => some (memOp .cinv m 2)
  | .rput64 m => some (memOp .rput m 2)
  | .rput96 f => some (memOp .rput f.m 2)
  | .rget64 m => some (memOp .rget m 1)
  | .rget96 f => some (memOp .rget f.m 1)
  | .ratom64 m => some (memOp .ratom m 1)
  | .ratom96 f => some (memOp .ratom f.m 1)
  | _ => none

/-- A per-lane memory instruction: `bytes` of D are read as data. -/
def runLanes (i : Instr) (m : F64M) (off : Int) (k : OpKind') (counter vbytes dbytes : Nat) (r : MemRule) (s : State) : Out :=
  runMem i m.g m.sp.toNat (topM m vbytes) r s fun p ex order scope =>
    let x := s.wave
    let acc (l : Nat) : LaneAcc := { lane := l, addr := laneAddr x m off l, data := gatherRegs x m.d.toNat l dbytes, poison := regPoison x m.d.toNat l dbytes }
    issueOp i s p ex { memOp k m counter with order := order, scope := scope, lanes := (lanesOf ex).map acc }

/-! ### Per-lane instructions (R247 to R252, R265) -/

def ldRule : MemRule := { orders := [0, 1, 4] }
def stRule : MemRule := { orders := [0, 2, 4] }
def atomRule : MemRule := { orders := [0, 1, 2, 3, 4], scope := 5 }
def redRule : MemRule := { orders := [0, 2, 4], scope := 5 }

def execLd64 (m : F64M) (s : State) : Out := runLanes (.ld64 m) m (off64 m) .load 1 (szBytes m.sz.toNat) 0 ldRule s
def execLd96 (f : F96M) (s : State) : Out := runLanes (.ld96 f) f.m (off96 f) .load 1 (szBytes f.m.sz.toNat) 0 ldRule s
def execSt64 (m : F64M) (s : State) : Out :=
  runLanes (.st64 m) m (off64 m) .store 2 (szBytes m.sz.toNat) (szBytes m.sz.toNat) stRule s
def execSt96 (f : F96M) (s : State) : Out :=
  runLanes (.st96 f) f.m (off96 f) .store 2 (szBytes f.m.sz.toNat) (szBytes f.m.sz.toNat) stRule s
def execAtom64 (m : F64M) (s : State) : Out := runLanes (.atom64 m) m (off64 m) .atom 1 (atomBytes m) (atomBytes m) atomRule s
def execAtom96 (f : F96M) (s : State) : Out := runLanes (.atom96 f) f.m (off96 f) .atom 1 (atomBytes f.m) (atomBytes f.m) atomRule s
def execRed64 (m : F64M) (s : State) : Out := runLanes (.red64 m) m (off64 m) .red 2 (atomBytes m) (atomBytes m) redRule s
def execRed96 (f : F96M) (s : State) : Out := runLanes (.red96 f) f.m (off96 f) .red 2 (atomBytes f.m) (atomBytes f.m) redRule s

/-- CWB and CINV: with `.all` the addresses are checked and not used (R242, R265). -/
def runCache (i : Instr) (m : F64M) (k : OpKind') (s : State) : Out :=
  runMem i m.g m.sp.toNat (topM m 0) { orders := [0], scope := 4 } s fun p ex order scope =>
    let acc (l : Nat) : LaneAcc := { lane := l, addr := laneAddr s.wave m (off64 m) l }
    let o : Op := { memOp k m 2 with order := order, scope := scope, lanes := (lanesOf ex).map acc }
    let own := laneFaults s s.cur o
    if !own.isEmpty then faultOf s o own
    else issueOp i s p ex { o with lanes := if m.fn4 == 1 then [] else o.lanes }

def execCwb64 (m : F64M) (s : State) : Out := runCache (.cwb64 m) m .cwb s
def execCinv64 (m : F64M) (s : State) : Out := runCache (.cinv64 m) m .cinv s

/-! ### PREF (R264) -/

/-- Fill one lane's line; a fault drops it. -/
def prefetch (s : State) (m : F64M) (lane addr : Nat) : State :=
  let w := s.cur
  let core := waveCore w
  let sp := m.sp.toNat
  if !canonical (if sp = 3 then (xTarget addr).2 else addr) then s else
  let (s, st) := match firstStage s w sp 0 addr with
    | .need => if isAway s w sp addr then remoteXlat s w 0 addr else walk s w 0 (laneVif s w sp addr).2
    | st => (s, st)
  match st with
  | .ready pa mode _ _ =>
    let l := lineOf pa
    if poisoned s (l * 128) 128 then s else
    match m.fn4.toNat with
    | 0 => (readL1 (share s core mode pa) (threadOf w lane) l true).1
    | 1 => (readCC (share s core mode pa) (threadOf w lane) l).1
    | _ => (readL2 s (coreDie core) l).1
  | _ => s

def runPref (i : Instr) (m : F64M) (off : Int) (s : State) : Out :=
  runMem i m.g m.sp.toNat (topM m 0) { orders := [0], scope := 4 } s fun _ ex _ _ =>
    let x := s.wave
    .done ((lanesOf ex).foldl (fun s l => prefetch s m l (laneAddr x m off l)) (useSlot s))

def execPref64 (m : F64M) (s : State) : Out := runPref (.pref64 m) m (off64 m) s
def execPref96 (f : F96M) (s : State) : Out := runPref (.pref96 f) f.m (off96 f) s

/-! ### DEVL (R259) -/

/-- A buffer that covers an address, as a lane's stage. -/
def bufStage (s : State) (vif addr : Nat) : LaneStage :=
  match bufEntry s vif addr with | some (i, _) => .ready addr 0 0 (i + 1) | none => .bad 0x10C

def execDevl64 (m : F64M) (s : State) : Out :=
  runMem (.devl64 m) m.g 0 (topM m 0) { orders := [0, 2, 4], order := 2, scope := 5 } s fun p ex order scope =>
    let x := s.wave
    let addr := laneAddr x m (off64 m) 0
    let o : Op := { memOp .devl m 2 with order := order, scope := scope, lanes := [{ addr := addr }], ex := ex
                                         operands := [if m.fn4 == 1 then sGet x m.d.toNat else 0, sPair64 x m.a.toNat,
                                                      if m.cb == 1 then sGet x m.b.toNat else 0, 0] }
    let own := laneFaults s s.cur o
    if !own.isEmpty then faultOf s o own
    else if entriesUsed s s.cur ≥ Config.replayLimit then .hold s .replay (some (slotFor order scope))
    else
      let o := issued (.devl64 m) s p ex o
      let o := { o with entry := true, lanes := o.lanes.map (fun a => { a with stage := bufStage s x.vif addr }) }
      let s := useSlot s
      .done (enterOp { s with wave := raiseCount s.wave 2 } o)

/-! ### ORD, FENCE, REL, ACQ (R244, R256 to R258) -/

def execOrd64 (f : F64R) (s : State) : Out :=
  runWide (.ord64 f) f.g none s fun _ _ =>
    .done { s with wave := setSlot s.wave s.wave.turnB (slotFor (f.fn.toNat % 8) (f.fn.toNat / 8)) }

/-- FENCE with an FN field of SCOPE and ORDER; a relaxed one is 0x002. -/
def runFence (i : Instr) (g : BitVec 5) (fn : Nat) (s : State) : Out :=
  runWide i g (if fn % 8 = 0 then some 0x002 else none) s fun p ex =>
    .done (enterOp s (issued i s p ex { kind := .fence, order := fn % 8, scope := fn / 8 }))

def execFence32 (f : F32Z) (s : State) : Out := runFence (.fence32 f) f.g (f.fn.toNat % 64) s
def execFence64 (f : F64R) (s : State) : Out := runFence (.fence64 f) f.g f.fn.toNat s

/-- Issue REL or ACQ: the slot is not used, they carry their own order. -/
def issueScalar (i : Instr) (s : State) (p : Path) (ex : Lanes) (o : Op) : Res :=
  let o := { o with ex := ex }
  let own := laneFaults s s.cur o
  if !own.isEmpty then faultOf s o own
  else if entriesUsed s s.cur ≥ Config.replayLimit then .hold s .replay (some (slotOf s.wave s.wave.turnB))
  else .done (enterOp { s with wave := raiseCount s.wave o.counter } { issued i s p ex o with entry := true })

/-- A scalar pair lies in a poisoned granule. -/
def scalarPoison (x : Wave) (r : Nat) : Bool := [r / 8, (r + 1) / 8].any (fun g => smGet x.poison false (1024 + g))

def execRel64 (f : F64R) (s : State) : Out :=
  runWide (.rel64 f) f.g none s fun p ex =>
    let x := s.wave
    let addr := sPair64 x f.a.toNat
    let v := if f.cb == 3 then truncI (sext f.b.toNat 8) 64 else sPair64 x f.b.toNat
    issueScalar (.rel64 f) s p ex { kind := .rel, order := f.fn.toNat % 8, scope := f.fn.toNat / 8, sz := 5, counter := 2
                                    lanes := [{ addr := addr, data := v, poison := f.cb != 3 && scalarPoison x f.b.toNat }]
                                    operands := [0, addr, v, 0] }

def execAcq64 (f : F64R) (s : State) : Out :=
  runWide (.acq64 f) f.g none s fun p ex =>
    let addr := sPair64 s.wave f.a.toNat
    issueScalar (.acq64 f) s p ex { kind := .acq, order := f.fn.toNat % 8, scope := f.fn.toNat / 8, sz := 5, counter := 1
                                    d := f.d.toNat, lanes := [{ addr := addr }], operands := [0, addr, 0, 0] }

/-! ### Performing an operation -/

/-- The effect of the `.all` form of CWB and CINV (R265). -/
def cacheAll (s : State) (core scope : Nat) (inval : Bool) : State :=
  let s := if scope ≥ 3 then
      (linesOf s 0 core).foldl (fun s l => if inval then evictL1 s core l.1 else cleanL1 s core l.1) s
    else s
  let s := if scope ≥ 4 then
      (linesOf s 1 (coreCluster core)).foldl (fun s l =>
        if inval then evictCC s (coreCluster core) l.1 else cleanCC s (coreCluster core) l.1) s
    else s
  if inval then s else
  let s := if scope ≥ 6 then flushFar s (corePkg core) (isRemote (corePkg core)) else s
  if scope ≥ 7 then flushFar s (corePkg core) isPool else s

/-- Evict every cached copy, anywhere, of the lines that satisfy `p`: L1s, then cluster caches, then L2s. -/
def evictWhere (s : State) (p : Nat → Bool) : State :=
  let at' (s : State) (lv : Nat) (f : State → Nat → Nat → State) : State :=
    s.cache.foldl (fun s kv =>
      if kv.1 / 2 ^ 53 / 131072 = lv ∧ p (kv.1 % 2 ^ 53) then f s (kv.1 / 2 ^ 53 % 131072) (kv.1 % 2 ^ 53) else s) s
  at' (at' (at' s 0 evictL1) 1 evictCC) 2 evictL2

/-- The buffer's address lies in a backing. -/
def inSpan (base len a : Nat) : Bool := base ≤ a && a < base + len

/-- The new published contents of a buffer of `len` bytes (R209): the marked bytes of the latent backing `lat`, the bytes of
the published backing `pub` elsewhere; no byte stays marked. -/
def mergeBackings (s : State) (pub lat len : Nat) : State :=
  let marked (a : Nat) : Bool := smGet s.latent false a
  let kept := s.mem.filter (fun kv => !inSpan lat len kv.1 || marked kv.1)
  let mem := (s.mem.filter (fun kv => inSpan pub len kv.1 && !marked (lat + (kv.1 - pub)))).foldl
    (fun (m : Memory) kv => m.write (lat + (kv.1 - pub)) kv.2) kept
  let any (q : Nat → Bool) (g : Nat) : Bool := (List.range 32).any (fun i => q (32 * g + i))
  let own := s.poison.filter (fun kv => !inSpan (lat / 32) (len / 32) kv.1 || any marked kv.1)
  let poison := (s.poison.filter (fun kv => inSpan (pub / 32) (len / 32) kv.1)).foldl (fun m kv =>
    let g := lat / 32 + (kv.1 - pub / 32)
    if any (fun a => !marked a) g then smSet m false g true else m) own
  { s with mem := mem, poison := poison
           latent := s.latent.filter (fun kv => !inSpan lat len kv.1 && !inSpan pub len kv.1) }

/-- Accesses to a buffer that have not been performed reach the backing that is published now (R209, R372): those of entry `i` of an
interface that stood in the backing `pub` of `len` bytes stand in `lat`, and so do their atomic-pending marks. -/
def retarget (s : State) (vif i pub lat len : Nat) : State :=
  let mine (o : Op) (a : LaneAcc) : Option Nat := match a.stage with
    | .ready pa _ _ buf => if buf = i + 1 && inSpan pub len pa && (laneVif s o.w o.space a.addr).1 == vif then some pa else none
    | _ => none
  let moved (a : LaneAcc) (pa : Nat) : LaneAcc := match a.stage with
    | .ready _ mode pte buf =>
      { a with stage := if offLimits s vif (lat + (pa - pub)) then .bad 0x108 else .ready (lat + (pa - pub)) mode pte buf }
    | _ => a
  let ids := (s.ops.filter (fun o => o.lanes.any (fun a => (mine o a).isSome))).map (·.id)
  { s with
    ops := s.ops.map (fun o => { o with lanes := o.lanes.map (fun a => match mine o a with | some pa => moved a pa | none => a) })
    atomPend := s.atomPend.map (fun k =>
      if ids.contains k.op && inSpan pub len (k.line * 128) then { k with line := lineOf (lat + (k.line * 128 - pub)) } else k) }

/-- Publish buffer map entry `i` of an interface: the merge, the toggle of SEL, the generation, the dirty bitmap (R196, R209,
R372); the answer is the new generation. DESIGN CHOICE (log entry 64): the bitmap takes every granule of the buffer, whose published
contents are then those of another backing. -/
def publish (s : State) (vif i e : Nat) : State × Nat :=
  let len := bytesAt e 8 4 * 65536
  let pub := bufPhys e (bytesAt e 0 8) false
  let lat := bufPhys e (bytesAt e 0 8) true
  let s := evictWhere s (fun l => inSpan pub len (l * 128) || inSpan lat len (l * 128))
  let s := retarget (mergeBackings s pub lat len) vif i pub lat len
  let gen := (bytesAt e 12 2 + 1) % 65536
  let a := partField s vif 32 8 + 32 * i + 12
  let s := homeBytes s a 3 (gen + 65536 * (bytesAt e 14 1 ^^^ 2))
  let s := (List.range (bytesAt e 8 4)).foldl (fun s k => markBitmap s vif (bytesAt e 0 8 + 65536 * k)) s
  (s, gen)

/-- The wave's virtual interface sees the buffer entry of an address published or not (R259). -/
def applyDevl (s : State) (o : Op) : State × Op :=
  let (s, o) := beginOp s o
  let vif := (getWave s o.w).vif
  let a := o.lanes.headD {}
  match bufEntry s vif a.addr with
  | none => (s, { o with lanes := [{ a with stage := .bad 0x10C }] })
  | some (i, e) =>
    let gen := bytesAt e 12 2
    if o.fn4 % 2 = 1 ∧ gen ≠ o.operands.headD 0 % 65536 then
      (modWave s o.w (fun x => sPut x o.d (gen + 2 ^ 31)), { o with lanes := [] })
    else
      let (s, g) := publish s vif i e
      (modWave s o.w (fun x => sPut x o.d g), { o with lanes := [] })

/-- The lane of a memory object: its object and what a write through its page records. -/
def objLane (s : State) (o : Op) (a : LaneAcc) : Option (State × Nat) :=
  match a.stage with
  | .ready pa _ pte buf =>
    some (if pte = 0 && buf = 0 then s else recordWrite s (getWave s o.w).vif a.addr pte, memObj pa)
  | _ => none

/-- A memory `BARI` reaches its object (R390): waves that wait there, as `held` finds them, make it fault, and a grain that it may not
write (R198). -/
def armMem (held : State → Nat → Bool) (s : State) (o : Op) : State × Op :=
  let a := o.lanes.headD {}
  if grainFault s o then (s, { o with lanes := [{ a with stage := .bad 0x103 }] }) else
  match objLane (takeGrains s o) o a with
  | none => (s, o)
  | some (s1, obj) =>
    let s2 := flushBar s1 obj
    if held s2 obj then (s, { o with lanes := [{ a with stage := .bad 0x200 }] })
    else (settle (armObj s2 obj o.extra o.fn4) obj, { o with lanes := [] })

def applyBari (s : State) (o : Op) : State × Op := armMem (fun s obj => objWaiters (readObj s obj).2 ≠ 0) s o

/-- A `BADD` adds to its object behind its release (R392). -/
def applyBadd (s : State) (o : Op) : State × Op :=
  let (s, o) := beginOp s o
  if o.space = 1 then
    (endWork (countCycle (arrive s o.obj o.extra o.relSig) o.obj) o.obj, o)
  else
    let a := o.lanes.headD {}
    if grainFault s o then (s, { o with lanes := [{ a with stage := .bad 0x103 }] }) else
    match objLane (takeGrains s o) o a with
    | none => (s, o)
    | some (s, obj) => (countCycle (arrive s obj o.extra o.relSig) obj, { o with lanes := [] })

/-- Perform the lanes of an operation that satisfy `p`, deliver what they give, and end the operation with its last lane. -/
def performLanes (s : State) (o : Op) (p : LaneAcc → Bool) : State :=
  let (s, o) := applyLanes s o p
  let (s, o) := deliver s o
  endOp s o

/-- Perform an operation that nothing holds back, as far as its lanes are translated. -/
def performOp (s : State) (o : Op) : State :=
  match o.kind with
  | .fence => dropOp (fenceSteps s o.w o.order o.scope) o.id
  | .cwb | .cinv =>
    let inval := o.kind == .cinv
    let core := waveCore o.w
    let s := if o.fn4 % 2 = 1 then cacheAll s core o.scope inval
      else o.lanes.foldl (fun s a => match stagePa a with
        | some pa => cacheLine s core o.scope inval (lineOf pa) | none => s) s
    let o := { o with lanes := o.lanes.filter (fun a => !isReady a) }
    endOp (setOp s o) o
  | .devl =>
    if o.lanes.any isBad then s else
    let (s, o) := applyDevl s o
    endOp (setOp s o) o
  | .bari =>
    let (s, o) := applyBari s o
    endOp (setOp s o) o
  | .badd =>
    let (s, o) := applyBadd s o
    endOp (setOp s o) o
  | .rput | .rget | .ratom | .tdone => s
  | _ => performLanes s o (fun _ => true)

/-! ### What a waiting read waits for -/

/-- Complete an operation at once, its faults found; network accesses and task completions run by themselves. -/
def forceOp (s : State) (o : Op) : State :=
  match o.kind with
  | .rput | .rget | .ratom | .tdone => s
  | .devl => performOp s o
  | _ => let (s, o) := forceStages s o; performOp s o

/-- Complete the operations of the wave that stand before a read, oldest first; a fault of theirs stops the wave behind its cycle. -/
def settleOps (s : State) (w : Nat) : List Op → State
  | [] => s
  | b :: rest =>
    let s := if b.w == w then (match getOp s b.id with | some o => forceOp s o | none => s) else s
    let s := match getOp s b.id with | some o => if o.lanes.any isBad then foundFault s o else s | none => s
    settleOps s w rest

/-- The operations up to the last one that blocks the read `q`. -/
def blockersOf (s : State) (q : Op) : List Op :=
  let n := (s.ops.filter (fun b => blocks b q)).foldl (fun m b => max m (b.id + 1)) 0
  s.ops.filter (fun b => b.id < n)

/-! ### WAITA and POLL (R261 to R263, R482) -/

/-- The location of a waiting read, translated at once. -/
def locateFor (s : State) (w acc space addr : Nat) : State × LaneStage :=
  match firstStage s w space acc addr with
  | .need => if isAway s w space addr then remoteXlat s w acc addr else walk s w acc (laneVif s w space addr).2
  | st => (s, st)

def locate (s : State) (w space addr : Nat) : State × LaneStage := locateFor s w 0 space addr

/-- Read the location of a wait at its read point. -/
def readWait (s : State) (w space scope mode pa n : Nat) : State × Except Nat Nat :=
  if lanePoisoned s (space == 1) pa n then (s, .error 0x109)
  else
    let (s, v) := laneRead s (threadOf w 0) space scope 0 mode pa n
    (s, .ok v)

/-- The acquire that a successful waiting read is (R261, R263). -/
def waitAcquire (s : State) (w space order scope pa : Nat) : State :=
  if ordAcq order && scope ≥ 3 && space != 1 then
    let (s, c) := readBytes s (threadOf w 0) (readPoint (waveCore w) scope pa (space == 2)) (pa / 64 * 64) 64 true
    acquireSteps s w scope (syncSig c) false
  else s

/-- The common part of WAITA and POLL: the checks, what stands before the read, the fence of a seq_cst read, the read. The
continuation gets the location, its mode, and the value. -/
def runWait (i : Instr) (m : F64M) (s : State) (body : Lanes → Nat → Nat → Nat → Nat → Nat → State → Res) : Out :=
  runMem i m.g m.sp.toNat (topM m 0) { orders := [0, 1, 4], scope := 5 } s fun p ex order scope =>
    let x := s.wave
    let w := s.cur
    let addr := laneAddr x m (off64 m) 0
    let q : Op := { memOp .load m 0 with w := w, path := if x.turnB then 1 else 0, id := s.nextId, order := order, scope := scope, ex := ex
                                         lanes := [{ addr := addr, stage := firstStage s w m.sp.toNat 0 addr }], operands := [0], cycle := x.cycle }
    let own := laneFaults s w q
    if !own.isEmpty then faultOf s q own else
    if entriesUsed s w ≥ Config.replayLimit then .hold s .replay (some (slotFor order scope)) else
    let s1 := settleOps s w (blockersOf s q)
    let keep (s : State) : State := { s with wave := lateSlot s.wave (if x.turnB then 1 else 0) order scope }
    let late (s : State) (c : Nat) : Res := .late (keep s) c (activeLanes x p) addr
    if !unblocked s1 q then .hold s1 .now (some (slotFor order scope)) else
    let (s2, st) := locate s1 w m.sp.toNat addr
    match st with
    | .ready pa mode _ _ =>
      let s3 := if order = 4 then fenceSteps s2 w 4 scope else s2
      match readWait s3 w m.sp.toNat scope mode pa (szBytes m.sz.toNat) with
      | (s4, .ok v) => body ex order scope pa mode v s4
      | (s4, .error c) => late s4 c
    | .bad c => late s2 c
    | _ => .stop s2

/-- D of a waiting read. -/
def waitD (x : Wave) (m : F64M) : Nat := if m.sz == 5 then sPair64 x m.d.toNat else sGet x m.d.toNat
def putWaitD (x : Wave) (n d v : Nat) : Wave := if n = 8 then sPutPair x d v else sPut x d v

/-- The watch table of a read point holds 64 entries (R262). -/
def watchers (s : State) (w space scope pa : Nat) : Nat :=
  let key (w space scope pa : Nat) : Nat × Nat :=
    if space = 1 then (0, waveCore w)
    else match readPoint (waveCore w) scope pa (space == 2) with
      | .l1 => (1, waveCore w)
      | .cc => (2, coreCluster (waveCore w))
      | .l2 d => (3, 128 * d + sliceOf pa)
      | .mem => (4, pa / 0x400000)
  ((allWaves s).flatMap (fun v => v.2.waits.filter (fun y => match y.on with
    | .value y => !y.reread && key v.1 y.space y.scope y.pa == key w space scope pa
    | _ => false))).length

def execWaita64 (m : F64M) (s : State) : Out :=
  if inTrap s.wave then runWide (.waita64 m) m.g (some 0x002) s fun _ _ => .done s
  else runWait (.waita64 m) m s fun _ order scope pa _ v s' =>
    let n := szBytes m.sz.toNat
    let cmp := waitD s.wave m
    let s' := useSlot s'
    if v ≠ cmp then
      let s' := waitAcquire s' s'.cur m.sp.toNat order scope pa
      .done { s' with wave := putWaitD s'.wave n m.d.toNat v }
    else
      let full := watchers s' s'.cur m.sp.toNat scope pa ≥ Config.watchTable
      let y : Watch := { addr := laneAddr s.wave m (off64 m) 0, space := m.sp.toNat, pa := pa, size := n, cmp := cmp, order := order
                         scope := scope, timeout := m.fn4.toNat, d := m.d.toNat, reread := full }
      .park { s' with wave := parkPath s'.wave (.value y) }

/-- POLL's condition (R263). -/
def pollHolds (c v d : Nat) : Bool :=
  match c with | 0 => v == d | 1 => v != d | 2 => v &&& d != 0 | _ => decide (v ≥ d)

def execPoll64 (m : F64M) (s : State) : Out :=
  runWait (.poll64 m) m s fun _ order scope pa _ v s' =>
    let x := s'.wave
    if pollHolds (m.fn4.toNat % 4) v (waitD x m) then
      let s' := waitAcquire (useSlot s') s'.cur m.sp.toNat order scope pa
      .done { s' with wave := putWaitD { s'.wave with wsw := setBits s'.wave.wsw 20 17 0 } (szBytes m.sz.toNat) m.d.toNat v }
    else
      .hold { s' with wave := { x with wsw := setBits x.wsw 20 17 (min 8 (boff x + 1)) } } .now (some (slotFor order scope))

end Sys2Proof.Machine
end

