-- ==== Sys2Proof/Machine/Records.lean ====
section
/-! DEFINITION. Reservation records, convergence registers and the issue of tile operations (R115, R266 to R281). -/

namespace Sys2Proof.Machine

/-! ### Shape records (R89, R90) -/

/-- A parameter word as used: a marker reads its scalar. -/
def param (x : Wave) (w : Word) : Word := if w.getLsbD 31 then BitVec.ofNat 32 (sGet x (natBits w.toNat 7 0)) else w

/-- The instruction with the words that it uses. -/
def withParams (x : Wave) (f : F64P) : F64P :=
  { f with w0 := param x f.w0, w1 := param x f.w1, w2 := param x f.w2, w3 := param x f.w3 }

/-! ### Fields of a record (R270) -/

def recFmt (r : ObRec) : Nat := natBits r.w0.toNat 30 28
def recObn (r : ObRec) : Nat := natBits r.w0.toNat 27 19
def recBase (r : ObRec) : Nat := natBits r.w0.toNat 18 0
def recState (r : ObRec) : Bool := r.w1.getLsbD 15
def recRoleB (r : ObRec) : Bool := r.w1.getLsbD 14
def recSparse (r : ObRec) : Bool := r.w1.getLsbD 13
def recN (r : ObRec) : Nat := match natBits r.w1.toNat 12 11 with | 0 => 6 | 1 => 8 | 2 => 12 | _ => 16
def recLen (r : ObRec) : Nat := natBits r.w1.toNat 9 0
def recScale (r : ObRec) : Nat := natBits r.w2.toNat 18 0
def recMask (r : ObRec) : Nat := natBits r.w3.toNat 18 0

/-! ### Panels (R268, R269, R271) -/

/-- A matrix format with an exponent set, and its planes. -/
def fmtFloat (c : Nat) : Bool := c < 4
def fmtPlanes (c : Nat) : Nat := match c with | 0 => 3 | 1 => 4 | 2 => 8 | 3 => 11 | 4 => 8 | 5 => 8 | _ => 4
def fmtKind (c : Nat) : FKind := match c with | 0 => .e5m2 | 1 => .e4m3 | 2 => .bf16 | _ => .fp16
def fmtSigned (c : Nat) : Bool := c == 4 || c == 6

/-- Bytes of the exponent set and of a panel of `n` elements, and the stride of panels. -/
def expBytes (c n : Nat) : Nat := if fmtFloat c then 2 * n else 0
def panelBytes (c n : Nat) : Nat := expBytes c n + fmtPlanes c * (n / 8)
def panelStride (c n : Nat) : Nat := (panelBytes c n + 255) / 256 * 256

/-- Elements of a record's panel, and its stride. -/
def recElems (r : ObRec) : Nat := if recSparse r then 64 * recN r else 1536
def recStride (r : ObRec) : Nat := panelStride (recFmt r) (recElems r)

/-- Bytes of the Q4N scale area of an operand of `ks` K-steps (R269). -/
def scaleArea (ks : Nat) : Nat := 4 * ((24 * ks + 3) / 4) + 4 * ((24 * ks + 255) / 256)

/-! ### Running (R88, R115, R266) -/

/-- The crew of the current wave. -/
def myCrew (s : State) : Crew := getCrew s s.wave.crew

/-- Change the crew of the current wave. -/
def modMyCrew (s : State) (f : Crew → Crew) : State := modCrew s s.wave.crew f

/-- The allocation check of R115. -/
def unitCause (c : Crew) (tiles cvs obs : List Nat) : Option Nat :=
  if tiles.any (fun n => n ≥ c.tiles.length) || cvs.any (fun n => n ≥ c.cvs.length) then some 0x287
  else if obs.any (fun n => n ≥ c.obs.length) then some 0x289
  else none

/-- A matrix instruction: a shadow wave takes 0x002; the allocation check; a cause of its own; then its effect. -/
def runMatrix (i : Instr) (g : BitVec 5) (pre : Option Nat) (vregs : Nat) (tiles cvs obs : List Nat) (s : State)
    (cause : Crew → Option Nat) (body : Path → Lanes → Res) : Out :=
  runInstr i g (if s.wave.shadow then some 0x002 else pre) vregs s fun p ex =>
    if ex == 0 then .done s else
    match unitCause (myCrew s) tiles cvs obs with
    | some c => .fault s c ex [] 0
    | none => match cause (myCrew s) with
      | some c => .fault s c ex [] 0
      | none => body p ex

/-! ### RSV and RLS (R271, R272) -/

/-- The operations that the engine of a core holds, armed and issued. -/
def coreTileOps (s : State) (core : Nat) : List TileOp :=
  ((s.crews.filter (fun kv => kv.2.core == core)).flatMap (fun kv => kv.2.cv.flatMap (fun c => c.2.arm)))
    ++ (getCore s core).engine

/-- The runs of operand-buffer units in use on a core: its set records but one, and the units that operations hold. -/
def usedUnits (s : State) (core crew ob : Nat) : List (Nat × Nat) :=
  ((s.crews.filter (fun kv => kv.2.core == core)).flatMap (fun kv =>
      (kv.2.ob.filter (fun r => r.2.set && !(kv.1 == crew && r.1 == ob))).map (fun r => (r.2.unit, recObn r.2))))
    ++ (coreTileOps s core).flatMap (fun o => ([o.ra, o.rb, o.rc].filter (·.set)).map (fun r => (r.unit, recObn r)))

/-- The lowest free run of `n` units. -/
def freeRun (used : List (Nat × Nat)) (n : Nat) : Option Nat :=
  if n = 0 then some 0 else
  (List.range (Config.obUnits + 1 - n)).find? (fun u => used.all (fun r => u + n ≤ r.1 || r.1 + r.2 ≤ u))

/-- A record's words are reserved (0x002) or belong to a disabled feature (0x004). -/
def recEncCause (s : State) (r : ObRec) : Option Nat :=
  firstCause [
    (r.w0.getLsbD 31 || natBits r.w1.toNat 31 16 != 0 || r.w1.getLsbD 10 || natBits r.w2.toNat 31 19 != 0
      || natBits r.w3.toNat 31 19 != 0, 0x002),
    (recState r && (recFmt r != 0 || recObn r != 0 || natBits r.w1.toNat 14 11 != 0 || recScale r != 0 || recMask r != 0), 0x002),
    (recSparse r && !hasFeature s s.wave.vif 3, 0x004),
    (recFmt r == 7 && !recState r && !hasFeature s s.wave.vif 4, 0x004)]

/-- The checks of R271 on a record against a bench allocation of `size` bytes. DESIGN CHOICE (log entry 36): SCALE or MASK that is no
multiple of 4, for which R270 asks and R271 names no cause, is 0x287 too. -/
def recRange (r : ObRec) (size : Nat) : Bool :=
  let q4n := recFmt r == 7
  let ks := recLen r
  if recState r then recBase r % 256 != 0 || recBase r + ks * 256 > size || ks < 25
  else recBase r % 256 != 0 || recBase r + ks * recStride r > size || ks == 0 || recObn r < 2 * recStride r / 256
    || (q4n && !recRoleB r) || (q4n && (recScale r % 4 != 0 || recScale r + scaleArea ks > size)) || (!q4n && recScale r != 0)
    || (recSparse r && recRoleB r) || (recSparse r && (recMask r % 4 != 0 || recMask r + 256 * ks > size))
    || (!recSparse r && recMask r != 0)

def execRsv64 (f : F64P) (s : State) : Out :=
  let f' := withParams s.wave f
  let r : ObRec := { set := true, w0 := f'.w0, w1 := f'.w1, w2 := f'.w2, w3 := f'.w3 }
  let n := f.r.d.toNat % 32
  let run := freeRun (usedUnits s (waveCore s.cur) s.wave.crew n) (recObn r)
  runMatrix (.rsv64 f) f.r.g (recEncCause s r) 0 [] [] [n] s
    (fun c => firstCause [(recRange r c.benchSize, 0x287), (run.isNone, 0x288)])
    fun _ _ => .done (modMyCrew s (fun c => { c with ob := smSet c.ob {} n { r with unit := run.getD 0 } }))

/-- `RLS` frees the record and its units; W0 to W3 stay (R270). -/
def execRls64 (f : F64R) (s : State) : Out :=
  let n := f.d.toNat % 32
  runMatrix (.rls64 f) f.g none 0 [] [] [n] s (fun _ => none)
    fun _ _ => .done (modMyCrew s (fun c => { c with ob := smMod c.ob {} n (fun r => { r with set := false, unit := 0 }) }))

/-! ### Convergence registers (R274 to R278) -/

def getCv (c : Crew) (n : Nat) : CvReg := smGet c.cv {} n

/-- The declared set as a mask. -/
def cvSet (v : CvReg) : BitVec 1024 := BitVec.ofNat 1024 ((2 ^ v.count - 1) * 2 ^ v.first)

/-- A scalar or an 8-bit immediate, zero-extended. -/
def sOrImm (x : Wave) (cls : BitVec 2) (f : BitVec 8) : Nat := if cls == 1 then sGet x f.toNat else f.toNat

def execCvdecl64 (f : F64R) (s : State) : Out :=
  let b := sOrImm s.wave f.cb f.b
  let n := sOrImm s.wave f.cc f.c
  let k := f.d.toNat % 32
  runMatrix (.cvdecl64 f) f.g none 0 [] [k] [] s
    (fun c => if n = 0 || b + n > c.threads || (getCv c k).signed != 0 || !(getCv c k).arm.isEmpty then some 0x28C else none)
    fun _ _ => .done (modMyCrew s (fun c => { c with cv := smSet c.cv {} k { first := b, count := n } }))

/-- Tile operations enter the engine of a core. -/
def enterEngine (s : State) (core : Nat) (l : List TileOp) : State :=
  modCore s core (fun c => { c with engine := c.engine ++ l })

/-- A round of a register closes (R276); whether the credit was full. -/
def closeRound (s : State) (k : Nat) (v : CvReg) : State × Bool :=
  let v' := { v with round := (v.round + 1) % 65536, signed := 0 }
  let put (v : CvReg) : State := modMyCrew s (fun c => { c with cv := smSet c.cv {} k v })
  if !v.arm.isEmpty then (enterEngine (put { v' with arm := [] }) (waveCore s.cur) v.arm, false)
  else if v.credit = 15 then (put v', true)
  else (put { v' with credit := v.credit + 1 }, false)

/-- SIGN of `cv` register `k`. -/
def runSign (i : Instr) (g : BitVec 5) (k : Nat) (s : State) : Out :=
  runMatrix i g none 0 [] [k] [] s (fun _ => none) fun _ ex =>
    let v := getCv (myCrew s) k
    let th (l : Nat) : Nat := 32 * s.wave.idx + l
    let own := (lanesOf ex).filterMap (fun l => (firstCause [
      (v.count == 0, 0x28C), (v.count != 0 && (th l < v.first || th l ≥ v.first + v.count), 0x284), (v.signed.getLsbD (th l), 0x282)]).map (fun c => (l, c)))
    if !own.isEmpty then
      let c := own.foldl (fun c x => if c = 0 then x.2 else min c x.2) 0
      .fault s c (maskOf ((own.filter (fun x => x.2 == c)).map (·.1))) own 0
    else
      let v := { v with signed := (lanesOf ex).foldl (fun m l => m ||| BitVec.ofNat 1024 (2 ^ th l)) v.signed }
      if v.signed == cvSet v then
        let (s', full) := closeRound s k v
        if full then .fault s' 0x286 ex [] 0 else .done s'
      else .done (modMyCrew s (fun c => { c with cv := smSet c.cv {} k v }))

def execSign32 (f : F32A) (s : State) : Out := runSign (.sign32 f) f.g (f.d.toNat % 32) s
def execSign64 (f : F64R) (s : State) : Out := runSign (.sign64 f) f.g (f.d.toNat % 32) s

/-! ### Tile operations at issue (R279 to R283, R85) -/

def getOb (c : Crew) (n : Nat) : ObRec := smGet c.ob {} n

/-- The operand of a register field as an instruction reads it for a trap frame or a replay entry. -/
def readSource (x : Wave) (cls : BitVec 2) (f : BitVec 8) : Nat := if cls == 1 then sPair64 x f.toNat else 0

/-- A tile operation as it leaves the issuing wave. -/
def tileOp (i : Instr) (s : State) (p : Path) (ex : Lanes) (tile : Nat) : TileOp :=
  { w := s.cur, path := if s.wave.turnB then 1 else 0, instr := i, pc := p.pc, parcels := encode i, crew := s.wave.crew
    tile := tile, lanes := ex, vlimit := 8 * s.wave.gran, seq := s.nextId }

/-- Count a tile operation (R128), and draw its place in issue order. -/
def countTile (s : State) : State := { s with wave := { s.wave with tile := s.wave.tile + 1 }, nextId := s.nextId + 1 }

/-- A counted operation enters the engine at issue; one that may still fault takes a replay entry (R243, R281). -/
def issueTile (s : State) (o : TileOp) : Res :=
  if tileInCheck o && entriesUsed s s.cur ≥ Config.replayLimit then .hold s .replay (some (slotOf s.wave s.wave.turnB))
  else .done (enterEngine (countTile s) (waveCore s.cur) [o])

/-- The record checks of R279 for A and B formats `fa` and `fb`. -/
def pairCause (a b : ObRec) (fa fb : Nat) : Option Nat :=
  firstCause [
    (recState a || recState b || recRoleB a || !recRoleB b || recFmt a != fa || recFmt b != fb || recLen a != recLen b
      || recSparse b, 0x281)]

/-- A free record comes before the other checks (R279). -/
def freeRec (l : List ObRec) : Option Nat := if l.any (fun r => !r.set) then some 0x289 else none

def execMma64 (f : F64R) (s : State) : Out :=
  let t := f.d.toNat % 32
  let k := f.c.toNat % 32
  let a (c : Crew) : ObRec := getOb c (f.a.toNat % 32)
  let b (c : Crew) : ObRec := getOb c (f.b.toNat % 32)
  runMatrix (.mma64 f) f.g none 0 [t] [k] [f.a.toNat % 32, f.b.toNat % 32] s
    (fun c => freeRec [a c, b c] <|> pairCause (a c) (b c) (fnBits f.fn 5 3) (fnBits f.fn 2 0)
      <|> (if (getCv c k).arm.length ≥ 8 then some 0x285 else if (getCv c k).count = 0 then some 0x28C else none))
    fun p ex =>
      let c := myCrew s
      let o := { tileOp (.mma64 f) s p ex t with ra := a c, rb := b c }
      if tileInCheck o && entriesUsed s s.cur ≥ Config.replayLimit then .hold s .replay (some (slotOf s.wave s.wave.turnB)) else
      let v := getCv c k
      if v.credit > 0 then
        .done (enterEngine (modMyCrew (countTile s) (fun c => { c with cv := smSet c.cv {} k { v with credit := v.credit - 1 } })) (waveCore s.cur) [o])
      else .done (modMyCrew (countTile s) (fun c => { c with cv := smSet c.cv {} k { v with arm := v.arm ++ [o] } }))

end Sys2Proof.Machine
end

