-- ==== Sys2Proof/Machine/Matrix.lean ====
section
/-! DEFINITION. The matrix engine: operands in plane form (R60 to R63, R268, R269), tiles and their status (R273), products
(R280), drains (R284, R285), the bypass (R286), row statistics (R287, R288), and the faults of the engine (R283). -/

namespace Sys2Proof.Machine

/-! ### Reading plane form -/

/-- Absolute bench address of a crew's bench offset. -/
def crewBench (c : Crew) (off : Nat) : Nat := c.core * 2 ^ 19 + c.benchBase + off

def cRead (s : State) (c : Crew) (off n : Nat) : Nat := s.bench.readN (crewBench c off) n

/-- Granules of 32 bytes, by number, that a span of `n` bytes from `a` touches, and those that it covers whole. -/
def granulesOf (a n : Nat) : List Nat := (List.range ((a + n + 31) / 32 - a / 32)).map (fun i => a / 32 + i)
def granulesWithin (a n : Nat) : List Nat := (granulesOf a n).filter (fun g => a ≤ 32 * g && 32 * g + 32 ≤ a + n)

/-- A byte of a span of the benches lies in a poisoned granule. -/
def benchPoisoned (s : State) (a n : Nat) : Bool := n != 0 && (granulesOf a n).any (fun g => smGet s.benchPoison false g)

/-- Bytes of an engine enter a bench; a granule that they cover whole loses its poison (R253). -/
def cWrite (s : State) (c : Crew) (off n v : Nat) : State :=
  { benchPut s (crewBench c off) n v with
    benchPoison := if s.benchPoison = [] then [] else
      (granulesWithin (crewBench c off) n).foldl (fun m g => smSet m false g false) s.benchPoison }

/-- The granules that a span of a crew's bench touches become poisoned. -/
def cPoison (s : State) (c : Crew) (off n : Nat) : State :=
  { s with benchPoison := (granulesOf (crewBench c off) n).foldl (fun m g => smSet m false g true) s.benchPoison }

/-- Bytes of an engine enter a bench with the poison of their source. -/
def benchSpan (s : State) (c : Crew) (off n v : Nat) (poison : Bool) : State :=
  if poison then cPoison (cWrite s c off n v) c off n else cWrite s c off n v

/-- The integer that planes 0 to p − 1 of element `e` hold. -/
def planeInt (panel fmt n e : Nat) : Nat :=
  (List.range (fmtPlanes fmt)).foldl (fun a q => if panel.testBit (8 * (expBytes fmt n + q * (n / 8)) + e) then a + 2 ^ q else a) 0

/-- Exponent bits that the engine reads. -/
def expWidth (fmt : Nat) : Nat := (fmtKind fmt).eBits

/-- A floating element's value (R268); a NaN whose top fraction bit is clear is signalling in BF16 and FP16 (R38). -/
def planeFloat (panel fmt n e : Nat) : FVal :=
  let k := fmtKind fmt
  let w := natBits panel (16 * e + 15) (16 * e)
  let neg := w.testBit 15
  let x := w % 2 ^ expWidth fmt
  let f := planeInt panel fmt n e
  let frac := f % 2 ^ (fmtPlanes fmt - 1)
  if fmt = 1 then
    if x = 15 && frac = 7 then .nan false else .fin neg f ((max x 1 : Nat) - (k.bias : Int) - 3)
  else if x = 2 ^ expWidth fmt - 1 then (if frac = 0 then .inf neg else .nan (fmt ≥ 2 && !frac.testBit (fmtPlanes fmt - 2)))
  else .fin neg f ((max x 1 : Nat) - (k.bias : Int) - ((fmtPlanes fmt : Nat) - 1 : Int))

/-- An integer element's value. -/
def planeSigned (panel fmt n e : Nat) : Int :=
  let x := planeInt panel fmt n e
  if fmtSigned fmt then sext x (fmtPlanes fmt) else (x : Int)

/-- An operand as the engine reads it: its record, its base and its Q4N scale area. -/
structure Operand where
  r : ObRec := {}
  base : Nat := 0
  scale : Nat := 0
  deriving DecidableEq, Repr

def operandOf (r : ObRec) : Operand := ⟨r, recBase r, recScale r⟩

/-- Panel `st` of an operand. -/
def panelOf (s : State) (c : Crew) (o : Operand) (st : Nat) : Nat :=
  cRead s c (o.base + st * recStride o.r) (panelBytes (recFmt o.r) (recElems o.r))

/-- The mask of row `i` for panel `st` (R270). -/
def maskOfRow (s : State) (c : Crew) (r : ObRec) (st i : Nat) : Nat := cRead s c (recMask r + 4 * (64 * st + i)) 4

/-- The element of row `i` and step `k` of an A panel; none where a sparse one omits it. -/
def elemA (r : ObRec) (mask i k : Nat) : Option Nat :=
  if recSparse r then (if mask.testBit k then some (recN r * i + popCount mask k) else none) else some (24 * i + k)

/-- The value of a B element of row `k` of the operand's K dimension. -/
def floatB (s : State) (c : Crew) (o : Operand) (panel kk j : Nat) : FVal :=
  let fmt := recFmt o.r
  let e := 64 * (kk % 24) + j
  if fmt = 7 then
    q4nValue (planeInt panel 7 1536 e) (cRead s c (o.scale + kk) 1)
      (cRead s c (o.scale + 4 * ((24 * recLen o.r + 3) / 4) + 4 * (kk / 256)) 4)
  else planeFloat panel fmt 1536 e

/-- The product of a present or absent A element with a B element (R61). -/
def term (a : Option FVal) (b : FVal) : Option FVal :=
  match a, b with
  | some x, y => some (mulExact x y)
  | none, .fin neg _ e => some (.fin neg 0 e)
  | none, _ => none

/-- The exact sum of a list of products. An invalid product, and infinities of both signs, are invalid whatever quiet NaN is among
them (R44). -/
def exactSum (l : List FVal) : Option FVal :=
  match l with
  | [] => none
  | x :: rest =>
    if l.any FVal.isSnan || (l.contains (.inf false) && l.contains (.inf true)) then some (.nan true)
    else some (rest.foldl (addExact .rne) x)

/-- One K-step of a cell under R62: the new value and its flags. -/
def stepFloat (acc : Nat × Nat) (l : List FVal) : Nat × Nat :=
  match exactSum l with
  | none => acc
  | some x =>
    let r := roundVal .fp32 .rne (addExact .rne (unpack .fp32 acc.1) x)
    (r.1, acc.2 ||| r.2)

/-- A row's mask word does not fit its record (R60). -/
def maskBad (r : ObRec) (m : Nat) : Bool := popCount m 24 != recN r || m / 2 ^ 24 != 0

/-- One K-step of a cell; under a mask that does not fit, which faults an `MMA` before it begins, the step's result is free. -/
def stepCell (s : State) (c : Crew) (a b : Operand) (st pa pb i j : Nat) (acc : Nat × Nat) : Nat × Nat :=
  let mask := if recSparse a.r then maskOfRow s c a.r st i else 0
  let n := recElems a.r
  let fa := recFmt a.r
  if recSparse a.r && maskBad a.r mask then
    let v := (Config.freeStep [fa, recFmt b.r, pa, pb, cRead s c b.scale (scaleArea (recLen b.r)), mask, st, i, j, acc.1]).toNat
    (v % 2 ^ 32, acc.2 ||| v / 2 ^ 32)
  else if fmtFloat fa then
    stepFloat acc ((List.range 24).filterMap (fun k =>
      term ((elemA a.r mask i k).map (planeFloat pa fa n)) (floatB s c b pb (24 * st + k) j)))
  else
    let x := (List.range 24).foldl (fun (x : Int) k => match elemA a.r mask i k with
      | some e => x + planeSigned pa fa n e * planeSigned pb (recFmt b.r) 1536 (64 * k + j)
      | none => x) 0
    (truncI ((acc.1 : Int) + x) 32, acc.2)

/-- A cell after every K-step from a first value; `panels` lists the panels of A and B. -/
def productCell (s : State) (c : Crew) (a b : Operand) (panels : List (Nat × Nat × Nat)) (i j first : Nat) : Nat × Nat :=
  panels.foldl (fun acc p => stepCell s c a b p.1 p.2.1 p.2.2 i j acc) (first, 0)

/-- The panels of both operands, step by step. -/
def panelsOf (s : State) (c : Crew) (a b : Operand) : List (Nat × Nat × Nat) :=
  (List.range (recLen a.r)).map (fun st => (st, panelOf s c a st, panelOf s c b st))

/-- A sparse operand has a bad mask (R60). -/
def badMask (s : State) (c : Crew) (a : ObRec) : Bool :=
  recSparse a && (List.range (64 * recLen a)).any (fun n => maskBad a (maskOfRow s c a (n / 64) (n % 64)))

/-! ### Tiles (R273) -/

def cellOf (c : Crew) (t i j : Nat) : Nat := (smGet c.cell 0 (4096 * t + 64 * i + j)).toNat

/-- The rows of 64 cells of a tile, from functions of the row and the column, with the flags of every cell. -/
def tileValues (f : Nat → Nat → Nat × Nat) : List (Nat × Nat) := (List.range 4096).map (fun n => f (n / 64) (n % 64))

/-- Replace every cell of a tile. -/
def setTile (c : Crew) (t : Nat) (l : List Nat) : Crew :=
  { c with cell := (c.cell.filter (fun kv => kv.1 < 4096 * t))
      ++ l.zipIdx.filterMap (fun x => if x.1 % 2 ^ 32 = 0 then none else some (4096 * t + x.2, BitVec.ofNat 32 x.1))
      ++ c.cell.filter (fun kv => kv.1 ≥ 4096 * (t + 1)) }

def tileStat (c : Crew) (t : Nat) : Word := smGet c.tstat 0 t
def setStat (c : Crew) (t : Nat) (w : Word) : Crew := { c with tstat := smSet c.tstat 0 t w }
def tileInt (c : Crew) (t : Nat) : Bool := (tileStat c t).getLsbD 7

/-- Sticky flags of a tile. -/
def tileFlags (c : Crew) (t fl : Nat) : Crew := setStat c t (tileStat c t ||| BitVec.ofNat 32 (fl % 32))

def setInt (c : Crew) (t : Nat) (b : Bool) : Crew := setStat c t (setBits (tileStat c t) 7 7 (if b then 1 else 0))

/-- A tile's cells have all been written: none is poisoned. -/
def cleanTile (c : Crew) (t : Nat) : Crew :=
  { c with cellPoison := c.cellPoison.filter (fun kv => !(512 * t ≤ kv.1 && kv.1 < 512 * t + 512)) }

/-- Every cell of a tile is replaced by a value that no earlier cell went into. -/
def newTile (c : Crew) (t : Nat) (l : List Nat) : Crew := setTile (cleanTile c t) t l

/-- A cell lies in a poisoned granule of its tile. -/
def cellPoisoned (c : Crew) (t i j : Nat) : Bool := smGet c.cellPoison false (512 * t + 8 * i + j / 8)

/-- Every cell zero, INT clear. -/
def clearTile (c : Crew) (t : Nat) : Crew := setInt (newTile c t []) t false

/-! ### Poison of operands (R253) -/

/-- A byte that element `e` of panel `st` of an operand is read from is poisoned. -/
def elemPoisoned (s : State) (c : Crew) (o : Operand) (st e : Nat) : Bool :=
  let fmt := recFmt o.r
  let n := recElems o.r
  let a := crewBench c (o.base + st * recStride o.r)
  (fmtFloat fmt && benchPoisoned s (a + 2 * e) 2)
    || (List.range (fmtPlanes fmt)).any (fun q => benchPoisoned s (a + expBytes fmt n + q * (n / 8) + e / 8) 1)

/-- Rows of an A operand that a poisoned byte of an element or of a mask goes into. -/
def poisonedRows (s : State) (c : Crew) (o : Operand) : List Nat :=
  if s.benchPoison = [] then [] else
  (List.range 64).filter (fun i => (List.range (recLen o.r)).any (fun st =>
    (recSparse o.r && benchPoisoned s (crewBench c (recMask o.r + 4 * (64 * st + i))) 4)
      || (List.range 24).any (fun k => match elemA o.r (if recSparse o.r then maskOfRow s c o.r st i else 0) i k with
          | some e => elemPoisoned s c o st e
          | none => false)))

/-- Columns of a B operand that a poisoned byte of an element or of a Q4N scale goes into. -/
def poisonedCols (s : State) (c : Crew) (o : Operand) : List Nat :=
  if s.benchPoison = [] then [] else
  let ks := 24 * recLen o.r
  let scales := recFmt o.r == 7 && benchPoisoned s (crewBench c o.scale) (scaleArea (recLen o.r))
  (List.range 64).filter (fun j => scales || (List.range ks).any (fun kk => elemPoisoned s c o (kk / 24) (64 * (kk % 24) + j)))

/-- Cells of a tile that poisoned data go into: their granules become poisoned. -/
def poisonCells (c : Crew) (t : Nat) (bad : Nat → Nat → Bool) : Crew :=
  { c with cellPoison := (List.range 512).foldl (fun m n =>
      if (List.range 8).any (fun k => bad (n / 8) (8 * (n % 8) + k)) then smSet m false (512 * t + n) true else m) c.cellPoison }

/-- A product's cells are poisoned by its operands. -/
def poisonProduct (s : State) (c : Crew) (a b : Operand) (t : Nat) (k : Crew) : Crew :=
  let rows := poisonedRows s c a
  let cols := poisonedCols s c b
  if rows = [] ∧ cols = [] then k else poisonCells k t (fun i j => rows.contains i || cols.contains j)

def flagsOf (l : List (Nat × Nat)) : Nat := l.foldl (fun a x => a ||| x.2) 0

/-! ### The end of an operation, and its faults (R283) -/

/-- The operation at the head of the engine leaves it, and its count falls. -/
def finishTile (s : State) (core : Nat) (o : TileOp) : State :=
  let s := modCore s core (fun c => { c with engine := c.engine.drop 1 })
  modWave s o.w (fun x => { x with tile := x.tile - 1 })

/-- The wave that takes a deferred fault of a crew's engine work: the issuing wave, else the lowest with a live lane. -/
def faultWave (s : State) (w crew : Nat) : Option Nat :=
  let cr := getCrew s crew
  if live (getWave s w) != 0 && (getWave s w).crew == crew then some w
  else (cr.slots.take cr.waves).find? (fun v => live (getWave s v) != 0)

/-- No wave of the crew takes a fault of the operation: it has no effect. -/
def orphan (s : State) (o : TileOp) : Bool := (faultWave s o.w o.crew).isNone

/-- A deferred fault of an operation: the entry for its re-injection, and the stop of the wave; with no wave to take it, the
tile's status. -/
def tileFault (s : State) (core : Nat) (o : TileOp) (cause addr : Nat) : State :=
  let s := finishTile s core o
  match faultWave s o.w o.crew with
  | none => match o.instr with
    | .lsmerge64 _ => s
    | _ => modCrew s o.crew (fun c => setStat c o.tile (setBits (tileStat c o.tile ||| 64) 17 8 cause))
  | some w =>
    let r : Replay := { ecause := cause, path := o.path, rlanes := o.lanes, ipc := o.pc, parcels := o.parcels
                        operands := o.operands, t0 := o.t0.getD 0, seq := o.seq }
    let s := modWave s w (fun x => addReplay x r)
    raise s w { cause := cause, rank := 4, order := o.seq, path := o.path, lanes := o.lanes, addr := addr }

/-! ### MMA (R280) -/

def runMma (s : State) (core : Nat) (o : TileOp) : State :=
  let c := getCrew s o.crew
  if badMask s c o.ra then tileFault s core o 0x283 0 else
  let a := operandOf o.ra
  let b := operandOf o.rb
  let ps := panelsOf s c a b
  let l := tileValues (fun i j => productCell s c a b ps i j (cellOf c o.tile i j))
  let k := tileFlags (setInt (setTile c o.tile (l.map (·.1))) o.tile (!fmtFloat (recFmt o.ra))) o.tile (flagsOf l)
  finishTile (modCrew s o.crew (fun _ => poisonProduct s c a b o.tile k)) core o

/-! ### MDRAIN (R284, R285, R338) -/

/-- The fields of a drain's shape record. -/
structure Drain where
  dst : Nat := 0
  clr : Bool := false
  rnd : Nat := 0
  ofmt : Nat := 0
  stride : Nat := 0
  col0 : Nat := 0
  ncols : Nat := 0
  row0 : Nat := 0
  nrows : Nat := 0
  elem : Nat := 0
  ctx : Nat := 0
  bv : Bool := false
  slot : Nat := 0
  deriving DecidableEq, Repr

def fmtBytes (code : Nat) : Nat := match fkindOf code with | some k => k.width / 8 | none => (intFmt code).1 / 8

def drainOf (f : F64P) : Drain :=
  let w0 := f.w0.toNat
  let w1 := f.w1.toNat
  let n := natBits w1 29 24 + 1
  { dst := fnBits f.r.fn 4 3, clr := f.r.fn.getLsbD 5, rnd := f.r.rnd.toNat, ofmt := natBits w0 19 16
    stride := if natBits w0 15 0 = 0 then n * fmtBytes (natBits w0 19 16) else natBits w0 15 0
    ncols := n, col0 := natBits w1 21 16, nrows := natBits w1 13 8 + 1, row0 := natBits w1 5 0
    elem := natBits f.w2.toNat 30 0, ctx := natBits f.w3.toNat 11 8, bv := f.w3.getLsbD 6, slot := natBits f.w3.toNat 5 0 }

/-- Formats that a drain writes from an FP tile, and from an INT tile. -/
def drainFp (c : Nat) : Bool := 1 ≤ c && c ≤ 5
def drainInt (c : Nat) : Bool := c == 10 || c == 8 || c == 6 || c == 7

/-- The window's bytes: element (i, j) at its offset from A. -/
def drainOffsets (d : Drain) : List (Nat × Nat × Nat) :=
  (List.range d.nrows).flatMap (fun i => (List.range d.ncols).map (fun j =>
    (d.row0 + i, d.col0 + j, i * d.stride + j * fmtBytes d.ofmt)))

/-- One past the last byte of the window. -/
def drainSpan (d : Drain) : Nat := (d.nrows - 1) * d.stride + d.ncols * fmtBytes d.ofmt

/-- The bench object of a slot of a crew, where it lies in the allocation (R387). -/
def crewSlot (c : Crew) (slot : Nat) : Option Nat :=
  if 32 * slot + 32 > c.benchSize then none else some (benchObj c.core (c.benchBase + 32 * slot))

/-- A counted command may name its object: 0x101 outside the allocation, 0x207 with every tracker taken. -/
def slotCause (s : State) (c : Crew) (bv : Bool) (slot : Nat) : Option Nat :=
  if !bv then none else
  match crewSlot c slot with
  | none => some 0x101
  | some o => if barFull s o then some 0x207 else none

/-- A command that counts into a slot begins. -/
def slotBegin (s : State) (c : Crew) (bv : Bool) (slot : Nat) : State :=
  if bv then (match crewSlot c slot with | some o => beginWork s o | none => s) else s

/-- It ends, with `n` bytes counted. -/
def slotEnd (s : State) (c : Crew) (bv : Bool) (slot n sig : Nat) : State :=
  if bv then (match crewSlot c slot with
    | some o => endWork (if n = 0 then s else arrive s o n sig) o
    | none => s) else s

/-- The scope at which a counted object completes: 0 with none. -/
def slotScope (s : State) (c : Crew) (bv : Bool) (slot : Nat) : Nat :=
  if bv then (match crewSlot c slot with | some o => objScope (readObj s o).2 | none => 0) else 0

def execMdrain64 (f : F64P) (s : State) : Out :=
  let x := s.wave
  let g := withParams x f
  let d := drainOf g
  let t := f.r.d.toNat % 32
  let addr := if d.dst = 0 then sGet x f.r.a.toNat else if d.dst = 1 then sPair64 x f.r.a.toNat else 0
  let reserved := natBits g.w0.toNat 31 20 != 0 || natBits g.w1.toNat 31 30 != 0 || natBits g.w1.toNat 23 22 != 0
    || natBits g.w1.toNat 15 14 != 0 || natBits g.w1.toNat 7 6 != 0 || g.w2.getLsbD 31 || (d.dst != 2 && g.w2 != 0)
    || natBits g.w3.toNat 31 12 != 0 || natBits g.w3.toNat 7 7 != 0 || (drainInt d.ofmt && d.rnd != 0)
  runMatrix (.mdrain64 f) f.r.g (if reserved then some 0x002 else none) 0 [t] [] [] s
    (fun c => firstCause [
      (d.row0 + d.nrows > 64 || d.col0 + d.ncols > 64 || d.stride < d.ncols * fmtBytes d.ofmt || d.stride % max 1 (fmtBytes d.ofmt) != 0
        || !(drainFp d.ofmt || drainInt d.ofmt) || (d.dst == 2 && (!(d.ofmt == 1 || d.ofmt == 3) || d.bv)), 0x287),
      (d.dst == 0 && addr + drainSpan d > c.benchSize, 0x101),
      (slotCause s c d.bv d.slot == some 0x101, 0x101),
      (slotCause s c d.bv d.slot == some 0x207, 0x207),
      (d.dst == 1 && !(canonical addr && canonical ((addr + drainSpan d - 1) % 2 ^ 64)), 0x104)])
    fun p ex =>
      let o := { tileOp (.mdrain64 g) s p ex t with operands := [t, addr, 0, 0] }
      match issueTile s o with
      | .done s' => .done (slotBegin s' (myCrew s) d.bv d.slot)
      | r => r

/-- An element as a drain writes it, and its flags. -/
def drainElem (d : Drain) (cell : Nat) : Nat × Nat :=
  match fkindOf d.ofmt with
  | some k => roundVal k (rmode d.rnd) (unpack .fp32 cell)
  | none =>
    let (w, sg) := intFmt d.ofmt
    let v := sext cell 32
    (truncI (if sg then satS v w else satU v w) w, 0)

/-- The barrier objects of a crew's bench with waves parked meet a span (R397). -/
def spanClobbers (s : State) (c : Crew) (off n : Nat) : Bool :=
  s.bars.any (fun kv =>
    let b := kv.1 / 2 % 16384 * 32
    kv.1 % 2 == 0 && objCore kv.1 == c.core && kv.2.tracked && b < c.benchBase + off + n && c.benchBase + off < b + 32
      && objWaiters (s.bench.readN (c.core * 2 ^ 19 + b) 32) != 0)

/-- Why a span of `n` bytes at a virtual address is no part of one buffer's latent backing (R209, R285). -/
def latentCause (s : State) (vif die va n : Nat) : Option Nat :=
  let out (a : Nat) : Nat := match (translate s vif die a 1 true).2 with | .error c => c | .ok _ => 0x10C
  match bufEntry s vif va, bufEntry s vif ((va + n - 1) % 2 ^ 64) with
  | some (i, _), some (j, _) => if i == j then none else some 0x10C
  | none, _ => some (out va)
  | _, none => some (out ((va + n - 1) % 2 ^ 64))

/-- The lines of a span of a buffer as a signature (R231). -/
def spanSig (s : State) (vif die va n : Nat) (latent : Bool) : Nat :=
  (List.range ((va % 128 + n + 127) / 128)).foldl (fun a k =>
    match (translate s vif die ((va / 128 + k) * 128 % 2 ^ 64) 1 latent).2 with
    | .ok t => a ||| sigOf (lineOf t.pa)
    | .error _ => a) 0

/-- The number of a context of a die; the interface that it is assigned to (R378). -/
def ctxOf (die k : Nat) : Nat := 16 * die + k
def ctxAssigned (s : State) (vif die k : Nat) : Bool := vifPkg vif == die / 2 && (partField s vif 88 4).testBit (16 * (die % 2) + k)

def getCtx (s : State) (n : Nat) : Context := smGet s.ctxs {} n
def modCtx (s : State) (n : Nat) (f : Context → Context) : State := { s with ctxs := smMod s.ctxs {} n f }

/-- Bytes in a context's drain queue. -/
def drainBytes (l : List (Nat × Nat × Nat)) : Nat := l.foldl (fun n e => n + fmtBytes e.2.1) 0

/-- Bytes at a virtual address, as an engine reaches a latent backing, become poisoned with their granules. -/
def poisonVirt (s : State) (vif die va n : Nat) : State :=
  (List.range n).foldl (fun s i => match (translate s vif die ((va + i) % 2 ^ 64) 1 true).2 with
    | .ok t => setPoison s t.pa true
    | .error _ => s) s

/-- Write a row of a window, its elements of `n` bytes with their poison, to a bench or to memory. -/
def drainRow (s : State) (c : Crew) (vif die dst a n : Nat) (l : List (Nat × Bool)) : State :=
  let v := l.foldr (fun e r => e.1 % 256 ^ n + 256 ^ n * r) 0
  let bad := (l.zipIdx.filter (fun e => e.1.2)).map (fun e => a + e.2 * n)
  if dst = 0 then bad.foldl (fun s b => cPoison s c b n) (cWrite s c a (l.length * n) v)
  else match writeVirt s vif die (a % 2 ^ 64) true (natBytes (l.length * n) v) with
    | (s, .ok ()) => bad.foldl (fun s b => poisonVirt s vif die b n) s
    | (s, .error _) => s

/-- What engine writes to `.g` owe a scope (R284, R311, R316): they reach the other die, the far homes, the pools. -/
def performAt (s : State) (die scope : Nat) : State :=
  let s := if scope ≥ 5 then drainInval s (die ^^^ 1) else s
  let s := if scope ≥ 6 then flushFar s (die / 2) (isRemote (die / 2)) else s
  if scope ≥ 7 then flushFar s (die / 2) isPool else s

/-- A drain at the head of the engine; one whose elements find the context's queue full stays. DESIGN CHOICE (log entry 36): of the
deferred causes, 0x28A is found before those of its addresses, which R285 does not order. -/
def runDrain (s : State) (core : Nat) (o : TileOp) (f : F64P) : State :=
  let d := drainOf f
  let c := getCrew s o.crew
  let n := fmtBytes d.ofmt
  let die := coreDie core
  let addr := o.operands.getD 1 0
  let fail (cause addr : Nat) : State := tileFault (slotEnd s c d.bv d.slot 0 0) core o cause addr
  let xs := drainOffsets d
  let es := xs.map (fun e => drainElem d (cellOf c o.tile e.1 e.2.1))
  let close (s : State) (sig : Nat) : State :=
    let s := modCrew s o.crew (fun c =>
      let c := tileFlags c o.tile (flagsOf es)
      if d.clr then clearTile c o.tile else c)
    finishTile (slotEnd s c d.bv d.slot (d.nrows * d.ncols * n) sig) core o
  if tileInt c o.tile != drainInt d.ofmt then fail 0x28A 0
  else if d.dst = 2 then
    let k := ctxOf die d.ctx
    if !ctxAssigned s c.vif die d.ctx then fail 0x102 0
    else if drainBytes (getCtx s k).drain + d.nrows * d.ncols * n > 65536 then s
    else
      let bad := (xs.zipIdx.filter (fun e => cellPoisoned c o.tile e.1.1 e.1.2.1)).map (fun e => d.elem + e.2)
      close (modCtx s k (fun x => { x with drain := x.drain ++ es.zipIdx.map (fun e => (d.elem + e.2, d.ofmt, e.1.1))
                                           drainBad := x.drainBad ++ bad })) 0
  else if d.dst = 0 && xs.any (fun e => spanClobbers s c (addr + e.2.2) n) then fail 0x200 addr
  else match (if d.dst = 1 then latentCause s c.vif die addr (drainSpan d) else none) with
    | some e => fail e addr
    | none =>
      let sig := if d.dst = 1 && d.bv then spanSig s c.vif die addr (drainSpan d) true else 0
      let row (s : State) (i : Nat) : State :=
        drainRow s c c.vif die d.dst (addr + i * d.stride) n ((List.range d.ncols).map (fun j =>
          ((drainElem d (cellOf c o.tile (d.row0 + i) (d.col0 + j))).1, cellPoisoned c o.tile (d.row0 + i) (d.col0 + j))))
      let s := (List.range d.nrows).foldl row s
      close (if d.dst = 1 then performAt s die (max 5 (slotScope s c d.bv d.slot)) else s) sig

/-! ### MBYP (R286) -/

/-- Raw exponent with sign, and significand with its hidden plane, of an element's bits (R268). -/
def planeParts (fmt x : Nat) : Nat × Nat :=
  if !fmtFloat fmt then (0, x % 2 ^ fmtPlanes fmt) else
  let k := fmtKind fmt
  let e := x / 2 ^ k.mBits % 2 ^ k.eBits
  (e + (if x.testBit (k.width - 1) then 2 ^ 15 else 0), x % 2 ^ k.mBits + (if e = 0 then 0 else 2 ^ k.mBits))

/-- A panel as one number, from its elements' bits. -/
def panelNat (fmt : Nat) (l : List Nat) : Nat :=
  let n := l.length
  let ps := l.map (planeParts fmt)
  let exps := if fmtFloat fmt then ps.foldr (fun p a => p.1 + 2 ^ 16 * a) 0 else 0
  let plane (q : Nat) : Nat := ps.foldr (fun p a => (if p.2.testBit q then 1 else 0) + 2 * a) 0
  (List.range (fmtPlanes fmt)).foldl (fun a q => a + plane q * 2 ^ (8 * (expBytes fmt n + q * (n / 8)))) exps

def execMbyp64 (f : F64R) (s : State) : Out :=
  let t := f.d.toNat % 32
  let r (c : Crew) : ObRec := getOb c (f.a.toNat % 32)
  let fits (c : Crew) : Bool := if tileInt c t then recFmt (r c) ≥ 4 && recFmt (r c) ≤ 6 else fmtFloat (recFmt (r c))
  runMatrix (.mbyp64 f) f.g none 0 [t] [] [f.a.toNat % 32] s
    (fun c => freeRec [r c] <|> (if recState (r c) || recRoleB (r c) || recSparse (r c) || recLen (r c) != 3 || !fits c then some 0x281 else none))
    fun p ex => issueTile s { tileOp (.mbyp64 f) s p ex t with ra := r (myCrew s) }

/-- A cell as the bypass converts it. -/
def bypElem (fmt cell : Nat) : Nat × Nat :=
  if fmtFloat fmt then roundVal (fmtKind fmt) .rne (unpack .fp32 cell)
  else
    let w := fmtPlanes fmt
    (truncI (if fmtSigned fmt then satS (sext cell 32) w else satU (sext cell 32) w) w, 0)

/-- The bytes of panel `st` that the bypass writes from poisoned cells become poisoned. -/
def bypPoison (c : Crew) (r : ObRec) (t : Nat) (s : State) (st : Nat) : State :=
  let fmt := recFmt r
  let a := recBase r + st * recStride r
  let bad := (List.range 1536).filter (fun e => 24 * st + e % 24 < 64 && cellPoisoned c t (e / 24) (24 * st + e % 24))
  bad.foldl (fun s e =>
    let s := if fmtFloat fmt then cPoison s c (a + 2 * e) 2 else s
    (List.range (fmtPlanes fmt)).foldl (fun s q => cPoison s c (a + expBytes fmt 1536 + q * 192 + e / 8) 1) s) s

def runByp (s : State) (core : Nat) (o : TileOp) (f : F64R) : State :=
  let c := getCrew s o.crew
  let fmt := recFmt o.ra
  let elem (st e : Nat) : Nat × Nat :=
    let k := 24 * st + e % 24
    if k < 64 then bypElem fmt (cellOf c o.tile (e / 24) k) else (0, 0)
  let panels := (List.range 3).map (fun st => (st, (List.range 1536).map (elem st)))
  if panels.any (fun p => spanClobbers s c (recBase o.ra + p.1 * recStride o.ra) (panelBytes fmt 1536)) then
    tileFault s core o 0x200 (recBase o.ra) else
  let s := panels.foldl (fun s p => cWrite s c (recBase o.ra + p.1 * recStride o.ra) (panelBytes fmt 1536) (panelNat fmt (p.2.map (·.1)))) s
  let s := if c.cellPoison = [] then s else (List.range 3).foldl (bypPoison c o.ra o.tile) s
  let fl := panels.foldl (fun a p => a ||| flagsOf p.2) 0
  let s := modCrew s o.crew (fun c =>
    let c := tileFlags c o.tile fl
    if f.fn.getLsbD 5 then clearTile c o.tile else c)
  finishTile s core o

/-! ### RSTAT (R287, R288) -/

def execRstat64 (f : F64R) (s : State) : Out :=
  let t := f.a.toNat % 32
  let st := f.fn.getLsbD 0
  runMatrix (.rstat64 f) f.g none (if st then 0 else f.d.toNat + 6) [t] [] [] s (fun _ => none)
    fun p ex => issueTile s { tileOp (.rstat64 f) s p ex t with operands := [f.d.toNat, 0, 0, 0] }

/-- A row's maximum, sum and sum of squares, and the flags. -/
def rowStats (c : Crew) (t i : Nat) : Nat × Nat × Nat × Nat :=
  let conv (j : Nat) : Nat × Nat := if tileInt c t then intToF .fp32 .rne (sext (cellOf c t i j) 32) else (cellOf c t i j, 0)
  let add (a b : Nat) : Nat × Nat := fadd .fp32 .rne (unpack .fp32 a) (unpack .fp32 b)
  let mx (a b : Nat) : Nat × Nat := fminmax .fp32 true (unpack .fp32 a) (unpack .fp32 b)
  let sq (j : Nat) : Nat × Nat := fmul .fp32 .rne (unpack .fp32 (conv j).1) (unpack .fp32 (conv j).1)
  let tree (op : Nat → Nat → Nat × Nat) (leaf : Nat → Nat) : Nat × Nat := (treeNode op (fun j => some (leaf j)) 6 0).getD (0, 0)
  let a := tree mx (fun j => (conv j).1)
  let b := tree add (fun j => (conv j).1)
  let d := tree add (fun j => (sq j).1)
  let leaves := (List.range 64).foldl (fun fl j => fl ||| (conv j).2 ||| (sq j).2) 0
  (a.1, b.1, d.1, a.2 ||| b.2 ||| d.2 ||| leaves)

def runStat (s : State) (core : Nat) (o : TileOp) (f : F64R) : State :=
  let c := getCrew s o.crew
  let d := f.d.toNat
  if f.fn.getLsbD 0 then
    let st := (tileStat c o.tile).toNat
    let s := if live (getWave s o.w) == 0 then s else modWave s o.w (fun x => sPut x d st)
    let s := if f.fn.getLsbD 1 then modCrew s o.crew (fun c => setStat c o.tile (setBits (tileStat c o.tile) 6 0 0)) else s
    finishTile s core o
  else
    let rows := (List.range 64).map (fun i => (i, rowStats c o.tile i))
    let put (x : Wave) (r : Nat × Nat × Nat × Nat × Nat) : Wave :=
      let l := r.1 % 32
      let k := r.1 / 32
      if !o.lanes.getLsbD l then x else
      writeRegs (writeRegs (writeRegs x (d + k) l 4 r.2.1 o.vlimit) (d + 2 + k) l 4 r.2.2.1 o.vlimit) (d + 4 + k) l 4 r.2.2.2.1 o.vlimit
    let s := modWave s o.w (fun x => rows.foldl put x)
    finishTile (modCrew s o.crew (fun c => tileFlags c o.tile (rows.foldl (fun a r => a ||| r.2.2.2.2) 0))) core o

end Sys2Proof.Machine
end

