-- ==== Sys2Proof/Machine/Stream.lean ====
section
/-! DEFINITION. The logit stream (R289 to R295): state blocks, LSTREAM, LSMERGE, LSGRAD, and the engine's step. -/

namespace Sys2Proof.Machine

/-! ### State blocks (R289) -/

/-- One row of a state block: m, s, flags, labels seen, label slots (index, value), sheet (value, index), best first. -/
structure LsRow where
  m : Nat := 0
  s : Nat := 0
  flags : Nat := 0
  found : Nat := 0
  labels : List (Nat × Nat) := []
  sheet : List (Nat × Nat) := []
  deriving DecidableEq, Repr

structure LsState where
  tiles : Nat := 0
  l : Nat := 0
  shlo : Nat := 0
  shhi : Nat := 0
  k : Nat := 0
  nlab : Nat := 0
  nrows : Nat := 0
  status : Nat := 0
  mflags : Nat := 0
  rows : List LsRow := []
  deriving DecidableEq, Repr

/-- Entries that the sheet of a record can hold. -/
def sheetCap (r : ObRec) : Nat := (recLen r * 256 - 6208) / 8

/-- Read a block of a crew at a record's base. -/
def readLs (s : State) (c : Crew) (r : ObRec) : LsState :=
  let rd (o n : Nat) : Nat := cRead s c (recBase r + o) n
  let row (i : Nat) : LsRow :=
    let n := rd (72 + 32 * i) 2
    let off := rd (74 + 32 * i) 2
    { m := rd (64 + 32 * i) 4, s := rd (68 + 32 * i) 4, flags := rd (76 + 32 * i) 1, found := rd (77 + 32 * i) 1
      labels := (List.range 8).map (fun k => (rd (2112 + 64 * i + 8 * k) 4, rd (2116 + 64 * i + 8 * k) 4))
      sheet := (List.range n).map (fun e => (rd (6208 + 8 * (off + e)) 4, rd (6212 + 8 * (off + e)) 4)) }
  { tiles := rd 0 4, l := rd 4 4, shlo := rd 8 2, shhi := rd 10 2, k := rd 12 1, nlab := rd 13 1, nrows := rd 14 1
    status := rd 15 1, mflags := rd 20 1, rows := (List.range 64).map row }

/-- Entries in use by the rows that count. -/
def lsUsed (x : LsState) : Nat := (x.rows.take x.nrows).foldl (fun n r => n + r.sheet.length) 0

/-- Write a block's header and its rows 0 to NROWS − 1, each row's label slots below NLAB, the sheets packed. -/
def writeLs (s : State) (c : Crew) (r : ObRec) (x : LsState) : State :=
  let wr (s : State) (o n v : Nat) : State := cWrite s c (recBase r + o) n v
  let s := wr s 0 16 (x.tiles % 2 ^ 32 + 2 ^ 32 * x.l + 2 ^ 64 * x.shlo + 2 ^ 80 * x.shhi + 2 ^ 96 * x.k + 2 ^ 104 * x.nlab
    + 2 ^ 112 * x.nrows + 2 ^ 120 * x.status)
  let s := wr s 16 48 (lsUsed x + 2 ^ 32 * x.mflags)
  let step (a : State × Nat) (e : LsRow × Nat) : State × Nat :=
    let (s, off) := a
    let (w, i) := e
    let s := wr s (64 + 32 * i) 14 (w.m + 2 ^ 32 * w.s + 2 ^ 64 * w.sheet.length + 2 ^ 80 * off + 2 ^ 96 * w.flags + 2 ^ 104 * w.found)
    let s := (w.labels.take x.nlab).zipIdx.foldl (fun s l => wr s (2112 + 64 * i + 8 * l.2) 8 (l.1.1 + 2 ^ 32 * l.1.2)) s
    let s := w.sheet.zipIdx.foldl (fun s l => wr s (6208 + 8 * (off + l.2)) 8 (l.1.1 + 2 ^ 32 * l.1.2)) s
    (s, off + w.sheet.length)
  ((x.rows.take x.nrows).zipIdx.foldl step (s, 0)).1

/-- The bytes of row `i` of a block, its sheet as the block stands, are poisoned (R253). -/
def rowSpans (s : State) (c : Crew) (r : ObRec) (i : Nat) : List (Nat × Nat) :=
  let n := cRead s c (recBase r + 72 + 32 * i) 2
  let off := cRead s c (recBase r + 74 + 32 * i) 2
  [(recBase r + 64 + 32 * i, 14), (recBase r + 2112 + 64 * i, 64), (recBase r + 6208 + 8 * off, 8 * n)]

def rowPoisoned (s : State) (c : Crew) (r : ObRec) (i : Nat) : Bool :=
  (rowSpans s c r i).any (fun x => benchPoisoned s (crewBench c x.1) x.2)

/-- Rows of a block become poisoned, after they have been written. -/
def poisonRows (s : State) (c : Crew) (r : ObRec) (rows : List Nat) : State :=
  rows.foldl (fun s i => (rowSpans s c r i).foldl (fun s x => if x.2 = 0 then s else cPoison s c x.1 x.2) s) s

/-- Bits of −∞. -/
def negInf : Nat := 0xFF800000

/-- A number that is positive, normal and finite (R291). -/
def posNormal (x : Nat) : Bool := scaleOk x

/-! ### Arithmetic with flags -/

def fx (x : Nat) : FVal := unpack .fp32 x
def addF (a b : Nat) : Nat × Nat := fadd .fp32 .rne (fx a) (fx b)
def subF (a b : Nat) : Nat × Nat := fadd .fp32 .rne (fx a) (fx b).negate
def mulF (a b : Nat) : Nat × Nat := fmul .fp32 .rne (fx a) (fx b)
def exp2F (a : Nat) : Nat × Nat := fexp2 .fp32 .rne (fx a)
def maxF (a b : Nat) : Nat := (fminmax .fp32 true (fx a) (fx b)).1

/-- round(a / b, FP32, RNE). -/
def divF (a b : Nat) : Nat × Nat :=
  let k : FKind := .fp32
  match fx a, fx b with
  | .nan s, y => nanOut k (s || y.isSnan)
  | x, .nan s => nanOut k (s || x.isSnan)
  | .inf _, .inf _ => nanOut k true
  | .inf s, .fin t _ _ => (k.signBit (s != t) + k.inf, 0)
  | .fin s _ _, .inf t => (k.signBit (s != t), 0)
  | .fin s n e, .fin t m f =>
    if m = 0 then (if n = 0 then nanOut k true else (k.signBit (s != t) + k.inf, flagDZ))
    else if n = 0 then (k.signBit (s != t), 0)
    else roundPack k .rne (s != t) (n * 2 ^ 64 / m) (e - f - 64) (n * 2 ^ 64 % m != 0)

/-- s + round-to-FP32 of s0 × fexp2(round(a − b)), as the normaliser uses it: the scaled value and its flags. -/
def scaleExp (s0 a b : Nat) : Nat × Nat :=
  let d := subF a b
  let e := exp2F d.1
  let r := mulF s0 e.1
  (r.1, d.2 ||| e.2 ||| r.2)

/-! ### Sheets and the normaliser (R290, R291) -/

/-- Entry (x, v) ranks above (y, w). -/
def ranksAbove (a b : Nat × Nat) : Bool :=
  let c := fcmp (fx a.1) (fx b.1)
  c > 0 || (c = 0 && a.2 < b.2)

/-- Insert an entry into a sheet kept best first, and keep `k`. -/
def insertSheet (k : Nat) (e : Nat × Nat) (l : List (Nat × Nat)) : List (Nat × Nat) :=
  ((l.takeWhile (fun y => ranksAbove y e)) ++ e :: l.dropWhile (fun y => ranksAbove y e)).take k

/-- The normaliser over a row's logits; the row and the flags. -/
def normalise (l : Nat) (xs : List Nat) (w : LsRow) : LsRow × Nat :=
  let us := (xs.filter (fun x => !(fx x).isNan)).map (fun x => mulF x l)
  let fl := flagsOf us
  let isInf (u : Nat) : Bool := match fx u with | .inf _ => true | _ => false
  let w := if us.any (fun u => isInf u.1) then { w with flags := w.flags ||| 2 } else w
  match (us.map (·.1)).filter (fun u => !isInf u) with
  | [] => (w, fl)
  | u0 :: rest =>
    let mn := maxF w.m (rest.foldl maxF u0)
    let a := scaleExp w.s w.m mn
    let r := (u0 :: rest).foldl (fun (a : Nat × Nat) u =>
      let d := subF u mn
      let e := exp2F d.1
      let t := addF a.1 e.1
      (t.1, a.2 ||| d.2 ||| e.2 ||| t.2)) a
    ({ w with m := mn, s := r.1 }, fl ||| r.2)

/-- A row takes the logits of a tile, from vocabulary index `v0`. -/
def takeLogits (x : LsState) (v0 : Nat) (xs : List Nat) (w : LsRow) : LsRow × Nat :=
  let one (w : LsRow) (e : Nat × Nat) : LsRow :=
    let v := v0 + e.2
    let hit (i : Nat) : Bool := i < x.nlab && ((w.labels.getD i (0, 0)).1 == v)
    let w := { w with
      labels := w.labels.zipIdx.map (fun (l : (Nat × Nat) × Nat) => if hit l.2 then (l.1.1, e.1) else l.1)
      found := (List.range 8).foldl (fun f i => if hit i then f ||| 2 ^ i else f) w.found }
    if (fx e.1).isNan then { w with flags := w.flags ||| 1 } else { w with sheet := insertSheet x.k (e.1, v) w.sheet }
  normalise x.l xs (xs.zipIdx.foldl one w)

/-! ### LSTREAM (R291 to R293) -/

/-- The fields of a stream's shape record. -/
structure LsRec where
  nlast : Nat := 0
  vbase : Nat := 0
  init : Bool := false
  nlab : Nat := 0
  k : Nat := 0
  nrows : Nat := 0
  ntiles : Nat := 0
  l : Nat := 0
  shard : Nat := 0
  labels : Nat := 0
  deriving DecidableEq, Repr

def lsRecOf (f : F64P) : LsRec :=
  let w0 := f.w0.toNat
  let w1 := f.w1.toNat
  { nlast := natBits w0 30 24, vbase := natBits w0 23 0, init := w1.testBit 25, nlab := natBits w1 24 21, k := natBits w1 20 14
    nrows := natBits w1 13 8 + 1, ntiles := natBits w1 7 0, l := f.w2.toNat, shard := natBits f.w3.toNat 30 19
    labels := natBits f.w3.toNat 18 0 }

/-- Tile `t` of the weights (R291). -/
def weightTile (r : ObRec) (t : Nat) : Operand :=
  ⟨r, recBase r + t * (recLen r * recStride r), recScale r + t * scaleArea (recLen r)⟩

/-- The state agrees with a record. -/
def lsAgrees (x : LsState) (q : LsRec) : Bool :=
  x.l == q.l && x.k == q.k && x.nlab == q.nlab && x.nrows == q.nrows && x.shhi == q.shard

/-- The record checks of a stream instruction. -/
def streamRecords (c : Crew) (f : F64R) : Option Nat :=
  let h := getOb c (f.a.toNat % 32)
  let v := getOb c (f.b.toNat % 32)
  let st := getOb c (f.c.toNat % 32)
  freeRec [h, v, st] <|> pairCause h v (fnBits f.fn 5 3) (fnBits f.fn 2 0) <|> (if recState st then none else some 0x281)

/-- The limits of R292. DESIGN CHOICE (log entry 49): NLAST above 64 and NTILES 0 lie outside the ranges of R291, which name no cause
of their own. -/
def lsRange (c : Crew) (q : LsRec) (v : ObRec) : Bool :=
  q.ntiles == 0 || q.nlast > 64 || q.k > 64 || q.nlab > 8 || !posNormal q.l
    || recBase v + q.ntiles * (recLen v * recStride v) > c.benchSize
    || (recFmt v == 7 && recScale v + q.ntiles * scaleArea (recLen v) > c.benchSize)
    || (q.init && q.nlab != 0 && (q.labels % 4 != 0 || q.labels + 32 * (q.nrows - 1) + 4 * q.nlab > c.benchSize))

def execLstream64 (f : F64P) (s : State) : Out :=
  let g := withParams s.wave f
  let q := lsRecOf g
  let t := f.r.d.toNat % 32
  let obs := [f.r.a.toNat % 32, f.r.b.toNat % 32, f.r.c.toNat % 32]
  let ob (c : Crew) (i : Nat) : ObRec := getOb c (obs.getD i 0)
  let reserved := g.w0.getLsbD 31 || natBits g.w1.toNat 31 26 != 0 || g.w3.getLsbD 31
  runMatrix (.lstream64 f) f.r.g (if reserved then some 0x002 else none) 0 [t] [] obs s
    (fun c => streamRecords c f.r <|> firstCause [
      (lsRange c q (ob c 1), 0x287), (!q.init && !lsAgrees (readLs s c (ob c 2)) q, 0x28B)])
    fun p ex =>
      let c := myCrew s
      issueTile s { tileOp (.lstream64 g) s p ex t with ra := ob c 0, rb := ob c 1, rc := ob c 2, operands := [t, obs.getD 0 0, obs.getD 1 0, obs.getD 2 0] }

/-- A fresh state (R291): rows 0 to NROWS − 1, with their label indices. -/
def lsInit (s : State) (c : Crew) (q : LsRec) : LsState :=
  let row (r : Nat) : LsRow :=
    if r ≥ q.nrows then {} else { m := negInf, labels := (List.range q.nlab).map (fun i => (cRead s c (q.labels + 32 * r + 4 * i) 4, 0)) }
  { tiles := 0, l := q.l, shlo := q.shard, shhi := q.shard, k := q.k, nlab := q.nlab, nrows := q.nrows, status := 0, mflags := 0
    rows := (List.range 64).map row }

/-- Bench bytes that a stream or a merge writes may not meet an object with waves parked (R397). -/
def lsClobbers (s : State) (c : Crew) (r : ObRec) : Bool := spanClobbers s c (recBase r) (recLen r * 256)

/-- Tiles `ts` of a stream that began in state `s0`, one after another. A fault that no wave takes leaves that state (R283). -/
def streamTiles (s0 s : State) (core : Nat) (o : TileOp) (q : LsRec) (ts : List Nat) : State :=
  match ts with
  | [] => finishTile (modCrew s o.crew (fun c => newTile c o.tile [])) core o
  | t :: rest =>
    let c := getCrew s o.crew
    let x := readLs s c o.rc
    let a := operandOf o.ra
    let b := weightTile o.rb t
    let ps := panelsOf s c a b
    let w := tileValues (fun i j => productCell s c a b ps i j 0)
    let nv := if t + 1 = q.ntiles && q.nlast ≠ 0 then q.nlast else 64
    let step (e : LsRow × Nat) : LsRow × Nat :=
      if e.2 ≥ q.nrows then (e.1, 0)
      else takeLogits x (q.vbase + 64 * t) (((w.drop (64 * e.2)).take nv).map (·.1)) e.1
    let rs := x.rows.zipIdx.map step
    let fl := flagsOf w ||| flagsOf (rs.map (fun r => (0, r.2)))
    let s := modCrew s o.crew (fun c => tileFlags (setInt (newTile c o.tile (w.map (·.1))) o.tile false) o.tile fl)
    let y := { x with rows := rs.map (·.1) }
    let fail (s : State) (cause addr : Nat) : State := tileFault (if orphan s o then s0 else s) core o cause addr
    if lsClobbers s c o.rc then fail s 0x200 (recBase o.rc)
    else if lsUsed y > sheetCap o.rc then fail (cWrite s c (recBase o.rc + 15) 1 1) 0x280 0
    else
      let rows := poisonedRows s c a
      let bad := (List.range q.nrows).filter (fun i => rows.contains i || (poisonedCols s c b).any (fun j => j < nv))
      let s := poisonRows (writeLs s c o.rc { y with tiles := (x.tiles + 1) % 2 ^ 32, status := 0 }) c o.rc bad
      streamTiles s0 s core o q rest

/-- A stream at the head of the engine. With INIT every byte of the block that the fresh state does not hold is zero, as the block of R479
shows (log entry 36). -/
def runStream (s : State) (core : Nat) (o : TileOp) (f : F64P) : State :=
  let q := lsRecOf f
  let c := getCrew s o.crew
  let x := readLs s c o.rc
  if o.resumed then
    if x.status % 2 = 0 || !lsAgrees x q then tileFault s core o 0x28B 0
    else streamTiles s s core o q ((List.range q.ntiles).drop (x.tiles - o.t0.getD 0))
  else if q.init then
    if lsClobbers s c o.rc then tileFault s core o 0x200 (recBase o.rc) else
    let y := lsInit s c q
    streamTiles s (writeLs (cWrite s c (recBase o.rc) (recLen o.rc * 256) 0) c o.rc y) core { o with t0 := some 0 } q (List.range q.ntiles)
  else streamTiles s s core { o with t0 := some x.tiles } q (List.range q.ntiles)

/-! ### LSMERGE (R294) -/

/-- Two states may be merged. -/
def lsMergeable (d x : LsState) : Bool :=
  let n := d.shhi + 1 - d.shlo
  let labels (w : LsState) : List (List Nat) := (w.rows.take w.nrows).map (fun r => (r.labels.take w.nlab).map (·.1))
  d.k == x.k && d.nlab == x.nlab && d.nrows == x.nrows && d.l == x.l && labels d == labels x && x.shlo == d.shhi + 1
    && d.shlo ≤ d.shhi && n == 2 ^ n.log2 && d.shlo % n == 0 && x.shlo ≤ x.shhi && x.shhi + 1 - x.shlo ≤ n

def execLsmerge64 (f : F64R) (s : State) : Out :=
  let d := f.d.toNat % 32
  let a := f.a.toNat % 32
  runMatrix (.lsmerge64 f) f.g none 0 [] [] [d, a] s
    (fun c => freeRec [getOb c d, getOb c a] <|> firstCause [
      (!recState (getOb c d) || !recState (getOb c a), 0x281),
      (!lsMergeable (readLs s c (getOb c d)) (readLs s c (getOb c a)), 0x28B)])
    fun p ex =>
      let c := myCrew s
      issueTile s { tileOp (.lsmerge64 f) s p ex 0 with ra := getOb c a, rc := getOb c d, operands := [d, a, 0, 0] }

/-- One row of a merge, and its flags. -/
def mergeRow (x : LsState) (d r : LsRow) : LsRow × Nat :=
  let mn := maxF d.m r.m
  let a := scaleExp d.s d.m mn
  let b := scaleExp r.s r.m mn
  let t := addF a.1 b.1
  let merged := r.sheet.foldl (fun l e => insertSheet x.k e l) d.sheet
  let lab (i : Nat) : Nat × Nat :=
    if d.found.testBit i then d.labels.getD i (0, 0) else ((d.labels.getD i (0, 0)).1, (r.labels.getD i (0, 0)).2)
  ({ m := mn, s := if mn = negInf then 0 else t.1, flags := d.flags ||| r.flags, found := d.found ||| r.found
     labels := (List.range 8).map (fun i => if i < x.nlab then lab i else d.labels.getD i (0, 0)), sheet := merged.take x.k },
   if mn = negInf then 0 else a.2 ||| b.2 ||| t.2)

def runMerge (s : State) (core : Nat) (o : TileOp) : State :=
  let c := getCrew s o.crew
  let d := readLs s c o.rc
  let x := readLs s c o.ra
  if o.resumed && !lsMergeable d x then tileFault s core o 0x28B 0 else
  let rs := (d.rows.zip x.rows).zipIdx.map (fun e => if e.2 < d.nrows then mergeRow d e.1.1 e.1.2 else (e.1.1, 0))
  let y := { d with rows := rs.map (·.1), shhi := x.shhi, tiles := (d.tiles + x.tiles) % 2 ^ 32
                    mflags := (d.mflags ||| x.mflags ||| flagsOf (rs.map (fun r => (0, r.2)))) % 32 }
  if lsClobbers s c o.rc then tileFault s core o 0x200 (recBase o.rc)
  else if lsUsed y > sheetCap o.rc then tileFault s core o 0x280 0
  else
    let bad := (List.range d.nrows).filter (fun i => rowPoisoned s c o.rc i || rowPoisoned s c o.ra i)
    finishTile (poisonRows (writeLs s c o.rc y) c o.rc bad) core o

/-! ### LSGRAD (R295) -/

/-- DESIGN CHOICE (log entry 50): NVALID above 64, for which R295 names no cause, is 0x287 as the other limits of the record. -/
def execLsgrad64 (f : F64P) (s : State) : Out :=
  let g := withParams s.wave f
  let t := f.r.d.toNat % 32
  let obs := [f.r.a.toNat % 32, f.r.b.toNat % 32, f.r.c.toNat % 32]
  let ob (c : Crew) (i : Nat) : ObRec := getOb c (obs.getD i 0)
  let reserved := g.w0.getLsbD 31 || natBits g.w1.toNat 31 14 != 0 || natBits g.w1.toNat 7 0 != 0
  runMatrix (.lsgrad64 f) f.r.g (if reserved then some 0x002 else none) 0 [t] [] obs s
    (fun c => streamRecords c f.r <|> firstCause [
      (natBits g.w0.toNat 30 24 > 64 || !posNormal g.w3.toNat, 0x287), ((readLs s c (ob c 2)).l != g.w2.toNat, 0x28B)])
    fun p ex =>
      let c := myCrew s
      issueTile s { tileOp (.lsgrad64 g) s p ex t with ra := ob c 0, rb := ob c 1, rc := ob c 2, operands := [t, obs.getD 0 0, obs.getD 1 0, obs.getD 2 0] }

/-- The gradient of one logit. -/
def gradCell (x : LsState) (w : LsRow) (v g z : Nat) : Nat × Nat :=
  if w.flags % 4 ≠ 0 || w.s % 2 ^ 31 = 0 then (FKind.nan .fp32, 0) else
  let u := mulF z x.l
  let d := subF u.1 w.m
  let e := exp2F d.1
  let p := divF e.1 w.s
  let y : FVal := if x.nlab ≥ 1 && (w.labels.getD 0 (0, 0)).1 = v then .fin true 1 0 else .fin true 0 0
  let r := roundVal .fp32 .rne (mulExact (addExact .rne (fx p.1) y) (fx g))
  (r.1, u.2 ||| d.2 ||| e.2 ||| p.2 ||| r.2)

/-- `LSGRAD` of a tile. DESIGN CHOICE (log entry 51): the roundings of a logit that the gradient does not use, in a row from NROWS or a
column from NVALID on, leave no flag; R295 does not say. -/
def runGrad (s : State) (core : Nat) (o : TileOp) (f : F64P) : State :=
  let c := getCrew s o.crew
  let x := readLs s c o.rc
  let a := operandOf o.ra
  let b := operandOf o.rb
  let ps := panelsOf s c a b
  let nrows := natBits f.w1.toNat 13 8 + 1
  let nvalid := if natBits f.w0.toNat 30 24 = 0 then 64 else natBits f.w0.toNat 30 24
  let vidx := natBits f.w0.toNat 23 0
  let l := tileValues (fun i j =>
    if i ≥ nrows || j ≥ nvalid then (0, 0) else
    let z := productCell s c a b ps i j 0
    let r := gradCell x (x.rows.getD i {}) (vidx + j) f.w3.toNat z.1
    (r.1, z.2 ||| r.2))
  let rows := (List.range nrows).filter (fun i => (poisonedRows s c a).contains i || rowPoisoned s c o.rc i)
  let cols := poisonedCols s c b
  let put (k : Crew) : Crew := tileFlags (setInt (newTile k o.tile (l.map (·.1))) o.tile false) o.tile (flagsOf l)
  let poison (k : Crew) : Crew := if rows = [] ∧ cols = [] then k else
    poisonCells k o.tile (fun i j => i < nrows && j < nvalid && (rows.contains i || cols.contains j))
  finishTile (modCrew s o.crew (fun k => poison (put k))) core o

/-! ### The engine (R281) -/

/-- The engine runs the operation at its head. -/
def runTile (s : State) (core : Nat) (o : TileOp) : State :=
  match o.instr with
  | .mma64 _ => runMma s core o
  | .mdrain64 f => runDrain s core o f
  | .mbyp64 f => runByp s core o f
  | .rstat64 f => runStat s core o f
  | .lstream64 f => runStream s core o f
  | .lsmerge64 _ => runMerge s core o
  | .lsgrad64 f => runGrad s core o f
  | _ => finishTile s core o

def execMatrixOpComplete (core : Nat) (s : State) : Out :=
  match (getCore s core).engine with
  | [] => .next s
  | o :: _ => .next (runTile s core o)

end Sys2Proof.Machine
end

