-- ==== Sys2Proof/Machine/Engines.lean ====
section
/-! DEFINITION. The engines: completion entries (R308, R361), copy channels (R310 to R314, R395, R396) and the gather-pool
engines (R315 to R317). -/

namespace Sys2Proof.Machine

/-! ### Completion entries (R131, R308) -/

/-- The entry at a position leaves its engine, where its register takes it. -/
def execEngineEntryPush (e : Nat) (s : State) : Out := .next (landEntry e s)

/-! ### Bytes that an engine reaches -/

/-- Translate a byte address of an engine's space (R191, R192). -/
def engXlat (s : State) (vif die space addr acc : Nat) (latent : Bool) : State × Except Nat Xlat :=
  match space with
  | 2 => match vaultAddr s vif addr with
    | .ok (.ok pa) => (s, .ok { pa := pa, mode := vaultMode, w := true })
    | .ok (.error c) => (s, .error c)
    | .error c => (s, .error c)
  | 3 =>
    let (pkg, va) := xTarget addr
    if !canonical va then (s, .error 0x104)
    else if pkg = vifPkg vif then translate s vif die va acc latent
    else match jobIface s vif pkg with
      | none => (s, .error 0x100)
      | some v => translate s v (2 * pkg) va acc false
  | _ => if !canonical addr then (s, .error 0x104) else translate s vif die addr acc latent

/-- Read the bytes, `n` at most, that one granule holds from an address: how many, their value, and whether they are poisoned. -/
def engRead (s : State) (vif die space addr n : Nat) : State × Except Nat (Nat × Nat × Bool) :=
  match engXlat s vif die space addr 0 false with
  | (s, .error c) => (s, .error c)
  | (s, .ok t) =>
    let k := runLen addr t.pa n
    let p := poisoned s t.pa k
    if space = 2 then (s, .ok (k, valueAt (homeValue s (lineOf t.pa)) t.pa k, p))
    else let (s, b) := readDie s die t.pa k; (s, .ok (k, b, p))

/-- Read `n` bytes as one number. -/
def engReadBy (fuel : Nat) (s : State) (vif die space addr n : Nat) : State × Except Nat (Nat × Bool) :=
  match fuel with
  | 0 => (s, .ok (0, false))
  | f + 1 =>
    if n = 0 then (s, .ok (0, false)) else
    match engRead s vif die space (addr % 2 ^ 64) n with
    | (s, .error c) => (s, .error c)
    | (s, .ok (k, b, p)) =>
      match engReadBy f s vif die space ((addr + k) % 2 ^ 64) (n - k) with
      | (s, .error c) => (s, .error c)
      | (s, .ok (r, q)) => (s, .ok (b + 256 ^ k * r, p || q))

def engReadN (s : State) (vif die space addr n : Nat) : State × Except Nat (Nat × Bool) := engReadBy n s vif die space addr n

/-- Write the bytes, of `n` with value `x`, that lie with the first in one granule of ordinary memory, with the poison of their
source: how many were written. -/
def engWrite (s : State) (vif die space addr n x : Nat) (poison : Bool) : State × Except Nat Nat :=
  match engXlat s vif die space addr 1 false with
  | (s, .error c) => (s, .error c)
  | (s, .ok t) =>
    let k := runLen addr t.pa n
    let x := x % 256 ^ k
    let s := if space = 2 then unpoison (writeHome s (lineOf t.pa) (dataAt t.pa x) (maskAt t.pa k)) t.pa k
      else
        let (v, va) := if space = 3 then ((jobIface s vif (xTarget addr).1).getD vif, (xTarget addr).2) else (vif, addr)
        let s := recordWrite s (if space = 3 && (xTarget addr).1 = vifPkg vif then vif else v) va t.pte
        writeRun (modeSettle s t.mode t.pa) die t.pa k x
    (if poison then setPoison s t.pa true else s, .ok k)

/-! ### Commands of a channel (R311 to R314) -/

/-- The fields of a copy's shape record. -/
structure Copy where
  sp : Nat := 0
  rowBytes : Nat := 0
  gstride : Nat := 0
  nrows : Nat := 0
  wm : Bool := false
  waddr : Nat := 0
  bv : Bool := false
  slot : Nat := 0
  deriving DecidableEq, Repr

def copyOf (w0 w1 w2 w3 : Word) : Copy :=
  { sp := natBits w0.toNat 30 28, rowBytes := natBits w0.toNat 19 0, gstride := natBits w1.toNat 30 0
    nrows := natBits w2.toNat 30 20 + 1, wm := w3.getLsbD 30, waddr := natBits w3.toNat 26 8, bv := w3.getLsbD 6
    slot := natBits w3.toNat 5 0 }

def cmdCopy (c : Command) : Copy := copyOf c.w0 c.w1 c.w2 c.w3

def isPlane (c : Command) : Bool := match c.instr with | .plane64 _ => true | _ => false
def cmdCut (c : Command) : Bool := match c.instr with | .cpy64 f => f.r.fn.getLsbD 4 | _ => false
def cmdOut (c : Command) : Bool := match c.instr with | .cpy64 f => f.r.fn.getLsbD 3 | _ => false

/-- The command's data travel in tagged blocks (R312). -/
def cmdTagged (c : Command) : Bool := if isPlane c then (cmdCopy c).sp != 1 else !cmdOut c

/-- Units of a command, bytes of a copy and panels of a `PLANE`, and how many of them a tag block covers. -/
def cmdTotal (c : Command) : Nat := if isPlane c then recLen c.rec0 else (cmdCopy c).nrows * (cmdCopy c).rowBytes
def cmdBlock (c : Command) : Nat := if isPlane c then 1 else 2048

/-- Bench bytes of a unit, and the bench offset of the first. -/
def cmdUnit (c : Command) : Nat := if isPlane c then recStride c.rec0 else 1
def cmdBase (c : Command) : Nat := if isPlane c then recBase c.rec0 else c.vb

def getWptr (s : State) (core ch : Nat) : DWord := smGet (getCore s core).wptr 0 ch
def setWptr (s : State) (core ch : Nat) (v : DWord) : State := modCore s core (fun c => { c with wptr := smSet c.wptr 0 ch v })

/-- POS and RETRACTED of a `WPTR`. -/
def withPos (v : DWord) (pos : Nat) (retracted : Bool) : DWord :=
  BitVec.ofNat 64 (v.toNat / 2 ^ 32 * 2 ^ 32 + (if retracted then 2 ^ 31 else 0) + pos % 2 ^ 31)

def headCmd (s : State) (core ch : Nat) : Option Command := (smGet (getCore s core).chan [] ch).head?

def setHead (s : State) (core ch : Nat) (c : Command) : State :=
  modCore s core (fun k => { k with chan := smMod k.chan [] ch (fun q => c :: q.drop 1) })

/-- A command has delivered `n` units; with the last it holds no replay entry any more (R313). -/
def deliveredTo (c : Command) (n : Nat) : Command := { c with delivered := n, read := decide (cmdTotal c ≤ n) }

/-- Write the mirror word. -/
def mirror (s : State) (core ch : Nat) (c : Command) : State :=
  if (cmdCopy c).wm then cWrite s (getCrew s c.crew) (cmdCopy c).waddr 8 (getWptr s core ch).toNat else s

/-- POS moves to a unit of the command; the mirror follows. -/
def placePos (s : State) (core ch : Nat) (c : Command) (units : Nat) (retracted : Bool) : State :=
  setWptr s core ch (withPos (getWptr s core ch) (cmdBase c + units * cmdUnit c) retracted)
def movePos (s : State) (core ch : Nat) (c : Command) (units : Nat) (retracted : Bool) : State :=
  mirror (placePos s core ch c units retracted) core ch c

/-- The mirror word of a command meets an object with waves parked (R397). -/
def mirrorClobbers (s : State) (c : Command) : Bool := (cmdCopy c).wm && spanClobbers s (getCrew s c.crew) (cmdCopy c).waddr 8

/-- The command ends: its entry, its count, its object. -/
def endCmd (s : State) (core ch : Nat) (c : Command) (cause : Nat) (entry : Bool) : State :=
  let v := getWptr s core ch
  let s := modCore s core (fun k => { k with chan := smMod k.chan [] ch (fun q => q.drop 1) })
  let s := if entry then pushEntry s c.w 5 [ch, v.toNat / 2 ^ 32, v.toNat % 2 ^ 31, cause] false else s
  let s := modWave s c.w (fun x => { x with cpy := x.cpy - 1 })
  slotEnd s (getCrew s c.crew) (cmdCopy c).bv (cmdCopy c).slot 0 0

/-- Bytes that the command has had verified or performed are counted (R231). -/
def countCmd (s : State) (c : Command) (units sig : Nat) : State :=
  if (cmdCopy c).bv && units ≠ 0 then (match crewSlot (getCrew s c.crew) (cmdCopy c).slot with
    | some o => arrive s o (units * cmdUnit c) sig
    | none => s) else s

/-- A deferred fault of an engine command (R243). -/
def cmdFault (s : State) (c : Command) (cause addr : Nat) : State :=
  let r : Replay := { ecause := cause, shadow := (getWave s c.w).shadow, path := c.path, rlanes := c.lanes, ipc := c.pc, parcels := encode c.instr
                      operands := [c.vd, c.va, c.vb, c.vc], seq := c.id }
  if live (getWave s c.w) == 0 then s else
  let s := modWave s c.w (fun x => addReplay x r)
  raise s c.w { cause := cause, rank := 4, order := c.id, path := c.path, lanes := c.lanes, addr := addr }

/-- The lines that the first `n` bytes of an `.out` copy's stream were written to. -/
def copySig (s : State) (c : Command) (vif die n : Nat) : Nat :=
  let q := cmdCopy c
  if q.sp != 0 then 0 else
  (List.range q.nrows).foldl (fun a r =>
    if r * q.rowBytes ≥ n then a else a ||| spanSig s vif die ((c.va + r * q.gstride) % 2 ^ 64) (min q.rowBytes (n - r * q.rowBytes)) false) 0

/-- An `.out` copy has its first `n` bytes performed: at die scope, and with BV at its barrier's, where they are counted (R311). -/
def performCopy (s : State) (core : Nat) (c : Command) (n : Nat) : State :=
  let cr := getCrew s c.crew
  let q := cmdCopy c
  if q.bv then countCmd (performAt s (coreDie core) (slotScope s cr q.bv q.slot)) c n (copySig s c cr.vif (coreDie core) n) else s

/-- A channel's command stops on a deferred fault: the bytes that an `.out` copy has delivered are counted (R313). -/
def stopCmd (s : State) (core ch : Nat) (c : Command) (cause addr : Nat) : State :=
  cmdFault (endCmd (if cmdOut c then performCopy s core c c.delivered else s) core ch c cause true) c cause addr

/-- An engine write of the command meets an object with waves parked (R397). -/
def cmdClobbers (s : State) (c : Command) (off n : Nat) : Bool :=
  let cr := getCrew s c.crew
  spanClobbers s cr off n || mirrorClobbers s c

/-! ### Issue (R298, R313) -/

/-- A command as it leaves the issuing wave. -/
def command (i : Instr) (s : State) (p : Path) (ex : Lanes) (f : F64P) (d a b c : Nat) : Command :=
  { id := s.nextId, w := s.cur, path := if s.wave.turnB then 1 else 0, crew := s.wave.crew, pc := p.pc, lanes := ex, instr := i
    w0 := f.w0, w1 := f.w1, w2 := f.w2, w3 := f.w3, vd := d, va := a, vb := b, vc := c }

/-- A command enters its channel; a full queue, or no replay entry, ends the stroke. -/
def enterChannel (s : State) (ch : Nat) (c : Command) : Res :=
  let core := waveCore s.cur
  if entriesUsed s s.cur ≥ Config.replayLimit then .hold s .replay (some (slotOf s.wave s.wave.turnB))
  else if (smGet (getCore s core).chan [] ch).length ≥ Config.channelDepth then .hold s (.channel ch) (some (slotOf s.wave s.wave.turnB))
  else
    let s := { s with wave := { s.wave with cpy := s.wave.cpy + 1 }, nextId := s.nextId + 1 }
    let s := modMyCrew s (fun k => { k with chans := k.chans ||| 2 ^ ch })
    let s := slotBegin s (myCrew s) (cmdCopy c).bv (cmdCopy c).slot
    .done (modCore s core (fun k => { k with chan := smMod k.chan [] ch (fun q => q ++ [c]) }))

/-- A precise cause of an engine instruction, then its effect. -/
def runEngine (i : Instr) (g : BitVec 5) (pre : Option Nat) (obs : List Nat) (s : State) (cause : Crew → Option Nat)
    (body : Path → Lanes → Res) : Out :=
  runInstr i g pre 0 s fun p ex =>
    if ex == 0 then .done s else
    match unitCause (myCrew s) [] [] obs <|> cause (myCrew s) with
    | some c => .fault s c ex [] 0
    | none => body p ex

/-- The base that an address of a space must be canonical as (R241, R313). -/
def baseCanonical (sp addr : Nat) : Bool := if sp = 3 then canonical (xTarget addr).2 else if sp = 0 then canonical addr else true

def execCpy64 (f : F64P) (s : State) : Out :=
  let x := s.wave
  let g := withParams x f
  let q := copyOf g.w0 g.w1 g.w2 g.w3
  let a := if q.sp = 2 then sGet x f.r.a.toNat else sPair64 x f.r.a.toNat
  let b := sGet x f.r.b.toNat
  let n := q.nrows * q.rowBytes
  let reserved := g.w0.getLsbD 31 || natBits g.w0.toNat 27 20 != 0 || g.w1.getLsbD 31 || g.w2.getLsbD 31 || natBits g.w2.toNat 19 0 != 0
    || g.w3.getLsbD 31 || natBits g.w3.toNat 29 27 != 0 || g.w3.getLsbD 7 || !(q.sp == 0 || q.sp == 2 || q.sp == 3)
    || (q.sp != 2 && f.r.a.toNat % 2 == 1)
  runEngine (.cpy64 f) f.r.g (if reserved then some 0x002 else none) [] s
    (fun c => firstCause [
      (b + n > c.benchSize || (q.wm && q.waddr + 8 > c.benchSize) || slotCause s c q.bv q.slot == some 0x101, 0x101),
      (!baseCanonical q.sp a, 0x104), (slotCause s c q.bv q.slot == some 0x207, 0x207),
      (q.rowBytes == 0 || q.rowBytes > 524288 || (q.wm && q.waddr % 8 != 0), 0x208)])
    fun p ex => enterChannel s (fnBits f.r.fn 2 0) (command (.cpy64 g) s p ex g 0 a b 0)

/-- Bytes of `n` elements of a matrix format in a source row. -/
def rowBytesOf (fmt n : Nat) : Nat := if fmt ≥ 6 then (n + 1) / 2 else if fmt = 2 || fmt = 3 then 2 * n else n

/-- Rows and columns of a record's source (R314). -/
def planeRows (r : ObRec) : Nat := if recRoleB r then 24 * recLen r else 64
def planeCols (r : ObRec) : Nat := if recRoleB r then 64 else if recSparse r then recN r * recLen r else 24 * recLen r

def execPlane64 (f : F64P) (s : State) : Out :=
  let x := s.wave
  let g := withParams x f
  let q := copyOf g.w0 g.w1 g.w2 g.w3
  let one := q.sp == 1 || q.sp == 2
  let a := if one then sGet x f.r.a.toNat else sPair64 x f.r.a.toNat
  let n := f.r.d.toNat % 32
  let r (c : Crew) : ObRec := getOb c n
  let row (c : Crew) : Nat := rowBytesOf (recFmt (r c)) (planeCols (r c))
  let reserved := natBits g.w0.toNat 27 0 != 0 || g.w0.getLsbD 31 || g.w1.getLsbD 31 || g.w2 != 0
    || g.w3.getLsbD 31 || natBits g.w3.toNat 29 27 != 0 || g.w3.getLsbD 7 || q.sp > 3 || (!one && f.r.a.toNat % 2 == 1)
  runEngine (.plane64 f) f.r.g (if reserved then some 0x002 else none) [n] s
    (fun c => firstCause [
      ((q.sp == 1 && a + (planeRows (r c) - 1) * q.gstride + row c > c.benchSize) || (q.wm && q.waddr + 8 > c.benchSize)
        || slotCause s c q.bv q.slot == some 0x101, 0x101),
      (!baseCanonical q.sp a, 0x104), (slotCause s c q.bv q.slot == some 0x207, 0x207),
      ((q.wm && q.waddr % 8 != 0) || q.gstride < row c, 0x208)]
      <|> freeRec [r c] <|> (if recState (r c) then some 0x281 else none))
    fun p ex => enterChannel s (fnBits f.r.fn 2 0) { command (.plane64 g) s p ex g n a 0 0 with rec0 := r (myCrew s) }

/-! ### The steps of a command -/

def execCopyCommandStart (core ch : Nat) (s : State) : Out :=
  match headCmd s core ch with
  | none => .next s
  | some c =>
    if c.started then .next s else
    let v := getWptr s core ch
    let v' := BitVec.ofNat 64 ((v.toNat / 2 ^ 32 + 1) % 2 ^ 32 * 2 ^ 32 + cmdBase c % 2 ^ 31)
    .next (setHead (setWptr s core ch v') core ch { c with started := true, wptr0 := v })

/-- The global address of byte `e` of a copy's stream. -/
def streamAddr (c : Command) (e : Nat) : Nat :=
  let q := cmdCopy c
  (c.va + e / q.rowBytes * q.gstride + e % q.rowBytes) % 2 ^ 64

/-- How many of `n` bytes of a copy's stream from byte `e` lie in one row. -/
def rowRun (c : Command) (e n : Nat) : Nat := min n ((cmdCopy c).rowBytes - e % (cmdCopy c).rowBytes)

/-- Read `n` bytes of a copy's stream from byte `e`: their number, or the cause and the address that met it. -/
def readStreamBy (fuel : Nat) (s : State) (c : Command) (vif die e n : Nat) : State × Except (Nat × Nat) Nat :=
  match fuel with
  | 0 => (s, .ok 0)
  | f + 1 =>
    if n = 0 then (s, .ok 0) else
    let a := streamAddr c e
    match engRead s vif die (cmdCopy c).sp a (rowRun c e n) with
    | (s, .error k) => (s, .error (k, a))
    | (s, .ok (_, _, true)) => (s, .error (0x109, a))
    | (s, .ok (k, b, false)) =>
      match readStreamBy f s c vif die (e + k) (n - k) with
      | (s, .error k) => (s, .error k)
      | (s, .ok r) => (s, .ok (b + 256 ^ k * r))

def readStream (s : State) (c : Command) (vif die e n : Nat) : State × Except (Nat × Nat) Nat := readStreamBy n s c vif die e n

/-- Write `n` bytes of a copy's stream from the bench, granule by granule: how many were written, and the cause and the address
that met it where a fault ends it. -/
def writeStreamBy (fuel : Nat) (s : State) (c : Command) (vif die e n : Nat) : State × Nat × Option (Nat × Nat) :=
  match fuel with
  | 0 => (s, 0, none)
  | f + 1 =>
    if n = 0 then (s, 0, none) else
    let a := streamAddr c e
    let cr := getCrew s c.crew
    let off := crewBench cr (c.vb + e)
    let m := min (rowRun c e n) (32 - a % 32)
    match engWrite s vif die (cmdCopy c).sp a m (s.bench.readN off m) (benchPoisoned s off m) with
    | (s, .error k) => (s, 0, some (k, a))
    | (s, .ok k) =>
      let (s, m, r) := writeStreamBy f s c vif die (e + k) (n - k)
      (s, k + m, r)

def writeStream (s : State) (c : Command) (vif die e n : Nat) : State × Nat × Option (Nat × Nat) := writeStreamBy n s c vif die e n

/-- The bits of an element of `PLANE`'s source row, `col` elements in. -/
def sourceElem (fmt row col : Nat) : Nat :=
  if fmt ≥ 6 then row / 16 ^ col % 16 else if fmt = 2 || fmt = 3 then row / 65536 ^ col % 65536 else row / 256 ^ col % 256

/-- Source rows of panel `st`: for each the address of its first byte and the number of elements (R314). -/
def panelRows (r : ObRec) (a stride st : Nat) : List (Nat × Nat) :=
  let fmt := recFmt r
  if recRoleB r then (List.range 24).map (fun k => (a + (24 * st + k) * stride, 64))
  else
    let n := if recSparse r then recN r else 24
    (List.range 64).map (fun i => (a + i * stride + rowBytesOf fmt (n * st), n))

/-- Read source rows, in the order of the panel's elements. -/
def readRows (s : State) (c : Command) (vif die fmt : Nat) (l : List (Nat × Nat)) : State × Except (Nat × Nat) (List Nat) :=
  match l with
  | [] => (s, .ok [])
  | (a, n) :: rest =>
    let bytes := rowBytesOf fmt n
    let cr := getCrew s c.crew
    let rd := if (cmdCopy c).sp = 1 then (s, Except.ok (cRead s cr a bytes, benchPoisoned s (crewBench cr a) bytes))
      else engReadN s vif die (cmdCopy c).sp (a % 2 ^ 64) bytes
    match rd with
    | (s, .error k) => (s, .error (k, a % 2 ^ 64))
    | (s, .ok (_, true)) => (s, .error (0x109, a % 2 ^ 64))
    | (s, .ok (x, false)) =>
      match readRows s c vif die fmt rest with
      | (s, .error k) => (s, .error k)
      | (s, .ok es) => (s, .ok ((List.range n).map (sourceElem fmt x) ++ es))

/-- One more unit of the command at the head of a channel: a flit of a copy, or a panel of a `PLANE`. -/
def deliverCmd (s : State) (core ch : Nat) (c : Command) : State :=
  let cr := getCrew s c.crew
  let die := coreDie core
  if isPlane c then
    let r := c.rec0
    let off := recBase r + c.delivered * recStride r
    match readRows s c cr.vif die (recFmt r) (panelRows r c.va (cmdCopy c).gstride c.delivered) with
    | (s, .error (k, a)) => stopCmd s core ch c k a
    | (s, .ok es) =>
      if cmdClobbers s c off (recStride r) then stopCmd s core ch c 0x200 0 else
      let s := benchSpan s cr off (recStride r) (panelNat (recFmt r) es) false
      let c := deliveredTo c (c.delivered + 1)
      if cmdTagged c then setHead s core ch c
      else countCmd (movePos (setHead s core ch { c with verified := c.delivered }) core ch c c.delivered false) c 1 0
  else
    let n := min 64 (cmdTotal c - c.delivered)
    if cmdOut c then
      let (s, m, fault) := writeStream s c cr.vif die c.delivered n
      let c := { deliveredTo c (c.delivered + m) with verified := c.delivered + m }
      let s := setHead s core ch c
      if mirrorClobbers s c then stopCmd s core ch c 0x200 0 else
      let s := movePos s core ch c c.delivered false
      match fault with
      | some (k, a) => stopCmd s core ch c k a
      | none => s
    else
      match readStream s c cr.vif die c.delivered n with
      | (s, .error (k, a)) => stopCmd s core ch c k a
      | (s, .ok v) =>
        if cmdClobbers s c (c.vb + c.delivered) n then stopCmd s core ch c 0x200 0 else
        let s := benchSpan s cr (c.vb + c.delivered) n v false
        let c := deliveredTo c (c.delivered + n)
        let s := setHead s core ch c
        if cmdCut c then movePos s core ch c c.delivered false else mirror s core ch c

def execCopyFlitDelivery (core ch : Nat) (s : State) : Out :=
  match headCmd s core ch with
  | none => .next s
  | some c => if c.started && c.delivered < cmdTotal c then .next (deliverCmd s core ch c) else .next s

/-- The end of the block that is verified next, when its flits are in. -/
def blockIn (c : Command) : Option Nat :=
  let e := min (cmdTotal c) ((c.verified / cmdBlock c + 1) * cmdBlock c)
  if cmdTagged c && c.started && c.verified < cmdTotal c && c.delivered ≥ e then some e else none

def execCopyBlockVerified (core ch : Nat) (s : State) : Out :=
  match headCmd s core ch with
  | none => .next s
  | some c => match blockIn c with
    | none => .next s
    | some e =>
      let s := countCmd (setHead s core ch { c with verified := e, refetched := false }) c (e - c.verified) 0
      .next (if cmdCut c then s
        else if mirrorClobbers s c then stopCmd (placePos s core ch c e false) core ch { c with verified := e } 0x200 0
        else movePos s core ch c e false)

/-- Bench bytes at and above the last verified unit may hold unverified data: free values (log entry 1). -/
def unverified (s : State) (c : Command) : State :=
  let n := (c.delivered - c.verified) * cmdUnit c
  let v := bytesNat ((List.range n).map (fun i => Config.freeByte (s.free + i)))
  cWrite { s with free := s.free + n } (getCrew s c.crew) (cmdBase c + c.verified * cmdUnit c) n v

/-- A failed tag ends the command: its entry, its count, the error of its object (R394, R395). -/
def tagFail (s : State) (core ch : Nat) (c : Command) : State :=
  let s := if (cmdCopy c).bv then (match crewSlot (getCrew s c.crew) (cmdCopy c).slot with
      | some o => failObj s o 0x204
      | none => s) else s
  endCmd s core ch c 0x204 true

/-- A failed tag of a cut-through channel (R395). DESIGN CHOICE (log entry 66): where waves are parked on an object under the mirror word,
that word is not rewritten and the lanes take 0x200 besides (R397). -/
def execChanTagFail (core ch : Nat) (s : State) : Out :=
  match headCmd s core ch with
  | none => .next s
  | some c =>
    if !cmdCut c || (blockIn c).isNone then .next s else
    let s := placePos (unverified s c) core ch c c.verified true
    .next (if mirrorClobbers s c then cmdFault (tagFail s core ch c) c 0x200 0 else tagFail (mirror s core ch c) core ch c)

def execCopyBlockRefetch (core ch : Nat) (s : State) : Out :=
  match headCmd s core ch with
  | none => .next s
  | some c =>
    if cmdCut c || (blockIn c).isNone then .next s
    else if !c.refetched then .next (setHead (unverified s c) core ch { deliveredTo c c.verified with refetched := true })
    else .next (tagFail (unverified s c) core ch c)

def execCopyComplete (core ch : Nat) (s : State) : Out :=
  match headCmd s core ch with
  | none => .next s
  | some c =>
    if !c.started || c.verified < cmdTotal c then .next s else
    .next (endCmd (if cmdOut c then performCopy s core c (cmdTotal c) else s) core ch c 0 true)

/-! ### GATHER and POOL (R315 to R317) -/

/-- The fields of a gather-pool record. -/
structure Gather where
  efmt : Nat := 0
  tsp : Nat := 0
  rowLen : Nat := 0
  tstride : Nat := 0
  nbag : Nat := 0
  nidx : Nat := 0
  dsp : Bool := false
  i64 : Bool := false
  bv : Bool := false
  slot : Nat := 0
  pool : Bool := false
  deriving DecidableEq, Repr

def gatherOf (pool : Bool) (w0 w1 w2 w3 : Word) : Gather :=
  { efmt := natBits w0.toNat 30 28, tsp := if w0.getLsbD 27 then 3 else 0, rowLen := natBits w0.toNat 11 0 + 1
    tstride := natBits w1.toNat 30 0, nbag := natBits w2.toNat 30 16, nidx := natBits w2.toNat 15 0 + 1, dsp := w3.getLsbD 30
    i64 := w3.getLsbD 8, bv := w3.getLsbD 6, slot := natBits w3.toNat 5 0, pool := pool }

/-- Element bytes, and the format (none for INT8). -/
def gatherSize (e : Nat) : Nat := match e with | 0 => 4 | 1 => 2 | 2 => 2 | _ => 1
def gatherKind (e : Nat) : FKind := match e with | 0 => .fp32 | 1 => .bf16 | 2 => .fp16 | 3 => .e4m3 | _ => .e5m2

/-- Bytes of an index, of the index list with its offsets, and of the output. -/
def idxBytes (q : Gather) : Nat := if q.i64 then 8 else 4
def listBytes (q : Gather) : Nat := q.nidx * idxBytes q + (if q.pool then 4 * (q.nbag + 1) else 0)
def outBytes (q : Gather) : Nat := if q.pool then q.nbag * q.rowLen * 4 else q.nidx * q.rowLen * gatherSize q.efmt

/-- GATHER and POOL at issue. -/
def runGather (i : F64P → Instr) (pool : Bool) (f : F64P) (s : State) : Out :=
  let x := s.wave
  let g := withParams x f
  let q := gatherOf pool g.w0 g.w1 g.w2 g.w3
  let d := sPair64 x f.r.d.toNat
  let a := sPair64 x f.r.a.toNat
  let b := sGet x f.r.b.toNat
  let c := if q.dsp then sPair64 x f.r.c.toNat else sGet x f.r.c.toNat
  let reserved := g.w0.getLsbD 31 || natBits g.w0.toNat 26 12 != 0 || g.w1.getLsbD 31 || g.w2.getLsbD 31 || g.w3.getLsbD 31
    || natBits g.w3.toNat 29 9 != 0 || g.w3.getLsbD 7 || q.efmt > 5 || (pool && q.efmt == 5) || pool == (q.nbag == 0)
    || (q.dsp && f.r.c.toNat % 2 == 1)
  runEngine (i f) f.r.g (if reserved then some 0x002 else none) [] s
    (fun k => firstCause [
      (b + listBytes q > k.benchSize || (!q.dsp && c + outBytes q > k.benchSize) || slotCause s k q.bv q.slot == some 0x101, 0x101),
      (!baseCanonical q.tsp a || (q.dsp && !canonical c), 0x104), (slotCause s k q.bv q.slot == some 0x207, 0x207),
      (q.tstride % gatherSize q.efmt != 0, 0x208)])
    fun p ex =>
      let cl := coreCluster (waveCore s.cur)
      if entriesUsed s s.cur ≥ Config.replayLimit then .hold s .replay (some (slotOf s.wave s.wave.turnB))
      else if (smGet s.gathers [] cl).length ≥ Config.gatherDepth then .hold s .gather (some (slotOf s.wave s.wave.turnB))
      else
        let cmd := { command (i g) s p ex g d a b c with seq := x.seqGather }
        let s := { s with wave := { x with eng := x.eng + 1, seqGather := (x.seqGather + 1) % 2 ^ 32 }, nextId := s.nextId + 1 }
        let s := slotBegin s (myCrew s) q.bv q.slot
        .done { s with gathers := smMod s.gathers [] cl (fun l => l ++ [cmd]) }

def execGather64 (f : F64P) (s : State) : Out := runGather .gather64 false f s
def execPool64 (f : F64P) (s : State) : Out := runGather .pool64 true f s

def cmdPool (c : Command) : Bool := match c.instr with | .pool64 _ => true | _ => false
def cmdGather (c : Command) : Gather := gatherOf (cmdPool c) c.w0 c.w1 c.w2 c.w3

/-- What a run of the engine has collected: flags, OOB count, first OOB position, poison met. -/
structure Tally where
  flags : Nat := 0
  oob : Nat := 0
  first : Nat := 0xFFFFFFFF
  poison : Bool := false
  deriving DecidableEq, Repr

def Tally.miss (t : Tally) (n : Nat) : Tally := { t with oob := t.oob + 1, first := if t.oob = 0 then n else t.first }

/-- Write an output row of `n` bytes at byte `off` of the destination. -/
def writeOut (s : State) (cr : Crew) (die : Nat) (c : Command) (off n v : Nat) (poison : Bool) : State × Except (Nat × Nat) Unit :=
  if (cmdGather c).dsp then
    let a := (c.vc + off) % 2 ^ 64
    match writeVirt s cr.vif die a true (natBytes n v) with
    | (s, .error k) => (s, .error (k, a))
    | (s, .ok ()) => (if poison then poisonVirt s cr.vif die a n else s, .ok ())
  else if spanClobbers s cr (c.vc + off) n then (s, .error (0x200, 0))
  else (benchSpan s cr (c.vc + off) n v poison, .ok ())

/-- One table row as a number, and whether it is poisoned; an index beyond LIMIT has none. -/
def tableRow (s : State) (cr : Crew) (die : Nat) (c : Command) (idx : Nat) : State × Except (Nat × Nat) (Option (Nat × Bool)) :=
  let q := cmdGather c
  if idx ≥ c.vd then (s, .ok none) else
  let a := (c.va + idx * q.tstride) % 2 ^ 64
  match engReadN s cr.vif die q.tsp a (q.rowLen * gatherSize q.efmt) with
  | (s, .error k) => (s, .error (k, a))
  | (s, .ok r) => (s, .ok (some r))

/-- Index `n` of the list. -/
def indexAt (s : State) (cr : Crew) (c : Command) (n : Nat) : Nat :=
  cRead s cr (c.vb + n * idxBytes (cmdGather c)) (idxBytes (cmdGather c))

/-- GATHER from position `n` on. -/
def gatherRows (s : State) (cr : Crew) (die : Nat) (c : Command) (t : Tally) (n k : Nat) : State × Except (Nat × Nat) Tally :=
  match k with
  | 0 => (s, .ok t)
  | k + 1 =>
    let q := cmdGather c
    let len := q.rowLen * gatherSize q.efmt
    match tableRow s cr die c (indexAt s cr c n) with
    | (s, .error e) => (s, .error e)
    | (s, .ok r) =>
      let t := match r with | none => t.miss n | some (_, p) => { t with poison := t.poison || p }
      match writeOut s cr die c (n * len) len (match r with | some (v, _) => v | none => 0) (match r with | some (_, p) => p | none => false) with
      | (s, .error e) => (s, .error e)
      | (s, .ok ()) => gatherRows s cr die c t (n + 1) k

/-- Add a row to a bag's sums (R70). -/
def addRow (q : Gather) (row : Nat) (acc : List (Nat × Nat)) : List (Nat × Nat) :=
  acc.zipIdx.map (fun e =>
    let x := roundVal .fp32 .rne (unpack (gatherKind q.efmt) (row / 256 ^ (e.2 * gatherSize q.efmt) % 256 ^ gatherSize q.efmt))
    let y := addF e.1.1 x.1
    (y.1, e.1.2 ||| x.2 ||| y.2))

/-- The sums of a bag, over positions from `n`. -/
def bagSum (s : State) (cr : Crew) (die : Nat) (c : Command) (acc : List (Nat × Nat)) (p : Bool) (t : Tally) (n k : Nat) :
    State × Except (Nat × Nat) (List (Nat × Nat) × Bool × Tally) :=
  match k with
  | 0 => (s, .ok (acc, p, t))
  | k + 1 =>
    match tableRow s cr die c (indexAt s cr c n) with
    | (s, .error e) => (s, .error e)
    | (s, .ok none) => bagSum s cr die c acc p (t.miss n) (n + 1) k
    | (s, .ok (some (v, q))) => bagSum s cr die c (addRow (cmdGather c) v acc) (p || q) { t with poison := t.poison || q } (n + 1) k

/-- Offset `b` of a POOL. -/
def offsetAt (s : State) (cr : Crew) (c : Command) (b : Nat) : Nat :=
  cRead s cr (c.vb + (cmdGather c).nidx * idxBytes (cmdGather c) + 4 * b) 4

/-- POOL from bag `b` on. -/
def poolBags (s : State) (cr : Crew) (die : Nat) (c : Command) (t : Tally) (b k : Nat) : State × Except (Nat × Nat) Tally :=
  match k with
  | 0 => (s, .ok t)
  | k + 1 =>
    let q := cmdGather c
    let lo := offsetAt s cr c b
    match bagSum s cr die c (List.replicate q.rowLen (2 ^ 31, 0)) false t lo (offsetAt s cr c (b + 1) - lo) with
    | (s, .error e) => (s, .error e)
    | (s, .ok (acc, p, t)) =>
      let t := { t with flags := t.flags ||| flagsOf acc }
      match writeOut s cr die c (b * q.rowLen * 4) (q.rowLen * 4) (acc.foldr (fun a r => a.1 + 2 ^ 32 * r) 0) p with
      | (s, .error e) => (s, .error e)
      | (s, .ok ()) => poolBags s cr die c t (b + 1) k

/-- A POOL's offsets decrease, or end above NIDX. -/
def badOffsets (s : State) (cr : Crew) (c : Command) : Bool :=
  let q := cmdGather c
  q.pool && ((List.range q.nbag).any (fun b => offsetAt s cr c b > offsetAt s cr c (b + 1)) || offsetAt s cr c q.nbag > q.nidx)

/-- Run a command of a gather-pool engine. -/
def runPool (s : State) (cl : Nat) (i : Nat) (c : Command) : State :=
  let q := cmdGather c
  let cr := getCrew s c.crew
  let die := cl / 32
  let s := { s with gathers := smMod s.gathers [] cl (fun l => l.eraseIdx i) }
  let fail (s : State) (k a : Nat) : State := cmdFault (lowerEng (slotEnd s cr q.bv q.slot 0 0) c.w) c k a
  if badOffsets s cr c then fail s 0x20A 0 else
  match (if q.dsp && outBytes q ≠ 0 then (if !canonical ((c.vc + outBytes q - 1) % 2 ^ 64) then some 0x104 else latentCause s cr.vif die c.vc (outBytes q)) else none) with
  | some k => fail s k c.vc
  | none =>
    match (if q.pool then poolBags s cr die c {} 0 q.nbag else gatherRows s cr die c {} 0 q.nidx) with
    | (s, .error (k, a)) => fail s k a
    | (s, .ok t) =>
      let sig := if q.dsp && q.bv then spanSig s cr.vif die c.vc (outBytes q) true else 0
      let s := if q.dsp then performAt s die (max 5 (slotScope s cr q.bv q.slot)) else s
      let s := slotEnd s cr q.bv q.slot (outBytes q) sig
      pushEntry s c.w 2 [c.seq, t.flags % 32 + (if t.oob = 0 then 0 else 2 ^ 8) + (if t.poison then 2 ^ 9 else 0), t.oob, t.first] true

def execGatherPoolComplete (cluster i : Nat) (s : State) : Out :=
  match (smGet s.gathers [] cluster)[i]? with
  | none => .next s
  | some c => .next (runPool s cluster i c)

end Sys2Proof.Machine
end

