-- ==== Sys2Proof/Machine/Alloc.lean ====
section
/-! DEFINITION. The register allocator: GROW and SHRINK, the allocator's pass, the spill of a grow stall and the restore
(R157 to R162). -/

namespace Sys2Proof.Machine

/-! ### Requests and their rank (R158) -/

/-- Granules that a core's unspilled waves hold, and those free. DESIGN CHOICE (log entry 56): the 8 granules of a pair's window stay
held while the crew is spilled, which R159 does not say. -/
def granHeld (s : State) (core : Nat) : Nat :=
  (coreWaves' s core).foldl (fun n x =>
    n + (if x.partner.isSome && !x.shadow then 8 else 0) + (if (getCrew s x.crew).spilled then 0 else x.gran)) 0
where
  coreWaves' (s : State) (core : Nat) : List Wave := (allWaves s).filterMap (fun kv => if waveCore kv.1 = core then some kv.2 else none)

def granFree (s : State) (core : Nat) : Nat := Config.granulesPerCore - granHeld s core

/-- The rank of a crew: its launch in fetch order, then its index. -/
def crewRank (c : Crew) : Nat := c.launch * 2 ^ 32 + c.idx

/-- Crews resident on a core, by number. -/
def crewsOn (s : State) (core : Nat) : List (Nat × Crew) := s.crews.filter (fun kv => kv.2.core == core && !kv.2.slots.isEmpty)

/-- A pending request: a `GROW`, or the restore of a spilled crew. -/
inductive Ask where
  | grow (r : GrowReq)
  | restore (crew n : Nat)
  deriving DecidableEq, Repr

/-- The place of a request in the rank order. -/
def askRank (s : State) (a : Ask) : Nat :=
  match a with
  | .restore c _ => crewRank (getCrew s c) * 256
  | .grow r => crewRank (getCrew s (getWave s r.w).crew) * 256 + 1 + 2 * waveSlot r.w + r.path

/-- Granules that a spilled crew has saved. -/
def savedGran (s : State) (c : Crew) : Nat := c.slots.foldl (fun n w => n + (getWave s w).gran) 0

/-- Insert a request by rank. -/
def insertAsk (s : State) (a : Ask) : List Ask → List Ask
  | [] => [a]
  | b :: rest => if askRank s a < askRank s b then a :: b :: rest else b :: insertAsk s a rest

/-- Every pending request of a core in rank order. -/
def asks (s : State) (core : Nat) : List Ask :=
  let rs := ((crewsOn s core).filter (fun kv => kv.2.spilled)).map (fun kv => Ask.restore kv.1 (savedGran s kv.2))
  let gs := (getCore s core).grow.map Ask.grow
  (rs ++ gs).foldl (fun l a => insertAsk s a l) []

/-! ### Saved granules (R160, R161) -/

/-- Address of block `b` of a core's save area: the vault part is physical, the overflow part virtual. -/
def saveVault (core b : Nat) : Nat := vaultBase core + 0x300000 + 1024 * b
def saveOver (s : State) (core b : Nat) : Nat :=
  let v := (coreVif s core).getD 0
  (partField s v 104 8 + 2 ^ 20 * logicalCore s v core + 1024 * (b - 1024)) % 2 ^ 64

/-- Halt the waves of a crew on a fault of the overflow part. -/
def haltCrew (s : State) (c : Crew) (cause : Nat) : State := (c.slots.take c.waves).foldl (fun s w => haltWave s w 0x3E3 cause) s

/-- A wave of the crew has halted. -/
def crewHalted (s : State) (c : Crew) : Bool := c.slots.any (fun w => match (getWave s w).status with | .halted _ _ => true | _ => false)

/-- Read blocks back into granules. -/
def loadGran (s : State) (core vif : Nat) : List (Nat × Nat) → State × Except Nat Unit
  | [] => (s, .ok ())
  | (k, b1) :: rest =>
    let w := k / 32
    let put (s : State) (v : Nat) : State := modWave s w (fun x =>
      (List.range 256).foldl (fun x i => vPut x (8 * (k % 32) + i / 32) (i % 32) (v / 2 ^ (32 * i))) x)
    if b1 ≤ 1024 then loadGran (put s (s.mem.readN (saveVault core (b1 - 1)) 1024)) core vif rest
    else match readVirt s vif (coreDie core) (saveOver s core (b1 - 1)) 1024 with
      | (s, .ok bs) => loadGran (put s (bytesNat bs)) core vif rest
      | (s, .error c) => (s, .error c)

/-- A spilled crew gets its registers back, and its waves are ready again (R160). -/
def restoreRegs (s : State) (core c : Nat) : State :=
  let cr := getCrew s c
  match loadGran s core cr.vif cr.blocks with
  | (s, .error e) => haltCrew s cr e
  | (s, .ok ()) =>
    let s := modCrew s c (fun k => { k with spilled := false, blocks := [] })
    cr.slots.foldl (fun s w => modWave s w (fun x => { x with status := if x.status = .spilled then .running else x.status })) s

/-! ### Grants -/

/-- The limit of a wave's allocation. -/
def granLimit (x : Wave) : Nat := if x.partner.isSome && !x.shadow then 24 else 32

/-- A request's continuation. -/
def growCont (r : GrowReq) (c : Cont) : Bool := c.cond == .grow && c.path == r.path

/-- Lanes whose `GROW` a pass settles stand behind it. One that was granted in the pass of its own cycle, which waited for path B's
instruction of that cycle, goes on in its stroke; another waits for a port as a continuation. -/
def goBehind (x : Wave) (r : GrowReq) (c : Cont) : Wave :=
  if x.turnB && x.status == .running && x.pathB.on && r.cycle == x.cycle && r.path == 0 then
    let x := { x with conts := x.conts.erase c, ordp := r.ordp }
    if r.last then modLanes x c.lanes (atHeader r.pc)
    else setPath x false { r.back with lanes := c.lanes, pc := r.pc, idx := r.back.idx + 1 }
  else
    let x := modLanes x c.lanes (if r.last then atHeader r.pc else atInstr r.pc r.head)
    { x with conts := x.conts.map (fun k => if k == c then { k with pc := r.pc, head := if r.last then r.pc else r.head, slot := none, cond := .now } else k) }

/-- A request leaves the allocator, and the lanes that it names. -/
def dropAsk (s : State) (core : Nat) (r : GrowReq) : State := modCore s core (fun c => { c with grow := c.grow.erase r })
def askLanes (x : Wave) (r : GrowReq) : Lanes :=
  match x.conts.find? (growCont r) with | some c => c.lanes | none => activeLanes x (pathOf x (r.path == 1))

/-- A `GROW` is granted: the allocation rises, and its lanes, where they wait, stand behind it: that is the step's end then. DESIGN
CHOICE (log entry 55): one that would now pass the limit, for another request of the wave has been granted since its issue, is not
granted; its `GROW` faults with 0x009. -/
def grantGrow (s : State) (core : Nat) (r : GrowReq) : State :=
  let x := getWave s r.w
  let lanes := askLanes x r
  let s := dropAsk s core r
  if x.gran + r.n > granLimit x then
    raise (modWave s r.w (fun x => { x with conts := x.conts.filter (fun c => !growCont r c) })) r.w
      { cause := 0x009, rank := r.path + 1, path := r.path, lanes := lanes, parcels := encode r.instr }
  else
    let was := stepping x && x.conts.any (growCont r)
    let s := modWave s r.w (fun x =>
      let x := { x with gran := x.gran + r.n }
      match x.conts.find? (growCont r) with
      | none => x
      | some c => goBehind x r c)
    stepTrap s r.w r.instr was r.path lanes

/-- Grant requests in rank order, a spilled crew's among them, until one does not fit (R158, R160). -/
def grantAll (s : State) (core : Nat) (l : List Ask) : State :=
  match l with
  | .grow r :: rest =>
    if (getCrew s (getWave s r.w).crew).spilled || r.n > granFree s core then s else grantAll (grantGrow s core r) core rest
  | .restore c n :: rest =>
    if n > granFree s core || crewHalted s (getCrew s c) then s else grantAll (restoreRegs s core c) core rest
  | [] => s

/-- The pass of a cycle: the releases of the cycle have been applied. -/
def allocPass (s : State) (core : Nat) : State :=
  let s := modCore s core (fun c => { c with passDue := (0, 0) })
  grantAll s core (asks s core)

/-! ### GROW and SHRINK (R157) -/

def runGrow (i : Instr) (g : BitVec 5) (abs : Bool) (b : Nat) (s : State) : Out :=
  runWide i g none s fun p ex =>
    let x := s.wave
    let t := if abs then b else x.gran + b
    if t > granLimit x then .fault s 0x009 ex [] 0
    else if t ≤ x.gran then .done s
    else
      let core := waveCore s.cur
      let path := if x.turnB then 1 else 0
      let last := p.idx + 1 ≥ p.count
      let due := (getCore s core).passDue
      let s := if due.1 = 0 || due = (s.cur + 1, x.cycle) then s else allocPass s core
      let r : GrowReq := { w := s.cur, path := path, n := t - x.gran, instr := i, last := last, head := p.head
                           pc := if last then p.fall else p.pc + BitVec.ofNat 64 (instrBytes i), cycle := x.cycle, back := p, ordp := x.ordp }
      let s' := allocPass (modCore s core (fun c => { c with grow := c.grow ++ [r] })) core
      if s'.wave.status != .running then .stop s'
      else if (getCore s' core).grow.contains r then .hold s' .grow none else .done s'

/-- What the current wave's operations in flight may still write: no register from `8 * t` on, even where a later `GROW` adds it
again (R162). -/
def discardAbove (s : State) (t : Nat) : State :=
  let s := { s with ops := s.ops.map (fun o => if o.w = s.cur then { o with vlimit := min o.vlimit (8 * t) } else o) }
  modCore s (waveCore s.cur) (fun c => { c with engine := c.engine.map (fun o => if o.w = s.cur then { o with vlimit := min o.vlimit (8 * t) } else o) })

def runShrink (i : Instr) (g : BitVec 5) (abs : Bool) (b : Nat) (s : State) : Out :=
  runWide i g none s fun _ ex =>
    let x := s.wave
    let t := if abs then b else x.gran - b
    if t < 1 || (!abs && b > x.gran) then .fault s 0x009 ex [] 0
    else if t ≥ x.gran then .done s
    else
      let y : Wave := { x with gran := t, v := x.v.filter (fun kv => kv.1 < 32 * (8 * t))
                               poison := x.poison.filter (fun e => e.1 < 32 * t || e.1 ≥ 1024) }
      let s := discardAbove { s with wave := y } t
      let core := waveCore s.cur
      .done (if !x.turnB && x.pathB.on then modCore s core (fun c => { c with passDue := (s.cur + 1, x.cycle) }) else allocPass s core)

def execGrow32 (f : F32I) (s : State) : Out := runGrow (.grow32 f) f.g false f.imm.toNat s
def execGrow64 (f : F64R) (s : State) : Out := runGrow (.grow64 f) f.g (f.fn.getLsbD 0) (sOrImm s.wave f.cb f.b) s
def execShrink32 (f : F32I) (s : State) : Out := runShrink (.shrink32 f) f.g false f.imm.toNat s
def execShrink64 (f : F64R) (s : State) : Out := runShrink (.shrink64 f) f.g (f.fn.getLsbD 0) (sOrImm s.wave f.cb f.b) s

/-! ### The grow stall (R159) -/

/-- Lanes of a wave in an ungranted `GROW`, and lanes parked by a waiting instruction. -/
def growLanes (x : Wave) : Lanes := (x.conts.filter (fun c => c.cond == .grow)).foldl (fun m c => m ||| c.lanes) 0
def waitLanes (x : Wave) : Lanes := x.waits.foldl (fun m y => m ||| y.lanes) 0
def maskLanes (x : Wave) : Lanes := maskOf ((List.range 32).filter (fun l => (getLane x l).park != 15))

/-- Every live lane stands in a `GROW` or is parked. -/
def growIdle (x : Wave) : Bool := live x &&& ~~~(growLanes x ||| waitLanes x ||| maskLanes x) == 0
def growStalled (x : Wave) : Bool := growIdle x && growLanes x &&& live x != 0

/-- The unspilled compute waves of a core. -/
def computeWaves (s : State) (core : Nat) : List Wave :=
  ((crewsOn s core).filter (fun kv => !kv.2.spilled)).flatMap (fun kv => (kv.2.slots.take kv.2.waves).map (getWave s))

/-- The request that a pass would grant next fits. -/
def askFits (s : State) (core : Nat) : Bool :=
  match asks s core with
  | .grow r :: _ => !(getCrew s (getWave s r.w).crew).spilled && r.n ≤ granFree s core
  | .restore _ n :: _ => n ≤ granFree s core
  | [] => false

/-- A grow stall (R159): no request fits, and no wave can free any. -/
def growStall (s : State) (core : Nat) : Bool :=
  !(asks s core).isEmpty && !askFits s core && (computeWaves s core).any growStalled && (computeWaves s core).all growIdle

/-- Unspilled crews of a core. -/
def unspilled (s : State) (core : Nat) : List (Nat × Crew) := (crewsOn s core).filter (fun kv => !kv.2.spilled)

/-- The parked `GROW`s of a crew fault with 0x202. -/
def growDeadlock (s : State) (core : Nat) (c : Crew) : State :=
  let s := modCore s core (fun k => { k with grow := k.grow.filter (fun r => !c.slots.contains r.w) })
  c.slots.foldl (fun s w =>
    ((getWave s w).conts.filter (fun k => k.cond == .grow)).foldl (fun s k =>
      raise s w { cause := 0x202, rank := 5, path := k.path, lanes := k.lanes }) s) s

def execAllocatorPass (core : Nat) (s : State) : Out :=
  let s := allocPass s core
  match unspilled s core with
  | [(_, c)] =>
    if growStall s core && c.slots.all (fun w => waitLanes (getWave s w) == 0) then .next (growDeadlock s core c) else .next s
  | _ => .next s

/-! ### Spill and restore (R159 to R161) -/

/-- Free blocks of a core's save area, ascending. -/
def freeBlocks (s : State) (core : Nat) : List Nat :=
  let used := (crewsOn s core).flatMap (fun kv => kv.2.blocks.map (·.2))
  (List.range 2048).filter (fun b => !used.contains (b + 1))

/-- A granule of a wave as 1 KiB: register by register, lane by lane (log entry 11). -/
def granNat (x : Wave) (g : Nat) : Nat :=
  (List.range 256).foldr (fun i a => vGet x (8 * g + i / 32) (i % 32) + 2 ^ 32 * a) 0

/-- Write granules to blocks. -/
def saveGran (s : State) (core : Nat) (vif : Nat) : List ((Nat × Nat) × Nat) → State × Except Nat Unit
  | [] => (s, .ok ())
  | ((w, g), b) :: rest =>
    let v := granNat (getWave s w) g
    if b < 1024 then saveGran { s with mem := s.mem.writeN (saveVault core b) 1024 v } core vif rest
    else match writeVirt s vif (coreDie core) (saveOver s core b) false (natBytes 1024 v) with
      | (s, .ok ()) => saveGran s core vif rest
      | (s, .error c) => (s, .error c)

/-- An operation still writes a vector register of the crew. -/
def writesVectors (s : State) (c : Crew) : Bool :=
  s.ops.any (fun o => c.slots.contains o.w && (o.kind == .load || o.kind == .atom || o.kind == .rget || o.kind == .ratom))
    || (getCore s c.core).engine.any (fun o => c.slots.contains o.w && (match o.instr with | .rstat64 _ => true | _ => false))

/-- Spill a crew. -/
def spillCrew (s : State) (core ci : Nat) (c : Crew) : State :=
  let gs := c.slots.flatMap (fun w => (List.range (getWave s w).gran).map (fun g => (w, g)))
  let bs := gs.zip (freeBlocks s core)
  match saveGran s core c.vif bs with
  | (s, .error e) => haltCrew s c e
  | (s, .ok ()) =>
    let s := modCrew s ci (fun c => { c with spilled := true, blocks := bs.foldl (fun m x => smSet m 0 (32 * x.1.1 + x.1.2) (x.2 + 1)) [] })
    let s := c.slots.foldl (fun s w => modWave s w (fun x => { x with v := [], status := if x.status = .running then .spilled else x.status })) s
    bump s 2 core 1

def execGrowSpill (core : Nat) (s : State) : Out :=
  let us := unspilled s core
  if !growStall s core || us.length ≤ 1 then .next s else
  match us.foldl (fun (b : Option (Nat × Crew)) k => match b with
      | none => some k
      | some y => if crewRank y.2 < crewRank k.2 then some k else some y) none with
  | none => .next s
  | some (ci, c) => if writesVectors s c then .next s else .next (allocPass (spillCrew s core ci c) core)

def execSpillRestore (core crew : Nat) (s : State) : Out :=
  match asks s core with
  | .restore c n :: _ =>
    .next (if c ≠ crew || n > granFree s core || crewHalted s (getCrew s c) then s else restoreRegs s core c)
  | _ => .next s

end Sys2Proof.Machine
end

