-- ==== Sys2Proof/Machine/Issue.lean ====
section
/-! DEFINITION. Fetching and issuing the instruction due on a path (R71, R91, R92). -/

namespace Sys2Proof.Machine

/-- A byte of code as the die's L2 gives it; a fetch fills no cache (log entry 10). -/
def codeByte (s : State) (die pa : Nat) : Byte := BitVec.ofNat 8 (readDie s die pa 1).2

/-- The bytes of the page that holds a path's stroke, from its instruction on, at most the longest instruction's 28. -/
def codeBytes (s : State) (die : Nat) (p : Path) : List Byte :=
  let o := p.pc.toNat % 4096
  (List.range (min 28 (4096 - o))).map (fun i => codeByte s die (p.page + o + i))

/-- The parcels at a path's instruction. -/
def codeWords (s : State) (die : Nat) (p : Path) : List Word := wordsOfBytes (codeBytes s die p)

/-- The cause of a parcel list that is no instruction (R91). -/
def decodeCause (e : DecodeError) : Nat :=
  match e with
  | .illegalOpcode => 0x001
  | .reservedOpcode => 0x004
  | .reservedField => 0x002
  | .header => 0x003
  | .short => 0x003

/-- The instruction due on the current wave's issuing path faults precisely before it runs. -/
def raiseDecode (s : State) (cause : Nat) (l : List Word) : State :=
  let x := s.wave
  let p := curPath x
  let path := if x.turnB then 1 else 0
  raise s s.cur { cause := cause, rank := path + 1, path := path, lanes := activeLanes x p
                  parcels := l.take (unitLength (l.headD 0)) }

/-- The features that an instruction or one of its field values belongs to, where the base does not hold it (R379): 1 FP64
vector forms, 4 Q4N, 5 logit stream, 10 remote memory, 11 FREEZE and THAW. Structured sparsity and Q4N in a record are
judged by the `RSV` that reads it. -/
def featuresOf (i : Instr) : List Nat :=
  let fp64 (f : F64R) : List Nat := if f.fn.toNat % 4 = 1 then [1] else []
  let tree (f : F64R) : List Nat := if fnBits f.fn 3 0 ≥ 8 && f.fn.getLsbD 4 then [1] else []
  let q4n (f : BitVec 6) : List Nat := if fnBits f 2 0 = 7 then [4] else []
  match i with
  | .fadd64 f | .fmul64 f | .ffma64 f | .fmin64 f | .fmax64 f | .frnd64 f | .frcp64 f | .fsqrt64 f => fp64 f
  | .fadd96 f | .fmul96 f | .ffma96 f | .fmin96 f | .fmax96 f => fp64 f.r
  | .fsetp64 f => if fnBits f.fn 4 3 = 1 then [1] else []
  | .fsetp96 f => if fnBits f.r.fn 4 3 = 1 then [1] else []
  | .cvt64 f => if f.c.toNat / 16 = 0 || f.c.toNat % 16 = 0 then [1] else []
  | .reduce64 f | .scan64 f => tree f
  | .quant64 _ | .deq64 _ | .requant64 _ => [4]
  | .mma64 f => q4n f.fn
  | .lstream64 f | .lsgrad64 f => 5 :: q4n f.r.fn
  | .lsmerge64 _ => [5]
  | .rput64 _ | .rput96 _ | .rget64 _ | .rget96 _ | .ratom64 _ | .ratom96 _ => [10]
  | .freeze64 _ | .thaw64 _ => [11]
  | _ => []

/-- An instruction of a feature that the wave's interface has disabled: 0x004. -/
def disabled (s : State) (i : Instr) : Bool := (featuresOf i).any (fun n => !hasFeature s s.wave.vif n)

/-- From `s` to `t` the current wave's instruction has raised a precise cause below 0x004, which comes before it (R92). -/
def raisedLower (s t : State) : Bool :=
  let m := mainWave s s.cur
  (getWave s m).pend.length < (getWave t m).pend.length
    && (((getWave t m).pend.getLast?).map (fun p => decide (p.rank ≤ 2 ∧ p.cause < 4))).getD false

/-- A wave has an instruction due. -/
def issuing (x : Wave) : Bool := x.status == .running && (curPath x).on

/-- What the current wave's issuing path decodes next. -/
def nextInstr (s : State) : Except DecodeError (Instr × List Word) :=
  decode (codeWords s (waveDie s.cur) (curPath s.wave))

end Sys2Proof.Machine
end

