-- ==== Sys2Proof/Machine/Sync.lean ====
section
/-! DEFINITION. The waits on counters (R384, R385), the barrier instructions (R389 to R393), route tags (R398 to R401), and the
control registers (R121 to R131, R380, R381). -/

namespace Sys2Proof.Machine

/-! ### WAIT (R384, R385) -/

/-- A threshold that places no condition. -/
def threshold (bits v : Nat) : Nat := if v = 2 ^ bits - 1 then 256 else v

/-- Every conditioned counter is at or below its threshold. -/
def countersMet (x : Wave) (tile cpy st ld eng : Nat) : Bool :=
  counterMet x.tile tile && counterMet x.cpy cpy && counterMet x.st st && counterMet x.ld ld && counterMet x.eng eng

def execWait64 (f : F64R) (s : State) : Out :=
  runWide (.wait64 f) f.g none s fun p ex =>
    let x := s.wave
    let reg := f.fn.getLsbD 5
    let a := sGet x f.a.toNat
    let n4 (v : Nat) : Nat := threshold 4 (v % 16)
    let n8 (v : Nat) : Nat := threshold 8 (v % 256)
    let tile := if reg then n8 (a / 2 ^ 24) else n4 (f.b.toNat / 16)
    let cpy := if reg then n8 (a / 2 ^ 16) else n4 f.b.toNat
    let st := if reg then n8 (a / 2 ^ 8) else n4 (f.c.toNat / 16)
    let ld := if reg then n8 a else n4 f.c.toNat
    let eng := if reg then n8 (sGet x (f.a.toNat + 1)) else n4 f.fn.toNat
    if p.idx ≠ 0 then .fault s 0x007 ex [] 0
    else if countersMet x tile cpy st ld eng then .done s
    else .hold s (.counters tile cpy st ld eng) none

/-! ### Barrier objects named by instructions (R389) -/

/-- The bench object of an instruction's slot operand, or the cause that naming it meets. -/
def namedSlot (s : State) (f : F64R) : Except Nat Nat := slotObj s s.cur (sOrImm s.wave f.cb f.b)

/-- The causes of a memory object's address (R242, R388). -/
def objAddrCause (a : Nat) : Option Nat := firstCause [(!canonical a, 0x104), (a % 32 != 0, 0x107)]

/-- A memory operation on an object, as issued. -/
def objOp (k : OpKind') (f : F64R) (a extra : Nat) (operands : List Nat) : Op :=
  { kind := k, space := 0, sz := 0, fn4 := f.fn.toNat % 16, counter := 2, scope := f.fn.toNat % 8, extra := extra
    order := if k == .badd then 2 else 0, lanes := [{ addr := a }], operands := operands }

/-- Issue it: a replay entry and its count. -/
def issueObj (i : Instr) (s : State) (p : Path) (ex : Lanes) (o : Op) : Res :=
  if entriesUsed s s.cur ≥ Config.replayLimit then .hold s .replay (some (slotOf s.wave s.wave.turnB))
  else .done (enterOp { s with wave := raiseCount s.wave 2 } { issued i s p ex o with entry := !o.lanes.isEmpty })

/-- The bytes of an object as an access of the current path, which its earlier accesses of those bytes precede (R213). -/
def objAccess (s : State) (space a : Nat) (at' : Nat → LaneStage) : Op :=
  let lane (i : Nat) : LaneAcc := { lane := i, addr := a + 8 * i, stage := at' (a + 8 * i) }
  { kind := .load, w := s.cur, path := if s.wave.turnB then 1 else 0, id := s.nextId, space := space, sz := 5, cycle := s.wave.cycle
    lanes := (List.range 4).map lane }

/-- The machine once they are performed. -/
def settleObj (s : State) (q : Op) : State := settleOps s s.cur (blockersOf s q)

/-- Go on once the path's earlier accesses of a bench object are performed. -/
def onBenchObj (s : State) (o : Nat) (f : State → Res) : Res :=
  let pa := objCore o * 2 ^ 19 + o / 2 % 16384 * 32
  f (settleObj s (objAccess s 1 pa (fun a => .ready a 0 0 0)))

/-- The same for a memory object at a virtual address. -/
def onMemObj (s : State) (a : Nat) (f : State → Res) : Res :=
  f (settleObj s (objAccess s 0 a (firstStage s s.cur 0 0)))

/-- A KIND field: 0 bench slot, 1 memory object, 2 route tag. -/
def barKind (f : F64R) : Nat := fnBits f.fn 5 4

/-- A memory `BARI` at an address: it takes effect at its issue, so that a clobber is precise (R390, R405); what its address meets is
found as of an operation in flight. Its count falls once it is performed. -/
def memBari (i : Instr) (s : State) (p : Path) (ex : Lanes) (o : Op) (a : Nat) : Res :=
  if entriesUsed s s.cur ≥ Config.replayLimit then .hold s .replay (some (slotOf s.wave s.wave.turnB)) else
  let enter (s : State) (o : Op) : Res := .done (enterOp { s with wave := raiseCount s.wave 2 } o)
  let (s1, st) := locateFor s s.cur 1 0 a
  let o := { issued i s1 p ex o with entry := true }
  match st with
  | .ready pa _ _ _ =>
    if waitersNow (flushBar s1 (memObj pa)) (memObj pa) ≠ 0 then .fault (flushBar s1 (memObj pa)) 0x200 ex [] a
    else
      let r := armMem (fun _ _ => false) s1 { o with w := s1.cur, lanes := [{ addr := a, stage := st }] }
      enter r.1 r.2
  | _ => enter s1 { o with lanes := [{ addr := a, stage := st }] }

/-- `BARI`. -/
def execBari64 (f : F64R) (s : State) : Out :=
  let t := if f.cc == 1 then sPair64 s.wave f.c.toNat else f.c.toNat
  runWide (.bari64 f) f.g (if t = 0 || t ≥ 2 ^ 48 then some 0x002 else none) s fun p ex =>
    let x := s.wave
    if barKind f = 0 then
      match namedSlot s f with
      | .error c => .fault s c ex [] 0
      | .ok o => onBenchObj s o fun s =>
        let s1 := flushBar s o
        if waitersNow s1 o ≠ 0 then .fault s1 0x200 ex [] 0
        else if barFull s o then .fault s1 0x207 ex [] 0
        else .done (settle (armObj s1 o t (f.fn.toNat % 16)) o)
    else
      let a := sPair64 x f.a.toNat
      match objAddrCause a with
      | some c => .fault s c ex [] a
      | none => onMemObj s a fun s => memBari (.bari64 f) s p ex (objOp .bari f a t [0, a, 0, t]) a

def execBadd64 (f : F64R) (s : State) : Out :=
  runWide (.badd64 f) f.g none s fun p ex =>
    let x := s.wave
    let n := if f.cc == 1 then sGet x f.c.toNat else f.c.toNat
    if barKind f = 0 then
      match namedSlot s f with
      | .error c => .fault s c ex [] 0
      | .ok o =>
        if barFull s o then .fault s 0x207 ex [] 0
        else match issueObj (.badd64 f) s p ex
            { objOp .badd f 0 n [0, 0, sOrImm x f.cb f.b, n] with space := 1, obj := o, lanes := [] } with
          | .done s => .done (beginWork s o)
          | r => r
    else
      let a := sPair64 x f.a.toNat
      match objAddrCause a with
      | some c => .fault s c ex [] a
      | none => issueObj (.badd64 f) s p ex (objOp .badd f a n [0, a, 0, n])

/-- WAITB judges an object (R393), which it names and so has tracked (R387); with every tracker taken, `full`, the lower of the two
causes stands. -/
def waitbOn (s : State) (f : F64R) (o : Nat) (ex : Lanes) : Res :=
  let full := barFull s o
  let s1 := flushBar s o
  let v := (readObj s1 o).2
  if objErr v then .fault s1 (if full then min 0x207 (objCause v) else objCause v) ex [] 0
  else if full then .fault s1 0x207 ex [] 0
  else
    let s1 := track s1 o
    if objPhase v ≠ sGet s1.wave f.d.toNat % 65536 then
      .done (settle { s1 with wave := sPut s1.wave f.d.toNat (objPhase v) } o)
    else
      let s2 := parkOn s1 o s1.cur
      .park { s2 with wave := parkPath s2.wave (.barrier o f.d.toNat) }

def execWaitb64 (f : F64R) (s : State) : Out :=
  runWide (.waitb64 f) f.g (if inTrap s.wave then some 0x002 else none) s fun p ex =>
    if barKind f = 0 then
      match namedSlot s f with
      | .error c => .fault s c ex [] 0
      | .ok o => onBenchObj s o fun s => waitbOn s f o ex
    else
      let a := sPair64 s.wave f.a.toNat
      match objAddrCause a with
      | some c => .fault s c ex [] a
      | none => onMemObj s a fun s =>
        match locate s s.cur 0 a with
        | (s1, .ready pa _ _ _) => waitbOn s1 f (memObj pa) ex
        | (s1, .bad c) => .late s1 c (activeLanes s.wave p) a
        | (s1, _) => .stop s1

/-! ### Route tags (R399 to R401) -/

/-- The tag register of an instruction. -/
def tagOf (f : F64R) : Nat := f.d.toNat % 8

def getTag (s : State) (die n : Nat) : Tag := smGet s.tags {} (8 * die + n)
def modTag (s : State) (die n : Nat) (f : Tag → Tag) : State := { s with tags := smMod s.tags {} (8 * die + n) f }

/-- The tag becomes free: what only a release or a first bind changes stays (R398). -/
def freeTag (t : Tag) : Tag := { t with owner := none, expect := 0, bound := 0, arrived := 0 }

/-- A crew leaves the set of a tag (R399, R401): an arrival in this round goes first. -/
def leaveTag (s : State) (c n : Nat) : State :=
  let die := coreDie (getCrew s c).core
  let s := if crewParked s c n then tagWithdraw s die n else s
  let ds := tagDies s die n
  let s := modCrew s c (fun k => { k with bound := k.bound &&& (255 - 2 ^ n) })
  let s := modTag s die n (fun t => { t with bound := t.bound - 1 })
  let s := ds.foldl (fun s d => modTag s d n (fun t => { t with expect := t.expect - 1 })) s
  if (getTag s die n).expect = 0 then ds.foldl (fun s d => modTag s d n freeTag) s else tagTest s die n

/-- A member count as the 15 bits of EXPECT hold it (R398). DEDUCED (log entry 59). -/
def tagCount (b : Nat) : Nat := b % 2 ^ 15

/-- The first bind of a set takes the tag, on both dies where the set spans them (R25). -/
def holdTag (s : State) (die n vif b : Nat) (pkg : Bool) : State :=
  (if pkg then [die, die ^^^ 1] else [die]).foldl (fun s d =>
    modTag s d n (fun t => { t with owner := some vif, pkg := pkg, expect := tagCount b })) s

def execBart64 (f : F64R) (s : State) : Out :=
  runWide (.bart64 f) f.g none s fun _ ex =>
    let x := s.wave
    let n := tagOf f
    let die := waveDie s.cur
    let t := getTag s die n
    let cr := myCrew s
    let bound := cr.bound.testBit n
    if f.fn.getLsbD 0 then
      if !bound || (cr.slots.any (fun w => tagLanes (getWave s w) n != 0)) then .fault s 0x20C ex [] 0
      else .done (leaveTag s x.crew n)
    else
      let b := tagCount (sOrImm x f.cb f.b)
      let pkg := f.fn.getLsbD 1
      let o := getTag s (die ^^^ 1) n
      let free := t.owner.isNone
      let sum := t.bound + (if pkg && o.pkg then o.bound else 0)
      if !free && t.owner ≠ some x.vif then .fault s 0x102 ex [] 0
      else if free && pkg && o.owner.isSome && (o.expect ≠ b || !o.pkg) then .fault s 0x20C ex [] 0
      else if !free && (b ≠ t.expect || pkg != t.pkg || bound) then .fault s 0x20C ex [] 0
      else if sum + 1 > b then .fault s 0x20C ex [] 0
      else
        let s := modTag (if free then holdTag s die n x.vif b pkg else s) die n (fun t => { t with bound := t.bound + 1 })
        .done (modMyCrew s (fun c => { c with bound := c.bound ||| 2 ^ n }))

def execWaitbTag64 (f : F64R) (s : State) : Out :=
  runWide (.waitbTag64 f) f.g (if inTrap s.wave then some 0x002 else none) s fun _ ex =>
    let n := tagOf f
    if !(myCrew s).bound.testBit n then .fault s 0x20C ex [] 0
    else
      let s1 := { s with wave := parkPath s.wave (.tag n) }
      .park (if crewParked s1 s1.wave.crew n && !crewParked s s1.wave.crew n then tagArrive s1 (waveDie s1.cur) n else s1)

/-- The lanes that a tag's set has released become ready, on each of its dies (R400). -/
def execRouteTagRelease (die tag : Nat) (s : State) : Out :=
  if !(getTag s die tag).releasing then .next s else
  let free (x : Wave) : Wave := { x with waits := x.waits.filter (fun y => y.on != .tag (tag + 8)) }
  let s := (s.crews.filter (fun kv => coreDie kv.2.core == die)).foldl (fun s kv => kv.2.slots.foldl (fun s w => modWave s w free) s) s
  .next (modTag s die tag (fun t => { t with releasing := false }))

/-! ### Control registers (R121 to R131) -/

/-- The value of a control register, none where the number names none (R123). -/
def csrRead (s : State) (n : Nat) : Option Nat :=
  let x := s.wave
  match n with
  | 0x000 => some x.wsw.toNat
  | 0x001 => some x.fcsr.toNat
  | 0x002 => some x.ordp.toNat
  | 0x004 => some (x.ld % 256 + 2 ^ 8 * (x.st % 256) + 2 ^ 16 * (x.cpy % 256) + 2 ^ 24 * (x.tile % 256))
  | 0x005 => some (x.eng % 256)
  | 0x006 => some x.gran
  | 0x007 => some (waveSlot s.cur * 2 ^ 9 + waveCore s.cur % 128 * 2 ^ 15 + waveDie s.cur % 2 * 2 ^ 22 + corePkg (waveCore s.cur) * 2 ^ 23)
  | 0x008 => some x.qmap0.toNat
  | 0x009 => some x.qmap1.toNat
  | 0x010 => some (x.tvbase.toNat % 2 ^ 32)
  | 0x011 => some (x.tvbase.toNat / 2 ^ 32)
  | _ => none

/-- The codes of a QMAP word, and the registers whose code it changes. -/
def nibble (w i : Nat) : Nat := natBits w (4 * i + 3) (4 * i)

/-- The cause that a write of QMAP0 (`hi` false) or QMAP1 meets (R131). -/
def qmapCause (x : Wave) (hi : Bool) (v : Nat) : Option Nat :=
  let old := if hi then x.qmap1.toNat else x.qmap0.toNat
  let base := if hi then 8 else 0
  let changed := (List.range 8).filter (fun i => nibble old i != nibble v i)
  let window := !hi && (x.shadow || x.partner.isSome)
  firstCause [
    ((List.range 8).any (fun i => nibble v i > 6 || (nibble v i == 1 && !window)), 0x002),
    (changed.any (fun i => nibble old i == 1), 0x002),
    (changed.any (fun i => !(smGet x.q [] (base + i)).isEmpty), 0x206)]

/-- Write a control register; a cause where the value is refused (R381). -/
def csrWrite (x : Wave) (n v : Nat) : Except Nat Wave :=
  match n with
  | 0x000 =>
    if natBits v 20 17 > 8 || natBits v 14 12 > 4 then .error 0x002
    else .ok { x with wsw := setBits (setBits x.wsw 23 16 (natBits v 23 16)) 14 12 (natBits v 14 12) }
  | 0x001 => .ok { x with fcsr := setBits (setBits x.fcsr 4 0 (natBits v 4 0)) 12 8 (natBits v 12 8) }
  | 0x008 => match qmapCause x false v with | some c => .error c | none => .ok { x with qmap0 := BitVec.ofNat 32 v }
  | 0x009 => match qmapCause x true v with | some c => .error c | none => .ok { x with qmap1 := BitVec.ofNat 32 v }
  | 0x010 => .ok { x with tvbase := BitVec.ofNat 64 (x.tvbase.toNat / 2 ^ 32 * 2 ^ 32 + v / 8192 * 8192) }
  | 0x011 => .ok { x with tvbase := sextPc (x.tvbase.toNat % 2 ^ 32 + 2 ^ 32 * v) }
  | _ => .ok x

/-- A number that names no register is an encoding fault: 0x002 whatever the guard holds (R88). -/
def runCsrr (i : Instr) (g : BitVec 5) (d n : Nat) (s : State) : Out :=
  runWide i g (if (csrRead s n).isNone then some 0x002 else none) s fun _ ex => match csrRead s n with
    | none => .fault s 0x002 ex [] 0
    | some v => .done { s with wave := sPut s.wave d v }

/-- A refused value is 0x002 whatever the guard holds, or 0x206; a write of LANEPART is followed by the evaluation of R173. -/
def runCsrw (i : Instr) (g : BitVec 5) (v n : Nat) (s : State) : Out :=
  let bad := match csrWrite s.wave n v with | .error 0x002 => true | _ => false
  runWide i g (if (csrRead s n).isNone || bad then some 0x002 else none) s fun _ ex =>
    match csrWrite s.wave n v with
    | .error c => .fault s c ex [] 0
    | .ok x => .done { s with wave := if n = 0 then evalMasks x else x }

def execCsrr32 (f : F32I) (s : State) : Out := runCsrr (.csrr32 f) f.g f.d.toNat f.imm.toNat s
def execCsrr64 (f : F64R) (s : State) : Out := runCsrr (.csrr64 f) f.g f.d.toNat (sGet s.wave f.b.toNat) s
def execCsrw32 (f : F32I) (s : State) : Out := runCsrw (.csrw32 f) f.g (sGet s.wave f.d.toNat) f.imm.toNat s
def execCsrw64 (f : F64R) (s : State) : Out := runCsrw (.csrw64 f) f.g (sGet s.wave f.a.toNat) (sGet s.wave f.b.toNat) s

end Sys2Proof.Machine
end

