-- ==== Sys2Proof/Machine/Rings.lean ====
section
/-! DEFINITION. Launch rings: the front end's packets (R299 to R303, R484), launches and their checks (R302, R303, R307), and
the tables that TASKS and NODES load (R318, R319, R323). -/

namespace Sys2Proof.Machine

/-! ### Tables of a package -/

def getPkg (s : State) (p : Nat) : Package := smGet s.pkgs {} p
def modPkg (s : State) (p : Nat) (f : Package → Package) : State := { s with pkgs := smMod s.pkgs {} p f }
def getRing (s : State) (r : Nat) : Ring := smGet s.rings {} r
def modRing (s : State) (r : Nat) (f : Ring → Ring) : State := { s with rings := smMod s.rings {} r f }
def getUnit (s : State) (die : Nat) : TaskUnit := smGet s.taskUnits {} die
def modUnit (s : State) (die : Nat) (f : TaskUnit → TaskUnit) : State := { s with taskUnits := smMod s.taskUnits {} die f }
def getIface (s : State) (v : Nat) : Iface := smGet s.ifaces {} v
def modIface (s : State) (v : Nat) (f : Iface → Iface) : State := { s with ifaces := smMod s.ifaces {} v f }

/-- An interface is ENABLED (R378). -/
def enabled (s : State) (v : Nat) : Bool := (partField s v 44 4).testBit 0

/-- The die through whose L2 the front end of an interface's package reads and writes. -/
def frontDie (vif : Nat) : Nat := 2 * vifPkg vif

/-- The granules of `n` bytes from a virtual address, as the front end translates them for an access: addresses, or the first cause. -/
def frontSpan (s : State) (vif va n acc : Nat) : Except Nat (List Nat) :=
  (List.range ((va % 32 + n + 31) / 32)).mapM (fun i =>
    let a := (va - va % 32 + 32 * i) % 2 ^ 64
    if !canonical a then .error 0x104 else (translate s vif (frontDie vif) a acc false).2.map (·.pa))

/-- The lines of a span as accesses at system scope leave them (R217): a host or CXL line's bytes stand in its home memory, and no L2 of the
package keeps a copy; another package's stand at their home. -/
def systemSettle (s : State) (vif : Nat) (span : Except Nat (List Nat)) : State :=
  match span with
  | .error _ => s
  | .ok pas => ((pas.map lineOf).eraseDups).foldl (fun s l =>
      if regionOf (l * 128) == .host || regionOf (l * 128) == .cxl then flushL2 s (vifPkg vif) l
      else if homePkg (l * 128) != vifPkg vif then cleanL2 (cleanL2 s (2 * vifPkg vif) l) (2 * vifPkg vif + 1) l else s) s

/-- Read as the front end does, an acquire at system scope (R300). -/
def frontRead (s : State) (vif va n : Nat) : State × Except Nat Nat :=
  match readVirt (systemSettle s vif (frontSpan s vif va n 0)) vif (frontDie vif) va n with
  | (s, .ok l) => (s, .ok (bytesNat l))
  | (s, .error c) => (s, .error c)

/-- Write as the front end does, a release at system scope (R301): all of the bytes or, on a fault, none (R303). -/
def frontWrite (s : State) (vif va n v : Nat) : State × Except Nat Unit :=
  match frontSpan s vif va n 1 with
  | .error c => (s, .error c)
  | .ok pas =>
    let (s, r) := writeVirt s vif (frontDie vif) va false (natBytes n v)
    (systemSettle s vif (.ok pas), r)

/-! ### Stopping (R303) -/

/-- A fault on the ring's own control block: no ERROR is written; an error record names the ring. -/
def loseRing (s : State) (r cause : Nat) : State :=
  let v := r / 16
  let s := modRing s r (fun x => { x with lost := true })
  interrupt (logError s (vifPkg v) (some v) { die := frontDie v, kind := .ring, index := r, cls := .ringFault, addr := 6 * 1024 + cause }) v 0

/-- A ring stops with a REASON at a ring offset. -/
def stopRing (s : State) (r reason offset : Nat) : State :=
  let x := getRing s r
  match frontWrite s (r / 16) (x.ctl + 72) 8 (2 ^ 63 + reason * 2 ^ 48 + offset) with
  | (s, .error c) => loseRing s r c
  | (s, .ok ()) => interrupt s (r / 16) 0

/-! ### The packet at TAIL (R300) -/

/-- What the front end finds at a ring. -/
inductive Look where
  /-- nothing to process -/
  | idle
  /-- the control block cannot be read -/
  | lost (cause : Nat)
  /-- the packet cannot be read, at a TAIL -/
  | unread (tail : Nat)
  | straddle (tail : Nat)
  /-- a packet, at a TAIL -/
  | packet (bits tail : Nat)
  deriving DecidableEq, Repr

def lookRing (s : State) (r : Nat) : State × Look :=
  let x := getRing s r
  let v := r / 16
  if !x.configured || x.lost || !enabled s v || (getIface s v).frozen then (s, .idle) else
  match frontRead s v x.ctl 8 with
  | (s, .error c) => (s, .lost c)
  | (s, .ok head) =>
    match frontRead s v (x.ctl + 64) 16 with
    | (s, .error c) => (s, .lost c)
    | (s, .ok te) =>
      let tail := te % 2 ^ 64
      let n := (head + 2 ^ 64 - tail) % 2 ^ 64
      if te.testBit 127 || n = 0 then (s, .idle)
      else if n > x.size || n < 64 then (s, .straddle tail)
      else match frontRead s v (x.base + tail % x.size) 64 with
        | (s, .error _) => (s, .unread tail)
        | (s, .ok p) => (s, .packet p tail)

/-- OPC of a packet. -/
def pktOpc (p : Nat) : Nat := p % 256

/-- The processing of the packet has ended: TAIL passes it. -/
def takePacket (s : State) (r tail : Nat) : State :=
  let pkg := r / 16 / 64
  match frontWrite s (r / 16) ((getRing s r).ctl + 64) 8 (tail + 64) with
  | (s, .error c) => loseRing s r c
  | (s, .ok ()) => modPkg s pkg (fun p => { p with lastVi := r / 16 % 64, lastRing := smSet p.lastRing 0 (r / 16 % 64) (r % 16 + 1) })

/-! ### Launches (R302, R303) -/

def pk (p i n : Nat) : Nat := bytesAt p i n

def lPrio (p : Nat) : Nat := pk p 1 1
def lNtile (p : Nat) : Nat := pk p 2 1 % 16
def lNcv (p : Nat) : Nat := pk p 2 1 / 16
def lNob (p : Nat) : Nat := pk p 3 1
def lGx (p : Nat) : Nat := pk p 4 2
def lGy (p : Nat) : Nat := pk p 6 2
def lGz (p : Nat) : Nat := pk p 8 2
def lThreads (p : Nat) : Nat := pk p 10 2
def lGran (p : Nat) : Nat := pk p 12 1
def lBench (p : Nat) : Nat := pk p 14 2 * 256
def lEntry (p : Nat) : Nat := pk p 16 8
def lShentry (p : Nat) : Nat := pk p 24 8
def lArgs (p : Nat) : Nat := pk p 32 8
def lTvbase (p : Nat) : Nat := pk p 40 8
def lMap (p : Nat) : Nat := pk p 48 4 / 2 ^ 28
def lRadius (p : Nat) : Nat := pk p 48 4 / 2 ^ 24 % 16
def lDist (p : Nat) : Nat := pk p 48 4 % 2 ^ 24
def lDeptab (p : Nat) : Nat := pk p 56 8

/-- Crews of a launch, waves of a crew, and its shadow waves. -/
def lCrews (p : Nat) : Nat := lGx p * lGy p * lGz p
def lWaves (p : Nat) : Nat := (lThreads p + 31) / 32
def lShadow (p : Nat) : Bool := lShentry p != 0

/-- Wave slots and granules that a crew needs. -/
def lSlots (p : Nat) : Nat := if lShadow p then 2 * lWaves p else lWaves p
def lGranules (p : Nat) : Nat := if lShadow p then lWaves p * (2 * lGran p + 8) else lWaves p * lGran p

/-- A packet that is malformed as a LAUNCH. -/
def badLaunch (s : State) (vif p : Nat) : Bool :=
  lPrio p > 7 || lNtile p > 8 || lNcv p > 8 || lNob p > 32 || lGx p == 0 || lGy p == 0 || lGz p == 0 || lCrews p > 2 ^ 24
    || lThreads p == 0 || lThreads p > 1024 || lGran p == 0 || lGran p > (if lShadow p then 24 else 32) || lBench p > 2048 * 256
    || lEntry p % 8 != 0 || !canonical (lEntry p) || lShentry p % 8 != 0 || !canonical (lShentry p) || lMap p > 5
    || (lMap p != 5 && lDeptab p != 0) || pk p 13 1 != 0 || pk p 52 4 != 0 || (lShadow p && !hasFeature s vif 2)

/-- The launch that a packet's DIST names, counted from the launches fetched so far from ring `r` (R307). DESIGN CHOICE (log entry 69): for a
task's packet DIST 1 is the last LAUNCH packet of the ring itself. -/
def producerOf (s : State) (r p : Nat) : Option Launch :=
  let n := (getRing s r).fetched
  if lDist p = 0 || lDist p > n then none
  else (getPkg s (r / 16 / 64)).launches.find? (fun l => l.kind == 0 && l.ring == r && l.ringSeq == n - lDist p)

/-- The REASON for which a LAUNCH packet stops its ring. -/
def launchReason (s : State) (r p : Nat) : Option Nat :=
  let opc := pktOpc p
  let same (l : Launch) : Bool := lGx l.packet.toNat == lGx p && lGy l.packet.toNat == lGy p && lGz l.packet.toNat == lGz p
  if opc = 0 || opc ≥ 6 then some 2
  else if opc ≠ 1 || badLaunch s (r / 16) p then some 1
  else if lMap p ≠ 0 && (match producerOf s r p with | none => true | some l => lMap p ≤ 4 && !same l) then some 4
  else if lSlots p > Config.slotsPerCore || lGranules p > Config.granulesPerCore || lBench p > Config.benchBytes then some 5
  else none

/-- A launch enters the launch list, next in fetch order. -/
def addLaunch (s : State) (r p : Nat) (l : Launch) : State :=
  modPkg s (r / 16 / 64) (fun k =>
    { k with nextLaunch := k.nextLaunch + 1
             launches := k.launches ++ [{ l with id := k.nextLaunch, ring := r, vif := r / 16, packet := BitVec.ofNat 512 p
                                                 producer := if lMap p = 0 then none else (producerOf s r p).map (·.id) }] })

/-- The launch list holds 256 launches. -/
def listFull (s : State) (pkg : Nat) : Bool := ((getPkg s pkg).launches.filter (fun l => !l.complete)).length ≥ Config.launchList

/-! ### The turn of a ring (R300) -/

/-- A ring's packet can be processed now. -/
def processable (s : State) (r : Nat) : Bool :=
  match (lookRing s r).2 with
  | .idle => false
  | .packet p _ =>
    if pktOpc p = 1 then !listFull s (r / 16 / 64)
    else if pktOpc p = 4 then (getRing s r).events.length < Config.eventsPerRing
    else if pktOpc p = 5 then !(getRing s r).held
    else true
  | _ => true

/-- The rings of a package in the order of their turns. -/
def ringOrder (s : State) (pkg : Nat) : List Nat :=
  let k := getPkg s pkg
  let vis := (List.range 64).map (fun i => (k.lastVi + 1 + i) % 64)
  vis.flatMap (fun v => (List.range 16).map (fun i => 16 * (64 * pkg + v) + (smGet k.lastRing 0 v + i) % 16))

/-- The ring whose packet the front end takes next. -/
def ringTurn (s : State) (pkg : Nat) : Option Nat :=
  (ringOrder s pkg).find? (fun r => (getRing s r).configured && processable s r)

/-- A ring's step on a packet of OPC `opc`: faults stop the ring; otherwise, at the ring's turn, `f` takes the packet. -/
def onRing (r opc : Nat) (s : State) (f : State → Nat → Nat → State) : Out :=
  match lookRing s r with
  | (_, .idle) => .next s
  | (_, .straddle _) => .next s
  | (s', .lost c) => .next (loseRing s' r c)
  | (s', .unread tail) => .next (stopRing s' r 6 (tail % (getRing s r).size))
  | (s', .packet p tail) =>
    if pktOpc p = opc && ringTurn s (r / 16 / 64) == some r then .next (f s' p tail) else .next s

/-- Ring offset of a TAIL. -/
def ringOff (s : State) (r tail : Nat) : Nat := tail % (getRing s r).size

/-! ### The packets (R301, R484) -/

def execLaunch (ring : Nat) (s : State) : Out :=
  onRing ring 1 s fun s p tail =>
    match launchReason s ring p with
    | some k => stopRing s ring k (ringOff s ring tail)
    | none =>
      let s' := addLaunch s ring p { kind := 0, off := ringOff s ring tail, ringSeq := (getRing s ring).fetched, args := BitVec.ofNat 64 (lArgs p) }
      takePacket (modRing s' ring (fun x => { x with fetched := x.fetched + 1 })) ring tail

/-- Read `n` entries of 32 bytes. -/
def readImage (s : State) (vif va n : Nat) : State × Except Nat (List Nat) :=
  match n with
  | 0 => (s, .ok [])
  | n + 1 =>
    match frontRead s vif va 32 with
    | (s, .error c) => (s, .error c)
    | (s, .ok x) => match readImage s vif ((va + 32) % 2 ^ 64) n with
      | (s, .ok l) => (s, .ok (x :: l))
      | (s, .error c) => (s, .error c)

/-- A task entry that R319 refuses. -/
def badTask (x : Nat) : Bool :=
  natBits x 255 192 != 0 || natBits x 127 96 != 0 || x.testBit 30 || natBits x 29 27 != 0 || natBits x 26 24 > 4

/-- The fields DIE, FIRST, COUNT and IMAGE of TASKS and NODES. -/
def pktDie (p : Nat) : Nat := pk p 1 1
def pktFirst (p : Nat) : Nat := pk p 4 2
def pktCount (p : Nat) : Nat := pk p 6 2 + 1
def pktImage (p : Nat) : Nat := pk p 8 8

def execTasks (ring : Nat) (s : State) : Out :=
  onRing ring 2 s fun s p tail =>
    let off := ringOff s ring tail
    let die := 2 * (ring / 16 / 64) + pktDie p
    if pktDie p > 1 || pk p 2 2 != 0 || pk p 16 48 != 0 || pktFirst p + pktCount p > 65536 then stopRing s ring 1 off else
    match readImage s (ring / 16) (pktImage p) (pktCount p) with
    | (s, .error _) => stopRing s ring 6 off
    | (s, .ok l) =>
      if l.any badTask then stopRing s ring 1 off else
      let arm (x : Nat) : Nat := if x.testBit 31 && x % 65536 = 0 then x + 2 ^ 30 else x
      let s := l.zipIdx.foldl (fun (s : State) (e : Nat × Nat) =>
        { s with tasks := smSet s.tasks 0 (65536 * die + pktFirst p + e.2) (BitVec.ofNat 256 (arm e.1)) }) s
      let s := modUnit s die (fun u => { u with loader := l.zipIdx.foldl (fun m e => smSet m (0, 0) (pktFirst p + e.2) (ring + 1, off)) u.loader })
      takePacket s ring tail

/-- A node descriptor that is out of its limits (R323). -/
def badNode (x : Nat) : Bool :=
  natBits x 255 128 != 0 || natBits x 95 81 != 0 || natBits x 71 64 > 16
    || (natBits x 71 64 != 0 && (natBits x 111 96 == 0 || natBits x 111 96 > 1024))

/-- Units that the unit's batches hold, and the mode that they bring about (R326). -/
def occupancy (u : TaskUnit) : Nat := u.batches.foldl (fun a b => a + b.units) 0
def setMode (u : TaskUnit) : TaskUnit :=
  { u with depthFirst := if 4 * occupancy u > 3 * u.units then true else if 2 * occupancy u < u.units then false else u.depthFirst }

def execNodes (ring : Nat) (s : State) : Out :=
  onRing ring 3 s fun s p tail =>
    let off := ringOff s ring tail
    let die := 2 * (ring / 16 / 64) + pktDie p
    if pktDie p > 1 || pk p 2 2 != 0 || pk p 28 36 != 0 || pktFirst p + pktCount p > 4096 then stopRing s ring 1 off else
    match readImage s (ring / 16) (pktImage p) (pktCount p) with
    | (s, .error _) => stopRing s ring 6 off
    | (s, .ok l) =>
      if l.any badNode then stopRing s ring 1 off else
      let s := l.zipIdx.foldl (fun (s : State) (e : Nat × Nat) =>
        { s with nodes := smSet s.nodes 0 (4096 * die + pktFirst p + e.2) (BitVec.ofNat 256 e.1) }) s
      let s := modUnit s die (fun u =>
        setMode { u with store := pk p 16 8, units := pk p 24 4
                         nodeRing := l.zipIdx.foldl (fun m e => smSet m 0 (pktFirst p + e.2) (ring + 1)) u.nodeRing })
      takePacket s ring tail

def execEvent (ring : Nat) (s : State) : Out :=
  onRing ring 4 s fun s p tail =>
    let off := ringOff s ring tail
    if pk p 1 1 > 1 || pk p 2 6 != 0 || pk p 24 40 != 0 then stopRing s ring 1 off
    else
      let x := getRing s ring
      takePacket (modRing s ring (fun x' => { x' with events := x'.events ++ [(x.fetched, pk p 8 8, pk p 16 8, pk p 1 1 == 1, off)] })) ring tail

/-- The word of a WAITV, at its packet: satisfied, not yet, or faulting. -/
def waitvRead (s : State) (ring p : Nat) : State × Except Nat Bool :=
  match frontRead s (ring / 16) (pk p 8 8) 8 with
  | (s, .error c) => (s, .error c)
  | (s, .ok v) => (s, .ok (decide (v ≥ pk p 16 8)))

/-- The ring passes a WAITV whose condition holds, and otherwise holds there. -/
def waitvStep (s : State) (ring p tail : Nat) : State :=
  let off := ringOff s ring tail
  if pk p 1 7 != 0 || pk p 24 40 != 0 then stopRing s ring 1 off else
  match waitvRead s ring p with
  | (s, .error _) => stopRing (modRing s ring (fun x => { x with held := false })) ring 6 off
  | (s, .ok true) => takePacket (modRing s ring (fun x => { x with held := false })) ring tail
  | (s, .ok false) => modRing s ring (fun x => { x with held := true })

def execWaitv (ring : Nat) (s : State) : Out := onRing ring 5 s fun s p tail => waitvStep s ring p tail

def execWaitvSatisfied (ring : Nat) (s : State) : Out :=
  if !(getRing s ring).held then .next s else
  match lookRing s ring with
  | (s', .packet p tail) =>
    if pktOpc p ≠ 5 then .next s else
    match (waitvRead s' ring p).2 with
    | .ok false => .next s
    | _ => .next (waitvStep s' ring p tail)
  | _ => .next s

/-- Every LAUNCH packet of a ring before number `n` has completed. -/
def launchesDone (s : State) (ring n : Nat) : Bool :=
  (getPkg s (ring / 16 / 64)).launches.all (fun l => !(l.kind == 0 && l.ring == ring && l.ringSeq < n) || l.complete)

/-- The oldest recorded EVENT writes once the launches before it have completed (R301). DESIGN CHOICE (log entry 70): one whose write faults is
not tried again when its ring restarts, and the later ones of the stopped ring still write. -/
def execEventWrite (ring : Nat) (s : State) : Out :=
  match (getRing s ring).events with
  | [] => .next s
  | (n, addr, value, irq, off) :: rest =>
    if !launchesDone s ring n then .next s else
    let s := modRing s ring (fun x => { x with events := rest })
    match frontWrite s (ring / 16) addr 8 value with
    | (s, .error _) => .next (stopRing s ring 6 off)
    | (s, .ok ()) => .next (if irq then interrupt s (ring / 16) 5 else s)

def execUnknownOpcode (ring : Nat) (s : State) : Out :=
  match lookRing s ring with
  | (s', .packet p tail) =>
    if (pktOpc p = 0 || pktOpc p ≥ 6) && ringTurn s (ring / 16 / 64) == some ring then .next (stopRing s' ring 2 (ringOff s ring tail)) else .next s
  | _ => .next s

def execStraddle (ring : Nat) (s : State) : Out :=
  match lookRing s ring with
  | (s', .straddle tail) => .next (stopRing s' ring 3 (ringOff s ring tail))
  | _ => .next s

/-- The driver writes ERROR := 0, and TAIL where it has advanced it. -/
def execRingRestart (ring : Nat) (tail : Option Nat) (s : State) : Out :=
  let x := getRing s ring
  if !x.configured || x.lost then .next s else
  match frontRead s (ring / 16) (x.ctl + 72) 8 with
  | (_, .error _) => .next s
  | (s', .ok e) =>
    if !e.testBit 63 then .next s else
    let s' := match tail with
      | some t => (frontWrite s' (ring / 16) (x.ctl + 64) 8 t).1
      | none => s'
    .next (frontWrite s' (ring / 16) (x.ctl + 72) 8 0).1

end Sys2Proof.Machine
end

