-- ==== Sys2Proof/Machine/Tasks.lean ====
section
/-! DEFINITION. The task unit and work graphs (R318 to R327), the crew dispatcher (R304, R305, R307, R115, R116), and the end
of waves and crews (R169). -/

namespace Sys2Proof.Machine

/-! ### PHASE (R327) -/

def getPhase (s : State) (die : Nat) : Nat := smGet s.phase 0 die
def setPhase (s : State) (die v : Nat) : State := { s with phase := smSet s.phase 0 die (v % 65536) }

def execPhase32 (f : F32Z) (s : State) : Out :=
  let die := waveDie s.cur
  runWide (.phase32 f) f.g (if f.fn.toNat % 16 = 0 then some 0x002 else none) s fun _ _ => .done (setPhase s die (getPhase s die + f.fn.toNat % 16))

def execPhase64 (f : F64R) (s : State) : Out :=
  let die := waveDie s.cur
  let b := sOrImm s.wave f.cb f.b % 65536
  runWide (.phase64 f) f.g none s fun _ _ =>
    .done (setPhase s die (if f.fn.getLsbD 0 then b else getPhase s die + b))

/-! ### TDONE and its completion (R318 to R321) -/

/-- A task entry by its die and number; its fields. -/
def getTask (s : State) (die i : Nat) : Nat := (smGet s.tasks 0 (65536 * die + i)).toNat
def setTask (s : State) (die i x : Nat) : State := { s with tasks := smSet s.tasks 0 (65536 * die + i) (BitVec.ofNat 256 x) }
def taskSucc (x k : Nat) : Nat := natBits x (47 + 16 * k) (32 + 16 * k)
def taskNsucc (x : Nat) : Nat := min 4 (natBits x 26 24)

/-- The die of a task index of a package. -/
def taskDie (pkg t : Nat) : Nat := 2 * pkg + t / 65536

def execTdone64 (f : F64R) (s : State) : Out :=
  runWide (.tdone64 f) f.g none s fun _ ex =>
    let t := sOrImm s.wave f.cb f.b
    let die := taskDie (vifPkg s.wave.vif) t
    if t ≥ 2 ^ 17 || !(getTask s die (t % 65536)).testBit 31 then .fault s 0x209 ex [] 0
    else
      let k := 2 * s.nextId + (if s.wave.turnB then 1 else 0)
      .done (modUnit { s with nextId := s.nextId + 1 } die (fun u => { u with done := u.done ++ [(t, s.cur, k, ex)] }))

/-- Decrement the successors of an entry in slot order: the first slot that underflowed, and the slots that were enqueued. -/
def decSuccs (s : State) (die x : Nat) (under : Option Nat) (enq : Nat) (ks : List Nat) : State × Option Nat × Nat :=
  match ks with
  | [] => (s, under, enq)
  | k :: rest =>
    let i := taskSucc x k
    let y := getTask s die i
    if y % 65536 = 0 then decSuccs s die x (under <|> some k) enq rest
    else
      let ready := y % 65536 = 1 && y.testBit 31 && !y.testBit 30
      decSuccs (setTask s die i (y - 1 + (if ready then 2 ^ 30 else 0))) die x under (if ready then enq + 2 ^ k else enq) rest

/-- One completion: the successors, the entry for the wave, the underflow (R308, R320). -/
def applyDone (s : State) (die : Nat) (d : Nat × Nat × Nat × Lanes) : State :=
  let x := getTask s die (d.1 % 65536)
  let n := taskNsucc x
  let (s, under, enq) := decSuccs s die x none 0 (List.range n)
  let succ (k : Nat) : Nat := if k < n then taskSucc x k else 0xFFFFFFFF
  let s := pushEntry s d.2.1 6 [d.1, succ 0, succ 1, succ 2, succ 3, enq] false
  match under with
  | none => s
  | some k => if live (getWave s d.2.1) == 0 then s else
    raise s d.2.1 { cause := 0x201, rank := 4, order := d.2.2.1 / 2, path := d.2.2.1 % 2, lanes := d.2.2.2, detail := k }

/-- Insert a completion by its task index. -/
def insertDone (d : Nat × Nat × Nat × Lanes) : List (Nat × Nat × Nat × Lanes) → List (Nat × Nat × Nat × Lanes)
  | [] => [d]
  | e :: rest => if d.1 < e.1 then d :: e :: rest else e :: insertDone d rest

/-- The units of a frozen interface stand still for the launch that goes on (R431). -/
def unitsStopped (s : State) (w : Nat) : Bool :=
  let f := getIface s (getWave s w).vif
  f.frozen && f.exempt == (getCrew s (getWave s w).crew).launch + 1

/-- The completions that have reached a task unit apply in ascending task index (R321), but where the unit stands still. -/
def execTaskCompletionApply (die : Nat) (s : State) : Out :=
  let l := ((getUnit s die).done.filter (fun d => !unitsStopped s d.2.1)).foldl (fun l d => insertDone d l) []
  .next (l.foldl (fun s d => applyDone s die d) (if l.isEmpty then s else modUnit s die (fun u => { u with done := u.done.filter (fun d => unitsStopped s d.2.1) })))

/-! ### Tasks that are ready (R322) -/

/-- The interface that loaded an entry is frozen (R431). -/
def taskStopped (s : State) (die i : Nat) : Bool := (getIface s (((smGet (getUnit s die).loader (0, 0) i).1 - 1) / 16)).frozen

/-- The head of a die's ready queue: priority, entry. -/
def readyHead (s : State) (die : Nat) : Option (Nat × Nat) :=
  (s.tasks.filter (fun kv => kv.1 / 65536 == die && kv.2.getLsbD 30 && kv.2.getLsbD 31 && !taskStopped s die (kv.1 % 65536))).foldl (fun b kv =>
    let p := natBits kv.2.toNat 23 16
    match b with
    | none => some (p, kv.1 % 65536)
    | some y => if p > y.1 then some (p, kv.1 % 65536) else some y) none

/-- The task that the front end takes next: die and entry. -/
def nextTask (s : State) (pkg : Nat) : Option (Nat × Nat) :=
  match readyHead s (2 * pkg), readyHead s (2 * pkg + 1) with
  | none, none => none
  | some a, none => some (2 * pkg, a.2)
  | none, some b => some (2 * pkg + 1, b.2)
  | some a, some b => if b.1 > a.1 then some (2 * pkg + 1, b.2) else some (2 * pkg, a.2)

def execTaskLaunchFetch (pkg : Nat) (s : State) : Out :=
  match nextTask s pkg with
  | none => .next s
  | some (die, i) =>
    let (r1, off) := smGet (getUnit s die).loader (0, 0) i
    let r := r1 - 1
    if listFull s pkg || (getIface s (r / 16)).frozen then .next s else
    let x := getTask s die i
    let s := setTask s die i (x - 2 ^ 30)
    match frontRead s (r / 16) (natBits x 191 128) 64 with
    | (s, .error _) => .next (stopRing s r 6 off)
    | (s, .ok p) =>
      match launchReason s r p with
      | some k => .next (stopRing s r k off)
      | none => .next (addLaunch s r p { kind := 1, off := off, task := 65536 * (die % 2) + i, args := BitVec.ofNat 64 (lArgs p) })

/-! ### Work graphs (R323 to R326) -/

def getNode (s : State) (die bin : Nat) : Nat := (smGet s.nodes 0 (4096 * die + bin)).toNat
def nodeSize (x : Nat) : Nat := natBits x 71 64
def nodeDepth (x : Nat) : Nat := natBits x 79 72
def nodeCoal (x : Nat) : Nat := natBits x 111 96
def nodeTimer (x : Nat) : Nat := natBits x 127 112
def nodeLaunch (x : Nat) : Nat := natBits x 63 0

/-- Store units of a whole batch of a node. -/
def batchUnits (x : Nat) : Nat := 1 + (nodeCoal x * nodeSize x * 4 + 15) / 16

/-- The lowest free run of `n` store units. -/
def freeStore (u : TaskUnit) (n : Nat) : Option Nat :=
  (0 :: u.batches.map (fun b => b.unit + b.units)).foldl (fun best a =>
    let ok := a + n ≤ u.units && u.batches.all (fun b => a + n ≤ b.unit || b.unit + b.units ≤ a)
    match best with
    | some y => if ok && a < y then some a else some y
    | none => if ok then some a else none) none

def openBatch (u : TaskUnit) (bin : Nat) : Option Batch := u.batches.find? (fun b => b.bin == bin && b.stage == 0)

def putBatch (u : TaskUnit) (b : Batch) : TaskUnit :=
  { u with batches := u.batches.map (fun c => if c.bin == b.bin && c.num == b.num then b else c) }

/-- Address of a batch in the store, and the interface whose tables translate it. -/
def batchAddr (u : TaskUnit) (b : Batch) : Nat := (u.store + 16 * b.unit) % 2 ^ 64
def nodeVif (u : TaskUnit) (bin : Nat) : Nat := (smGet u.nodeRing 0 bin - 1) / 16

/-- A batch closes: its header is written (R325). -/
def closeBatch (s : State) (die : Nat) (b : Batch) : State × Except Nat Unit :=
  let u := getUnit s die
  let s := modUnit s die (fun u => putBatch u { b with stage := 1 })
  writeVirt s (nodeVif u b.bin) die (batchAddr u b) false (natBytes 16 (b.bin + 2 ^ 32 * b.count + 2 ^ 64 * b.num))

/-- Append one record to a bin: none when the store has no room. -/
def appendRecord (s : State) (die bin rec : Nat) : Option (State × Except Nat Unit) :=
  let x := getNode s die bin
  let u := getUnit s die
  let opened : Option (TaskUnit × Batch) := match openBatch u bin with
    | some b => some (u, b)
    | none => (freeStore u (batchUnits x)).map (fun a =>
        let n := smGet u.nextBatch 0 bin
        let b : Batch := { die := die, bin := bin, num := n, unit := a, units := batchUnits x }
        (setMode { u with batches := u.batches ++ [b], nextBatch := smSet u.nextBatch 0 bin (n + 1) }, b))
  opened.map (fun (u, b) =>
    let n := nodeSize x * 4
    let b' := { b with count := b.count + 1 }
    let s := modUnit s die (fun _ => putBatch u b')
    match writeVirt s (nodeVif u bin) die ((batchAddr u b + 16 + b.count * n) % 2 ^ 64) false (natBytes n rec) with
    | (s, .error c) => (s, .error c)
    | (s, .ok ()) => if b'.count ≥ nodeCoal x then closeBatch s die b' else (s, .ok ()))

/-- Append the records of lanes in order: none where one finds no room; else the state, and the lanes whose write faulted, which append
nothing. -/
def appendAll (s : State) (die bin : Nat) : List (Nat × Nat) → Option (State × List (Nat × Nat))
  | [] => some (s, [])
  | (l, r) :: rest => match appendRecord s die bin r with
    | none => none
    | some (s', .ok ()) => appendAll s' die bin rest
    | some (_, .error c) => (appendAll s die bin rest).map (fun y => (y.1, (l, c) :: y.2))

/-- The records that lanes of a wave spawn from registers `a` on. -/
def spawnRecords (s : State) (w a bin : Nat) (ex : Lanes) : List (Nat × Nat) :=
  (lanesOf ex).map (fun l => (l, gatherRegs (getWave s w) a l (4 * nodeSize (getNode s (waveDie w) bin))))

/-- Lanes whose append faulted are faulted after issue and issue again (R423); the entry cannot hold a record, which is read again from the
registers then (log entry 40). -/
def spawnFault (s : State) (w path : Nat) (pc : DWord) (f : F64R) (bad : List (Nat × Nat)) : State :=
  if bad.isEmpty then s else
  let cause := bad.foldl (fun c x => if c = 0 then x.2 else min c x.2) 0
  let r : Replay := { ecause := cause, shadow := (getWave s w).shadow, path := path, rlanes := maskOf (bad.map (·.1)), ipc := pc
                      parcels := encode (.spawn64 f), seq := s.nextId }
  let s := modWave { s with nextId := s.nextId + 1 } w (fun x => bad.foldl (fun x lc => markLanes x (laneBit lc.1) lc.2) (addReplay x r))
  raise s w { cause := cause, rank := 4, order := r.seq, path := path, lanes := maskOf ((bad.filter (fun x => x.2 == cause)).map (·.1)) }

def execSpawn64 (f : F64R) (s : State) : Out :=
  let die := waveDie s.cur
  let bin := sOrImm s.wave f.cb f.b
  let x := getNode s die bin
  let a := f.a.toNat
  runInstr (.spawn64 f) f.g none (a + max 1 (if bin < 4096 then nodeSize x else 1)) s fun p ex =>
    if ex == 0 then .done s
    else if bin ≥ 4096 || nodeSize x = 0 then .fault s 0x20B ex [] 0
    else if unitsStopped s s.cur then .hold s (.store (batchUnits x)) none
    else
      match appendAll s die bin (spawnRecords s s.cur a bin ex) with
      | none => .hold s (.store (batchUnits x)) none
      | some (s', bad) =>
        if !bad.isEmpty && entriesUsed s s.cur ≥ Config.replayLimit then .hold s .replay (some (slotOf s.wave s.wave.turnB))
        else .done (spawnFault s' s.cur (if s.wave.turnB then 1 else 0) p.pc f bad)

def execBatchTimerExpiry (die bin : Nat) (s : State) : Out :=
  match openBatch (getUnit s die) bin with
  | none => .next s
  | some b =>
    if nodeTimer (getNode s die bin) = 0 || (getIface s (nodeVif (getUnit s die) bin)).frozen then .next s
    else .next (closeBatch s die b).1

/-- A batch is the lowest-numbered of its node that has not finished: its crew is the node's lowest unfinished one. -/
def lowestBatch (u : TaskUnit) (bin num : Nat) : Bool := u.batches.all (fun b => b.bin != bin || b.stage == 3 || num ≤ b.num)

/-- The closed batch that launches next in the unit's mode (R326). The mode does not hold back the lowest batch of a node: those come
first. DEDUCED (log entry 58). -/
def nextBatch (s : State) (die : Nat) : Option Batch :=
  let u := getUnit s die
  let key (b : Batch) : Nat :=
    let d := nodeDepth (getNode s die b.bin)
    (((if lowestBatch u b.bin b.num then 0 else 256) + (if u.depthFirst then 255 - d else d)) * 4096 + b.bin) * 2 ^ 32 + b.num
  (u.batches.filter (fun b => b.stage == 1 && !(getIface s (nodeVif u b.bin)).frozen)).foldl (fun m b => match m with
    | none => some b
    | some y => if key b < key y then some b else some y) none

def execBatchLaunch (die : Nat) (s : State) : Out :=
  match nextBatch s die with
  | none => .next s
  | some b =>
    let u := getUnit s die
    let r := smGet u.nodeRing 0 b.bin - 1
    if listFull s (die / 2) || (getIface s (r / 16)).frozen then .next s else
    let refuse (s : State) (k : Nat) : State := stopRing (modUnit s die (fun u => putBatch u { b with stage := 3 })) r k 0
    match frontRead s (r / 16) (nodeLaunch (getNode s die b.bin)) 64 with
    | (s, .error _) => .next (refuse s 6)
    | (s, .ok p) =>
      match (if lCrews p = 1 then launchReason s r p else some 1) with
      | some k => .next (refuse s k)
      | none =>
        let s := modUnit s die (fun u => putBatch u { b with stage := 2 })
        .next (addLaunch s r p { kind := 2, batch := some (die, b.bin, b.num), args := BitVec.ofNat 64 (batchAddr u b) })

/-! ### Dependencies (R307) -/

/-- The producer crews that a consumer crew needs by MAP 1 to 4. -/
def mapCrews (p idx : Nat) : List Nat :=
  let gx := lGx p
  let gy := lGy p
  let x := idx % gx
  let y := idx / gx % gy
  let z := idx / (gx * gy)
  let at' (x y : Nat) : Nat := x + gx * (y + gy * z)
  let near (c n : Nat) : List Nat := (List.range (2 * lRadius p + 1)).filterMap (fun k =>
    if c + k ≥ lRadius p && c + k - lRadius p < n then some (c + k - lRadius p) else none)
  match lMap p with
  | 1 => [idx]
  | 2 => (List.range gx).map (fun x => at' x y)
  | 3 => (List.range gy).map (fun y => at' x y)
  | _ => (near y gy).flatMap (fun y => (near x gx).map (fun x => at' x y))

/-- What holds a consumer crew back. -/
inductive Dep where
  | met
  | waiting
  /-- the table is wrong (0x01) or cannot be read (0x06) -/
  | broken (reason : Nat)
  deriving DecidableEq, Repr

/-- Every crew of a list has finished in a producer. -/
def allDone (l : Option Launch) (cs : List Nat) : Bool := match l with | none => true | some l => l.complete || cs.all (fun c => l.finished.contains c)

def depOf (s : State) (l : Launch) (idx : Nat) : State × Dep :=
  let p := l.packet.toNat
  if lMap p = 0 then (s, .met) else
  let prod := match l.producer with | some id => (getPkg s (vifPkg l.vif)).launches.find? (fun k => k.id == id) | none => none
  if lMap p ≤ 4 then (s, if allDone prod (mapCrews p idx) then .met else .waiting) else
  match frontRead s l.vif ((lDeptab p + 8 * idx) % 2 ^ 64) 8 with
  | (s, .error _) => (s, .broken 6)
  | (s, .ok oc) =>
    match frontRead s l.vif ((lDeptab p + 8 * lCrews p + 4 * (oc % 2 ^ 32)) % 2 ^ 64) (4 * (oc / 2 ^ 32)) with
    | (s, .error _) => (s, .broken 6)
    | (s, .ok x) =>
      let cs := (List.range (oc / 2 ^ 32)).map (fun i => bytesAt x (4 * i) 4)
      let n := match prod with | some k => lCrews k.packet.toNat | none => 2 ^ 32
      (s, if cs.any (fun c => c ≥ n) then .broken 1 else if allDone prod cs then .met else .waiting)

/-! ### Placement (R304, R305, R115, R116) -/

/-- Wave slots of a core that hold no wave, ascending, as wave numbers. -/
def freeSlots (s : State) (core : Nat) : List Nat :=
  (List.range 64).filterMap (fun i => if (getWave s (64 * core + i)).status = .absent then some (64 * core + i) else none)

/-- The lowest `n` free units of a kind below `cap`. -/
def freeUnits (used : List Nat) (cap n : Nat) : Option (List Nat) :=
  let l := ((List.range cap).filter (fun i => !used.contains i)).take n
  if l.length = n then some l else none

/-- The lowest free bench run of `n` bytes. -/
def freeBench (cs : List Crew) (n : Nat) : Option Nat :=
  (0 :: cs.map (fun c => c.benchBase + c.benchSize)).foldl (fun best a =>
    let ok := a + n ≤ Config.benchBytes && cs.all (fun c => c.benchSize = 0 || a + n ≤ c.benchBase || c.benchBase + c.benchSize ≤ a)
    match best with
    | some y => if ok && a < y then some a else some y
    | none => if ok then some a else none) none

/-- What a crew takes on a core: slots, bench base, tiles, convergence registers, records. -/
structure Place where
  slots : List Nat := []
  bench : Nat := 0
  tiles : List Nat := []
  cvs : List Nat := []
  obs : List Nat := []
  deriving DecidableEq, Repr

def placeOn (s : State) (core slots gran bench nt nc no : Nat) : Option Place :=
  let cs := (crewsOn s core).map (·.2)
  let fs := (freeSlots s core).take slots
  if fs.length < slots || granFree s core < gran || (getCore s core).failed then none else
  match freeBench cs bench, freeUnits (cs.flatMap (·.tiles)) 8 nt, freeUnits (cs.flatMap (·.cvs)) 8 nc, freeUnits (cs.flatMap (·.obs)) 32 no with
  | some b, some t, some c, some o => some ⟨fs, b, t, c, o⟩
  | _, _, _, _ => none

/-- A core may take a crew of a launch: it belongs to the interface, and no `VACATE` holds it for another launch. -/
def coreOpen (s : State) (core : Nat) (l : Launch) : Bool :=
  coreVif s core == some l.vif && ((getCore s core).holder == 0 || (getCore s core).holder == l.id + 1)

/-- The cores of an interface on a die in the order of the search: after the core placed on last, wrapping (R305). -/
def searchCores (s : State) (l : Launch) (die : Nat) : List Nat :=
  ((List.range 256).map (fun i => (l.lastCore + 1 + i) % 256)).filterMap (fun n =>
    match physCore s l.vif n with
    | some c => if coreDie c = die then some c else none
    | none => none)

/-- The place that a crew with the launch's needs takes on a die. -/
def findPlace (s : State) (l : Launch) (die : Nat) : Option (Nat × Place) :=
  let p := l.packet.toNat
  (searchCores s l die).foldl (fun b core => match b with
    | some y => some y
    | none => if coreOpen s core l then (placeOn s core (lSlots p) (lGranules p) (lBench p) (lNtile p) (lNcv p) (lNob p)).map (fun q => (core, q)) else none) none

/-- A wave as placement leaves it (R116, R124, R131). -/
def newWave (l : Launch) (crew idx w : Nat) (shadow pair : Bool) (partner : Option Nat) (crewIdx : Nat) : Wave :=
  let p := l.packet.toNat
  let n := lThreads p - 32 * w
  let lanes : Lanes := if n ≥ 32 then BitVec.allOnes 32 else BitVec.ofNat 32 (2 ^ n - 1)
  let entry : DWord := BitVec.ofNat 64 (if shadow then lShentry p else lEntry p)
  let x : Wave := { status := .running, crew := crew, idx := idx, shadow := shadow, partner := partner, vif := l.vif
                    wsw := setBits (setBits 0 23 21 (lPrio p)) 11 11 (if shadow then 1 else 0), gran := lGran p
                    qmap0 := if pair then 0x11111111 else 0, tvbase := sextPc (lTvbase p / 8192 * 8192) }
  let x := kPut x 0 lanes
  let x := sPut (sPut (sPutPair (sPut (sPut x 0 crewIdx) 1 w) 2 l.args.toNat) 4 (lCrews p)) 5 l.task
  modLanes x lanes (atHeader entry)

/-- Place crew `idx` of a launch on a core. -/
def placeCrew (s : State) (l : Launch) (idx core : Nat) (q : Place) : State :=
  let p := l.packet.toNat
  let n := lWaves p
  let id := s.nextCrew
  let cr : Crew := { launch := l.id, idx := idx, core := core, vif := l.vif, threads := lThreads p, waves := n, shadow := lShadow p
                     slots := q.slots, benchBase := q.bench, benchSize := lBench p, tiles := q.tiles, cvs := q.cvs, obs := q.obs }
  let s := { s with crews := smSet s.crews {} id cr, nextCrew := id + 1 }
  let s := (List.range n).foldl (fun s w =>
    let a := q.slots.getD w 0
    let b := q.slots.getD (n + w) 0
    let s := setWave s a (newWave l id w w false (lShadow p) (if lShadow p then some b else none) idx)
    if lShadow p then setWave s b (newWave l id w w true true (some a) idx) else s) s
  modPkg s (vifPkg l.vif) (fun k => { k with launches := k.launches.map (fun m =>
    if m.id == l.id then { m with next := idx + 1, lastCore := logicalCore s l.vif core } else m) })

/-! ### The end of waves and crews (R169, R115) -/

/-- Remove a task unit's batch when its crew exits (R325). -/
def freeBatch (s : State) (b : Option (Nat × Nat × Nat)) : State :=
  match b with
  | none => s
  | some (die, bin, num) => modUnit s die (fun u => setMode { u with batches := u.batches.filter (fun b => !(b.bin == bin && b.num == num)) })

/-- A launch whose crews have all finished is complete (R301); a core that a `VACATE` held for it falls free (R430). -/
def finishCrew (s : State) (vif launch idx : Nat) : State :=
  let pkg := vifPkg vif
  let step (l : Launch) : Launch :=
    if l.id ≠ launch then l else
    let l := { l with finished := if l.finished.contains idx then l.finished else l.finished ++ [idx] }
    { l with complete := l.finished.length ≥ lCrews l.packet.toNat }
  let s := modPkg s pkg (fun k => { k with launches := k.launches.map step })
  match (getPkg s pkg).launches.find? (fun l => l.id == launch) with
  | none => s
  | some l =>
    let s := freeBatch s l.batch
    if l.complete then
      { s with cores := s.cores.filterMap (fun kv =>
          if corePkg kv.1 = pkg && kv.2.holder = launch + 1 then
            (if { kv.2 with holder := 0 } = ({} : Core) then none else some (kv.1, { kv.2 with holder := 0 })) else some kv) }
    else s

/-- A crew has exited: its tags, its barrier trackers and its units go; its writes are performed. -/
def exitCrew (s : State) (ci w : Nat) : State :=
  let c := getCrew s ci
  let s := (List.range 8).foldl (fun s n => if (getCrew s ci).bound.testBit n then leaveTag s ci n else s) s
  let s := pushWrites s w 7
  let lo := c.benchBase
  let inBench (o : Nat) : Bool := o % 2 == 0 && objCore o == c.core && lo ≤ o / 2 % 16384 * 32 && o / 2 % 16384 * 32 < lo + c.benchSize
  let s := { s with bars := s.bars.filter (fun kv => !inBench kv.1), crews := smSet s.crews {} ci {} }
  finishCrew s c.vif c.launch c.idx

/-- Work of a wave that has not ended. -/
def waveBusy (s : State) (w : Nat) : Bool :=
  let x := getWave s w
  x.ld + x.st + x.cpy + x.tile + x.eng != 0 || s.ops.any (fun o => o.w == w) || s.entries.any (fun e => e.w == w)
    || s.taskUnits.any (fun u => u.2.done.any (fun d => d.2.1 == w))

/-- The partner of a compute wave whose shadow has ended and given up its slot: the number of no wave. -/
def goneShadow : Nat := 2 ^ 30

/-- A wave that has ended gives up its slot once its work is done; cancelled commands of its crew are issued again first (R427). -/
def execWaveSlotRelease (w : Nat) (s : State) : Out :=
  let x := getWave s w
  if x.status ≠ .ended || waveBusy s w || !(getCrew s x.crew).cancelled.isEmpty then .next s else
  let c := getCrew s x.crew
  let compute := (c.slots.take c.waves).contains w
  let s := modCrew s x.crew (fun c => { c with slots := c.slots.erase w, waves := if compute then c.waves - 1 else c.waves })
  let s := if (getCrew s x.crew).slots.isEmpty then exitCrew s x.crew w else s
  let s := match x.partner with
    | some p => if x.shadow && (getWave s p).partner == some w && !(getWave s p).shadow then modWave s p (fun y => { y with partner := some goneShadow }) else s
    | none => s
  .next (allocPass (setWave s w {}) (waveCore w))

end Sys2Proof.Machine
end

