-- ==== Sys2Proof/Machine/Coll.lean ====
section
/-! DEFINITION. Collective contexts (R331 to R341, R361): the `COLL` instructions, the command words, and a context's faults. -/

namespace Sys2Proof.Machine

/-! ### A context (R331) -/

def ctxDie (n : Nat) : Nat := n / 16
def ctxNum (n : Nat) : Nat := n % 16
def ctxState (x : Context) : Nat := natBits x.status.toNat 31 30
def ctxWord (x : Context) : Nat := natBits x.status.toNat 19 5
def ctxRunning (x : Context) : Bool := ctxState x == 1

def setCtxState (x : Context) (st : Nat) : Context := { x with status := setBits x.status 31 30 st }
def setCtxWord (x : Context) (w : Nat) : Context := { x with status := setBits x.status 19 5 w }
def ctxFlags (x : Context) (fl : Nat) : Context := { x with status := x.status ||| BitVec.ofNat 32 (fl % 32) }

/-- The interface that a context of a die is assigned to (R378). -/
def ctxIface (s : State) (n : Nat) : Option Nat :=
  ((List.range 64).map (fun i => 64 * (ctxDie n / 2) + i)).find? (fun v => ctxAssigned s v (ctxDie n) (ctxNum n))

/-! ### The descriptor and the member table (R334, R335) -/

def descBytes (x : Context) (i n : Nat) : Nat := bytesAt x.desc.toNat i n
def nmem (x : Context) : Nat := descBytes x 0 2
def keyM (x : Context) : Nat := descBytes x 2 1
def arrival (x : Context) : Bool := x.desc.getLsbD 24
def cfmt (x : Context) : Nat := natBits x.desc.toNat 26 25
def wire (x : Context) : Nat := natBits x.desc.toNat 28 27
def withRes (x : Context) : Bool := x.desc.getLsbD 29

def cfmtKind (c : Nat) : FKind := if c = 0 then .fp32 else .bf16

/-- The source format of reducing commands. -/
def sourceKind (x : Context) : FKind := if cfmt x = 0 || wire x ≠ 0 then .fp32 else .bf16

/-- The format on the wire of an FMT or WIRE field. -/
def wireKind (src : FKind) (w : Nat) : FKind := match w with | 1 => .bf16 | 2 => .e4m3 | 3 => .e5m2 | _ => src

def elemBytes (x : Context) : Nat := (sourceKind x).width / 8
def perChunk (x : Context) : Nat := 4096 / elemBytes x

def memPod (m : BitVec 64) : Nat := natBits m.toNat 63 52
def memDie (m : BitVec 64) : Nat := natBits m.toNat 51 42
def memKeyM (m : BitVec 64) : Nat := natBits m.toNat 20 16
def memKeyJ (m : BitVec 64) : Nat := natBits m.toNat 15 0
def memHere (m : BitVec 64) : Bool := memPod m == Config.ownPod.toNat

/-- The rank of a die of this pod in a context's table. -/
def rankOf (x : Context) (die : Nat) : Option Nat := x.members.findIdx? (fun m => memHere m && memDie m == die)

/-- The context of the same number at a rank, when the rank is of this pod. -/
def ctxAt (x : Context) (n r : Nat) : Option Nat :=
  match x.members[r]? with
  | some m => if memHere m then some (ctxOf (memDie m) (ctxNum n)) else none
  | none => none

/-- The contexts of the same number on the other member dies of this pod. -/
def otherCtxs (x : Context) (n : Nat) : List Nat :=
  (x.members.filterMap (fun m => if memHere m then some (ctxOf (memDie m) (ctxNum n)) else none)).filter (· != n)

/-- A member is of another pod. -/
def spansPods (x : Context) : Bool := x.members.any (fun m => !memHere m)

/-- The leaves that a key covers: first and one past the last. -/
def keyRange (m j : Nat) : Nat × Nat := (j * 2 ^ m, (j + 1) * 2 ^ m)

def rangesMeet (a b : Nat × Nat) : Bool := a.1 < b.2 && b.1 < a.2

/-- The fields of a descriptor are valid (R334). -/
def descOk (x : Context) : Bool :=
  1 ≤ nmem x && nmem x ≤ 1024 && keyM x ≤ 16 && cfmt x ≤ 1 && natBits x.desc.toNat 31 30 == 0
    && !(wire x == 1 && cfmt x == 1) && !(withRes x && wire x == 0)
    && descBytes x 8 8 % 8 == 0 && descBytes x 28 36 == 0

/-- The cause that the descriptor or the table gives (R335). -/
def tableCause (x : Context) (n : Nat) : Option Nat :=
  let ms := x.members
  let rs := ms.map (fun m => keyRange (memKeyM m) (memKeyJ m))
  if ms.any (fun m => natBits m.toNat 41 21 != 0) || (ms.map (fun m => natBits m.toNat 63 42)).eraseDups.length != ms.length
      || (rankOf x (ctxDie n)).isNone then some 0x303
  else if rs.any (fun r => 2 ^ keyM x < r.2) || (rs.zipIdx.any (fun a => (rs.drop (a.2 + 1)).any (rangesMeet a.1))) then some 0x304
  else none

/-! ### Command words (R336) -/

structure CmdWord where
  w0 : Nat := 0
  w1 : Nat := 0
  w2 : Nat := 0
  w3 : Nat := 0
  deriving DecidableEq, Repr

def cmdCode (c : CmdWord) : Nat := c.w0 % 256
def cmdHigh (c : CmdWord) : Nat := natBits c.w0 31 16
def cmdBit (c : CmdWord) : Bool := c.w0.testBit 8
def cmdAddr (c : CmdWord) : Nat := c.w1 + 2 ^ 32 * c.w2

def cmdOf (x : Nat) : CmdWord := ⟨bytesAt x 0 4, bytesAt x 4 4, bytesAt x 8 4, bytesAt x 12 4⟩

/-- Word `i` of a context's list, or the cause that its read gives. -/
def readCmd (s : State) (n i : Nat) : State × Except Nat CmdWord :=
  let x := getCtx s n
  match readVirt s x.vif (ctxDie n) ((x.list + 16 * i) % 2 ^ 64) 16 with
  | (s, .ok l) => (s, .ok (cmdOf (bytesNat l)))
  | (s, .error c) => (s, .error c)

def countOk (c : CmdWord) : Bool := 1 ≤ c.w3 && c.w3 < 2 ^ 31

/-- The fields of a word lie within their limits. -/
def cmdOk (x : Context) (c : CmdWord) : Bool :=
  let z15_9 := natBits c.w0 15 9 == 0
  let z15_8 := natBits c.w0 15 8 == 0
  match cmdCode c with
  | 1 => z15_9 && cmdHigh c < nmem x && countOk c && (!cmdBit c || cmdAddr c == 0)
  | 2 => z15_8 && cmdHigh c < nmem x && countOk c
  | 3 => z15_9 && countOk c
  | 4 => z15_8 && countOk c
  | 5 => natBits c.w0 31 8 == 0 && c.w3 % 4 == 0
  | 6 => natBits c.w0 31 9 == 0 && countOk c
  | 7 => z15_8 && 1 ≤ cmdHigh c && 1 ≤ c.w1 && c.w1 ≤ 32767 && c.w2 == 0 && c.w3 == 0
  | 8 => natBits c.w0 31 8 == 0 && c.w1 == 0 && c.w2 == 0 && c.w3 == 0
  | _ => true

/-! ### Faults and ends of a context (R340, R361) -/

/-- The completion entry of a context. -/
def ctxEntry (s : State) (n : Nat) : State :=
  let x := getCtx s n
  pushEntry s x.w 3 [ctxNum n, x.status.toNat, ctxWord x] true

/-- The memory object at an address, as an interface names it (R388). -/
def objAt (s : State) (vif die va : Nat) : Except Nat Nat :=
  if va % 32 ≠ 0 then .error 0x107 else
  if !canonical va then .error 0x104 else
  match (translate s vif die va 1 false).2 with
  | .ok t => .ok (memObj t.pa)
  | .error c => .error c

/-- An object that a `SIGNAL` word names enters its error state. -/
def failSignal (s : State) (n va : Nat) : State :=
  match ctxIface s n with
  | none => s
  | some v => match objAt s v (ctxDie n) va with
    | .ok o => failObj s o 0x203
    | .error _ => s

/-- The packages of a context's members in this pod, each with the context on its lowest member die. -/
def pkgCtxs (x : Context) (n : Nat) : List Nat :=
  let l := otherCtxs x n
  l.filter (fun a => ctxDie a / 2 != ctxDie n / 2 && !(l.any (fun b => ctxDie b / 2 == ctxDie a / 2 && b < a)))

/-- Step 3 of a context fault: the objects of the `SIGNAL` words from word `i` to the next `HALT`. -/
def failSignals (s : State) (n i : Nat) : Nat → State
  | 0 => s
  | k + 1 =>
    match readCmd s n i with
    | (s, .error _) => s
    | (s, .ok c) =>
      if cmdCode c = 8 then s else
      let s := if cmdCode c != 6 then s else
        let x := getCtx s n
        let s := failSignal s n (cmdAddr c)
        if cmdBit c then (pkgCtxs x n).foldl (fun s m => failSignal s m (cmdAddr c)) s else s
      failSignals s n (i + 1) k

/-- A packet of a context's word, not of a remote access. -/
def ofWord (p : Packet) : Bool := p.kind != .request && p.kind != .response

/-- A packet of a context, sent by it or on its way to it. -/
def packetOf (n : Nat) (p : Packet) : Bool :=
  ofWord p && (ctxOf p.src p.ctx == n || ctxOf p.dst p.ctx == n || ctxOf p.hub p.ctx == n)

/-- Packets and held values of a context that faults or stops for good are consumed without effect. -/
def dropPackets (s : State) (n : Nat) : State :=
  let mine := packetOf n
  { s with
    packets := s.packets.filter (fun p => !mine p), held := s.held.filter (fun h => !(ctxOf h.die h.pkt.ctx == n))
    netReqs := s.netReqs.filter (fun r => r.coll != n + 1) }

/-- A context faults (R340). -/
def ctxFault (s : State) (n cause : Nat) : State :=
  let s := modCtx s n (fun x =>
    { setCtxState x 2 with status := setBits (setCtxState x 2).status 29 20 cause, begun := false, stopReq := false })
  let x := getCtx s n
  let s := (otherCtxs x n).foldl (fun s m => modCtx s m (fun y => { y with aborted := true })) s
  let s := failSignals (dropPackets s n) n (ctxWord x) 32768
  ctxEntry s n

/-- A context ends without a fault: at `HALT`, or stopped. -/
def ctxIdle (s : State) (n : Nat) : State :=
  ctxEntry (modCtx s n (fun x => { setCtxState x 0 with begun := false, stopReq := false })) n

/-- The packets that a context's words still have on the fabric, to it or from it. -/
def ctxPackets (s : State) (n : Nat) : Bool :=
  s.packets.any (packetOf n) || s.held.any (fun h => ctxOf h.die h.pkt.ctx == n)

/-- A begun word rolls back: it gives up the number that it took among the words that it is matched with. -/
def unbegin (x : Context) (c : CmdWord) : Context :=
  let y := { x with begun := false }
  match cmdCode c with
  | 1 => { y with sends := smMod y.sends 0 (cmdHigh c) (· - 1) }
  | 2 => { y with recvs := smMod y.recvs 0 (cmdHigh c) (· - 1) }
  | 3 => { y with words := y.words - 1 }
  | 4 => { y with words := y.words - 1 }
  | 6 => if cmdBit c then { y with words := y.words - 1 } else y
  | _ => y

/-- A context whose interface is being frozen reaches its checkpoint (R428): a word that has sent and received nothing rolls
back, and the members are told, once. -/
def ctxCheckpoint (s : State) (n : Nat) : State :=
  let x := getCtx s n
  if !x.freezing || !ctxRunning x || ctxPackets s n || (x.begun && !(x.sent.isEmpty && x.got.isEmpty)) then s
  else
    let (s, c) := match readCmd s n (ctxWord x) with
      | (s, .ok c) => (s, c)
      | (s, .error _) => (s, {})
    let s := modCtx s n (fun x => { setCtxState (if x.begun then unbegin x c else x) 3 with freezing := false, noticed := true })
    if x.noticed then s else (otherCtxs x n).foldl (fun s m => modCtx s m (fun y => { y with freezeIn := y.freezeIn + 1 })) s

/-- The word of a context is done, and word `i` is next. -/
def ctxNext (s : State) (n i : Nat) : State :=
  let s := modCtx s n (fun x => { x with begun := false, sent := [], got := [], took := [], acks := 0 })
  if i ≥ 32768 then ctxFault s n 0x306 else
  let s := modCtx s n (fun x => setCtxWord x i)
  if (getCtx s n).stopReq then ctxIdle s n else ctxCheckpoint s n

/-! ### COLL (R332, R333) -/

/-- The context that B names. -/
def collB (s : State) (f : F64R) : Nat := sOrImm s.wave f.cb f.b

/-- B above 15 is a fault of the encoding, whatever the guard holds (R88, R333). -/
def collPre (s : State) (f : F64R) : Option Nat := if collB s f > 15 then some 0x002 else none

/-- B names a context of another interface. -/
def collCause (s : State) (f : F64R) : Option Nat :=
  if ctxAssigned s s.wave.vif (waveDie s.cur) (collB s f) then none else some 0x102

/-- Each hub's multicast groups of a context: entries 4k to 4k + 3 list the first 128 other member packages. PORT is the rail of chunk 0, from
which a chunk's own is counted (R341; log entry 41). -/
def groupTargets (s : State) (n : Nat) : List Word :=
  (pkgCtxs (getCtx s n) n).map (fun a => BitVec.ofNat 32 (ctxDie a * 2 ^ 14))

def writeGroups (s : State) (n : Nat) : State :=
  let ts := groupTargets s n
  { s with groups := (List.range 4).foldl (fun g i => smSet g [] (64 * ctxDie n + 4 * ctxNum n + i) ((ts.drop (32 * i)).take 32)) s.groups }

/-- The engine loads and checks the descriptor and the table, before any word runs (R335). -/
def ctxLoad (s : State) (n descAddr : Nat) : State :=
  let vif := (getCtx s n).vif
  match readVirt s vif (ctxDie n) descAddr 64 with
  | (s, .error c) => ctxFault s n c
  | (s, .ok l) =>
    let s := modCtx s n (fun x => { x with desc := BitVec.ofNat 512 (bytesNat l) })
    let x := getCtx s n
    if !descOk x || !hasFeature s vif (if arrival x then 7 else 6) then ctxFault s n 0x303 else
    match readVirt s vif (ctxDie n) (descBytes x 8 8) (8 * nmem x) with
    | (s, .error c) => ctxFault s n c
    | (s, .ok t) =>
      let b := bytesNat t
      let s := modCtx s n (fun x => { x with members := (List.range (nmem x)).map (fun r => BitVec.ofNat 64 (bytesAt b (8 * r) 8)) })
      match tableCause (getCtx s n) n with
      | some c => ctxFault s n c
      | none => writeGroups s n

def execCollStart64 (f : F64R) (s : State) : Out :=
  runWide (.collStart64 f) f.g (collPre s f) s fun _ ex =>
    let n := ctxOf (waveDie s.cur) (collB s f)
    let a := sPair64 s.wave f.a.toNat
    let c := sPair64 s.wave f.c.toNat
    let st := ctxState (getCtx s n)
    let cause := match collCause s f with
      | some e => some e
      | none => firstCause [(st == 1 || st == 3, 0x302), (a % 16 != 0 || c % 64 != 0, 0x107), (!canonical a || !canonical c, 0x104)]
    match cause with
    | some e => .fault s e ex [] 0
    | none =>
      let old := getCtx s n
      let x : Context :=
        { status := 0x40000000, vif := s.wave.vif, list := a, w := s.cur, drain := old.drain, drainBad := old.drainBad }
      let s := { s with wave := { s.wave with eng := s.wave.eng + 1 }, ctxs := smSet s.ctxs {} n x }
      .done (ctxLoad s n c)

def execCollStop64 (f : F64R) (s : State) : Out :=
  runWide (.collStop64 f) f.g (collPre s f) s fun _ ex =>
    match collCause s f with
    | some e => .fault s e ex [] 0
    | none =>
      let n := ctxOf (waveDie s.cur) (collB s f)
      let x := getCtx s n
      if !ctxRunning x then .done s
      else if x.begun then .done (modCtx s n (fun x => { x with stopReq := true }))
      else .done (ctxIdle s n)

def execCollStatus64 (f : F64R) (s : State) : Out :=
  runWide (.collStatus64 f) f.g (collPre s f) s fun _ ex =>
    match collCause s f with
    | some e => .fault s e ex [] 0
    | none => .done { s with wave := sPut s.wave f.d.toNat (getCtx s (ctxOf (waveDie s.cur) (collB s f))).status.toNat }

/-! ### Routes (R341, R343) -/

def entry (op port die arg : Nat) : Word := BitVec.ofNat 32 (op * 2 ^ 29 + port * 2 ^ 24 + die * 2 ^ 14 + arg)
def entOp (e : Word) : Nat := natBits e.toNat 31 29
def entPort (e : Word) : Nat := natBits e.toNat 28 24
def entDie (e : Word) : Nat := natBits e.toNat 23 14
def entArg (e : Word) : Nat := natBits e.toNat 13 0

/-- The directed link out of a package on a rail, and the one into it. -/
def linkOut (pkg rail : Nat) : Nat := 2 * (24 * pkg + rail)
def linkIn (pkg rail : Nat) : Nat := 2 * (24 * pkg + rail) + 1
def getPort (s : State) (l : Nat) : Port := smGet s.ports {} l
def modPort (s : State) (l : Nat) (f : Port → Port) : State := { s with ports := smMod s.ports {} l f }

/-- A rail works between two packages. -/
def railUp (s : State) (rail a b : Nat) : Bool :=
  [a, b].all (fun p => (getPort s (linkOut p rail)).up && !(getPort s (linkOut p rail)).training)

/-- The rail that traffic for rail `k` takes: the next that works (R350). -/
def liveRail (s : State) (k a b : Nat) : Option Nat := ((List.range 24).map (fun i => (k + i) % 24)).find? (fun r => railUp s r a b)

/-- The die of a package that a rail's port is on (R13). -/
def railDie (pkg rail : Nat) : Nat := 2 * pkg + rail / 12

/-- The die-to-die hop between two dies of a package, where they are two. -/
def dieHop (src dst : Nat) (tail : List Word) : List Word := if src = dst then tail else entry 0 24 dst 0 :: tail

/-- The route of chunk `c` from a die to a die of this pod, before `tail`: over its rail, from the rail's die to the rail's die (R341); none when
no rail works. -/
def routeTo (s : State) (src dst c : Nat) (tail : List Word) : Option (List Word) :=
  if src / 2 = dst / 2 then some (dieHop src dst tail)
  else match liveRail s (c % 24) (src / 2) (dst / 2) with
    | some r => some (dieHop src (railDie (src / 2) r) (entry 0 r (railDie (dst / 2) r) 0 :: dieHop (railDie (dst / 2) r) dst tail))
    | none => none

/-- The route to a rank: through Ultra Ethernet port `c` mod 4 when it is of another pod. -/
def routeRank (s : State) (x : Context) (src r c : Nat) (tail : List Word) : Option (List Word) :=
  match x.members[r]? with
  | none => none
  | some m => if memHere m then routeTo s src (memDie m) c tail else some (entry 0 (25 + c % 4) (memDie m) 0 :: tail)

/-- A context sends a packet on a route: none is sent when its route does not work, and the context faults with 0x30A. -/
def sendPacket (s : State) (n : Nat) (route : Option (List Word)) (p : Packet) : State :=
  match route with
  | none => ctxFault s n 0x30A
  | some st =>
    let p := { p with
      id := s.nextId, ctx := ctxNum n, src := ctxDie n, dst := ctxDie n, hub := ctxDie n, origHub := ctxDie n, stack := st, orig := st
      drop := p.payload.length ≥ 4096 }
    modCtx { s with nextId := s.nextId + 1, packets := s.packets ++ [p] } n (fun x =>
      if p.kind = .agath then x else { x with acks := x.acks + 1 })

/-! ### Pieces of a word -/

/-- The shard of a rank: first element and one past the last (R337). -/
def shard (x : Context) (total r : Nat) : Nat × Nat := (total * r / nmem x, total * (r + 1) / nmem x)

/-- The chunks of `len` elements: chunk number, first element and count. -/
def chunksOf (x : Context) (len : Nat) : List (Nat × Nat × Nat) :=
  (List.range ((len + perChunk x - 1) / perChunk x)).map (fun c => (c, c * perChunk x, min (perChunk x) (len - c * perChunk x)))

/-- The number of the first chunk of a rank's shard within a word (R342). -/
def chunkBase (x : Context) (total r : Nat) : Nat :=
  (List.range r).foldl (fun a q => a + (chunksOf x ((shard x total q).2 - (shard x total q).1)).length) 0

/-- The bits of source elements `i` to `i + k - 1`: from memory, or from the drain queue (R338), where a poisoned one faults as a poisoned
read does (R253, R337). -/
def readElems (s : State) (n : Nat) (c : CmdWord) (i k : Nat) : State × Except Nat (List Nat) :=
  let x := getCtx s n
  if cmdBit c && cmdCode c != 5 then
    if x.drainBad.any (fun e => i ≤ e && e < i + k) then (s, .error 0x109) else
    (s, .ok ((List.range k).map (fun j => match x.drain.find? (fun e => e.1 == i + j) with | some e => e.2.2 | none => 0)))
  else
    let b := elemBytes x
    match readVirt s x.vif (ctxDie n) ((cmdAddr c + b * i) % 2 ^ 64) (b * k) with
    | (s, .ok l) => (s, .ok ((List.range k).map (fun j => bytesAt (bytesNat l) (b * j) b)))
    | (s, .error e) => (s, .error e)

/-- Every element of the span is queued, or the word reads memory. -/
def elemsReady (x : Context) (c : CmdWord) (i k : Nat) : Bool :=
  !cmdBit c || (List.range k).all (fun j => x.drain.any (fun e => e.1 == i + j))

/-- The drain queue's elements break R338 for a word of `total` elements. -/
def drainBreaks (x : Context) (c : CmdWord) : Bool :=
  let code := if sourceKind x = .fp32 then 1 else 3
  cmdBit c && (x.drain.any (fun e => c.w3 ≤ e.1 || e.2.1 != code) || (x.drain.map (·.1)).eraseDups.length != x.drain.length)

def eatDrain (x : Context) (c : CmdWord) (i k : Nat) : Context :=
  if cmdBit c then { x with drain := x.drain.filter (fun e => !(i ≤ e.1 && e.1 < i + k))
                            drainBad := x.drainBad.filter (fun e => !(i ≤ e && e < i + k)) } else x

/-- Elements as bytes of a format. -/
def packElems (k : FKind) (l : List Nat) : List Byte := l.flatMap (fun v => natBytes (k.width / 8) v)
def unpackElems (k : FKind) (l : List Byte) : List Nat :=
  (List.range (l.length / (k.width / 8))).map (fun j => bytesAt (bytesNat l) (k.width / 8 * j) (k.width / 8))

/-- Round each element from one format to another under RNE: bits and flags. -/
def castElems (src dst : FKind) (l : List Nat) : List Nat × Nat :=
  if src = dst then (l, 0) else
  let ys := l.map (fun v => roundVal dst .rne (unpack src v))
  (ys.map (·.1), orFlags ys)

/-- A contribution with residual feedback (R59, R339): the narrow values, the residuals, and the flags. -/
def feedback (fmt : FKind) (xs rs : List Nat) : List Nat × List Nat × Nat :=
  let one (p : Nat × Nat) : Nat × Nat × Nat :=
    let y := addF p.1 p.2
    let q := roundVal fmt .rne (unpack .fp32 y.1)
    let back := fadd .fp32 .rne (fx y.1) (unpack fmt q.1).negate
    (q.1, back.1, y.2 ||| q.2 ||| back.2)
  let zs := (xs.zip rs).map one
  (zs.map (·.1), zs.map (·.2.1), zs.foldl (fun a z => a ||| z.2.2) 0)

/-- The address of the residual of element `i` of a handle. -/
def residAddr (x : Context) (h i : Nat) : Nat := (descBytes x 16 8 + h * descBytes x 24 4 + 4 * i) % 2 ^ 64

/-- The own contribution of elements `i` to `i + k - 1`, as it goes on the wire: bytes and flags. -/
def contribution (s : State) (n : Nat) (c : CmdWord) (i k : Nat) : State × Except Nat (List Byte × Nat) :=
  let x := getCtx s n
  match readElems s n c i k with
  | (s, .error e) => (s, .error e)
  | (s, .ok xs) =>
    let fmt := wireKind (sourceKind x) (wire x)
    if !withRes x then
      let (ys, fl) := castElems (sourceKind x) fmt xs
      (s, .ok (packElems fmt ys, fl))
    else match readVirt s x.vif (ctxDie n) (residAddr x (cmdHigh c) i) (4 * k) with
      | (s, .error e) => (s, .error e)
      | (s, .ok r) =>
        let (ys, rs, fl) := feedback fmt xs (unpackElems .fp32 r)
        match writeColl s x.vif (ctxDie n) (residAddr x (cmdHigh c) i) (packElems .fp32 rs) with
        | (s, .error e) => (s, .error e)
        | (s, .ok ()) => (s, .ok (packElems fmt ys, fl))

/-! ### The words (R337) -/

/-- A packet of the word that comes next waits for a context: a member is finishing that word (R428). -/
def wordWanted (s : State) (n : Nat) : Bool :=
  let x := getCtx s n
  match (readCmd s n (ctxWord x)).2 with
  | .error _ => false
  | .ok c => s.packets.any (fun p =>
      ofWord p && p.ctx == ctxNum n && p.hub == ctxDie n && p.out == 0 && !p.stack.any (fun e => natBits e.toNat 31 29 == 0)
        && (if p.kind = .send then cmdCode c == 2 && cmdHigh c == p.rank && p.index == smGet x.recvs 0 p.rank + 1
            else (p.kind == .rscat || p.kind == .agath) && (cmdCode c == 3 || cmdCode c == 4) && p.index == x.words + 1))

/-- A context whose word a member is finishing goes back to it during the drain. -/
def resumeWord (s : State) (n : Nat) : State :=
  let x := getCtx s n
  if ctxState x = 3 && (getIface s x.vif).sysop.isSome && wordWanted s n then
    modCtx s n (fun x => { setCtxState x 1 with freezing := true })
  else s

/-- The due word of a context, when its code is `code`: a word that has not begun waits while a freeze of its interface or of a member holds
the context, unless a member is finishing it. -/
def dueWord (s : State) (n code : Nat) : Option (State × CmdWord) :=
  let s := resumeWord s n
  let x := getCtx s n
  if !ctxRunning x then none
  else if (x.heldBy ≠ 0 || x.freezing) && !x.begun && !wordWanted s n then none
  else match readCmd s n (ctxWord x) with
    | (_, .error _) => none
    | (s, .ok c) => if cmdCode c = code then some (s, c) else none

/-- Run a due word: a word outside its limits faults the context with 0x306. A context with none that is being frozen tries its checkpoint
again. -/
def onWord (s : State) (n code : Nat) (f : State → CmdWord → State) : Out :=
  match dueWord s n code with
  | none => .next (ctxCheckpoint s n)
  | some (s, c) => if cmdOk (getCtx s n) c then .next (f s c) else .next (ctxFault s n 0x306)

/-- The word begins: it takes its number among the words that it is matched with. -/
def beginWord (s : State) (n : Nat) (c : CmdWord) : State :=
  modCtx s n (fun x =>
    if x.begun then x else
    let y := { x with begun := true, sent := [], got := [], took := [], acks := 0 }
    match cmdCode c with
    | 1 => { y with sends := smMod y.sends 0 (cmdHigh c) (· + 1) }
    | 2 => { y with recvs := smMod y.recvs 0 (cmdHigh c) (· + 1) }
    | 3 => { y with words := y.words + 1 }
    | 4 => { y with words := y.words + 1 }
    | 6 => if cmdBit c then { y with words := y.words + 1 } else y
    | _ => y)

/-- The header that a word's packets carry. -/
def wordPacket (x : Context) (n : Nat) (c : CmdWord) (kind : PktKind) (index : Nat) : Packet :=
  { kind := kind, index := index, total := c.w3, handle := cmdHigh c, rank := (rankOf x (ctxDie n)).getD 0 }

/-- Send each piece that is ready and not sent: its rank, chunk, first element, count and first element within its shard. -/
def sendPieces (s : State) (n : Nat) (c : CmdWord) (one : State → Nat × Nat × Nat × Nat × Nat → State) :
    List (Nat × Nat × Nat × Nat × Nat) → State
  | [] => s
  | p :: rest =>
    let x := getCtx s n
    if !ctxRunning x then s
    else if x.sent.contains (p.1, p.2.1) || !elemsReady x c p.2.2.1 p.2.2.2.1 then sendPieces s n c one rest
    else
      let s := one (modCtx s n (fun x => { x with sent := x.sent ++ [(p.1, p.2.1)] })) p
      sendPieces (modCtx s n (fun x => if ctxRunning x then eatDrain x c p.2.2.1 p.2.2.2.1 else x)) n c one rest

def sendOne (n : Nat) (c : CmdWord) (s : State) (p : Nat × Nat × Nat × Nat × Nat) : State :=
  let x := getCtx s n
  match readElems s n c p.2.2.1 p.2.2.2.1 with
  | (s, .error e) => ctxFault s n e
  | (s, .ok l) =>
    sendPacket s n (routeRank s x (ctxDie n) p.1 p.2.1 [entry 4 29 0 0])
      { wordPacket x n c .send (smGet x.sends 0 p.1) with
        chunk := p.2.1, addr := p.2.2.1 * elemBytes x, payload := packElems (sourceKind x) l }

def execSend (ctx : Nat) (s : State) : Out :=
  onWord s ctx 1 fun s c =>
    let s := beginWord s ctx c
    let x := getCtx s ctx
    if drainBreaks x c then ctxFault s ctx 0x306
    else sendPieces s ctx c (sendOne ctx c) ((chunksOf x c.w3).map (fun p => (cmdHigh c, p.1, p.2.1, p.2.2, p.2.1)))

def execRecv (ctx : Nat) (s : State) : Out := onWord s ctx 2 fun s c => beginWord s ctx c

/-- The member packages of this pod, lowest first, and the pods that hold members. -/
def herePkgs (x : Context) : List Nat := (((x.members.filter memHere).map (fun m => memDie m / 2)).eraseDups).mergeSort (· ≤ ·)
def podsOf (x : Context) : Nat := ((x.members.map memPod).eraseDups).length

/-- The contributions to a chunk of word `w` meet in pairs of packages (R69, R341). -/
def inPairs (x : Context) (n w c : Nat) : Bool := arrival x && !spansPods x && Config.pairsFirst (ctxNum n) w c

/-- A route from the hub where a package's values have met, before `tail`, whose entries act at die `dest`: with pairs by way of the hub of its
pair, on the die of the pair's first package that faces `dest`. -/
def meetRoute (s : State) (x : Context) (pairs : Bool) (meet dest c op : Nat) (tail : List Word) : Option (List Word) :=
  if !pairs then routeTo s meet dest c tail else
  let i := (herePkgs x).findIdx (· == meet / 2) / 2 * 2
  let first := (herePkgs x).getD i 0
  let hub := if first = dest / 2 then some dest else (liveRail s (c % 24) first (dest / 2)).map (railDie first)
  match hub with
  | none => none
  | some h => match routeTo s h dest c tail with
    | none => none
    | some t => routeTo s meet h c (entry op 29 0 (min 2 ((herePkgs x).length - i)) :: t)

/-- The route of a contribution to the shard of a die (R341), by its four phases. The members of one package meet first, at the hub of the
die that the next hop leaves from; their values go on to the unit of the shard's die, or of a shard in another pod to a hub of the lowest
member package of this pod, and from there over Ultra Ethernet. An entry's ARG is 0 with keys, and in arrival mode the number of values
that its unit expects: those of its own level, and one from every other pod at the shard (R346; log entries 13 and 41). -/
def contribRoute (s : State) (x : Context) (n src r c : Nat) : Option (List Word) :=
  let op := cfmt x + 1
  match x.members[r]? with
  | none => none
  | some m =>
    let want (k : Nat) : Nat := if arrival x then k else 0
    let pairs := inPairs x n x.words c
    let mates := ((x.members.filter memHere).filter (fun y => memDie y / 2 == src / 2)).length
    let pkgs := (herePkgs x).length
    let groups := if pairs then (pkgs + 1) / 2 else pkgs
    let dest := if memHere m then memDie m else railDie ((herePkgs x).headD 0) (c % 24)
    let tail := if memHere m then [entry op 29 0 (want (groups + podsOf x - 1)), entry 4 29 0 0]
      else [entry op 29 0 (want pkgs), entry 0 (25 + c % 4) (memDie m) 0, entry op 29 0 (want (podsOf x)), entry 4 29 0 0]
    match (if src / 2 = dest / 2 then some dest else (liveRail s (c % 24) (src / 2) (dest / 2)).map (railDie (src / 2))) with
    | none => none
    | some meet => (meetRoute s x pairs meet dest c op tail).map (fun t => dieHop src meet (entry op 29 0 (want mates) :: t))

def contribOne (n : Nat) (c : CmdWord) (s : State) (p : Nat × Nat × Nat × Nat × Nat) : State :=
  let x := getCtx s n
  let me := (x.members[(rankOf x (ctxDie n)).getD 0]?).getD 0
  match contribution s n c p.2.2.1 p.2.2.2.1 with
  | (s, .error e) => ctxFault s n e
  | (s, .ok (bytes, fl)) =>
    sendPacket (modCtx s n (fun x => ctxFlags x fl)) n (contribRoute s x n (ctxDie n) p.1 p.2.1)
      { wordPacket x n c .rscat x.words with
        chunk := p.2.1, addr := p.2.2.1 * elemBytes x, payload := bytes, fmt := wire x, keym := memKeyM me, keyj := memKeyJ me }

def execRscat (ctx : Nat) (s : State) : Out :=
  onWord s ctx 3 fun s c =>
    let s := beginWord s ctx c
    let x := getCtx s ctx
    if drainBreaks x c then ctxFault s ctx 0x306
    else sendPieces s ctx c (contribOne ctx c) ((List.range (nmem x)).flatMap (fun r =>
      (chunksOf x ((shard x c.w3 r).2 - (shard x c.w3 r).1)).map (fun p =>
        (r, chunkBase x c.w3 r + p.1, (shard x c.w3 r).1 + p.2.1, p.2.2, p.2.1))))

def gatherOne (n : Nat) (c : CmdWord) (s : State) (p : Nat × Nat × Nat × Nat × Nat) : State :=
  let x := getCtx s n
  match readElems s n c p.2.2.1 p.2.2.2.1 with
  | (s, .error e) => ctxFault s n e
  | (s, .ok l) =>
    sendPacket s n (routeRank s x (ctxDie n) p.1 p.2.1 [entry 4 29 0 0])
      { wordPacket x n c .agath x.words with
        chunk := p.2.1, addr := p.2.2.1 * elemBytes x, payload := packElems (sourceKind x) l }

def execAgath (ctx : Nat) (s : State) : Out :=
  onWord s ctx 4 fun s c =>
    let s := beginWord s ctx c
    let x := getCtx s ctx
    let r := (rankOf x (ctxDie ctx)).getD 0
    let (lo, hi) := shard x c.w3 r
    sendPieces s ctx c (gatherOne ctx c) (((List.range (nmem x)).filter (· != r)).flatMap (fun q =>
      (chunksOf x (hi - lo)).map (fun p => (q, chunkBase x c.w3 r + p.1, lo + p.2.1, p.2.2, p.2.1))))

/-- The ranks that stand for the member packages of other pods, one for each. -/
def farRanks (x : Context) : List Nat :=
  let pkg (r : Nat) : Nat := match x.members[r]? with | some m => natBits m.toNat 63 43 | none => 0
  (List.range x.members.length).filter (fun r => pkg r / 2 ^ 9 != Config.ownPod.toNat && !((List.range r).any (fun q => pkg q == pkg r)))

/-- The other member packages beyond the 128 of the multicast groups. -/
def extraPkgs (x : Context) (n : Nat) : List Nat := (pkgCtxs x n).drop 128

/-- One chunk of an `MCAST`: a packet to each group, and one to each package beyond them. -/
def mcastChunk (n : Nat) (c : CmdWord) (s : State) (k : Nat) : State :=
  let x := getCtx s n
  if !ctxRunning x then s else
  let a := (cmdAddr c + 4096 * k) % 2 ^ 64
  match readVirt s x.vif (ctxDie n) a (min 4096 (c.w3 - 4096 * k)) with
  | (s, .error e) => ctxFault s n e
  | (s, .ok l) =>
    let p := { wordPacket x n c .mcast 0 with chunk := k, addr := a, payload := l }
    let gs := (List.range 4).filter (fun i => !(smGet s.groups [] (64 * ctxDie n + 4 * ctxNum n + i)).isEmpty)
    let s := gs.foldl (fun s i => sendPacket s n (some [entry 3 29 0 (4 * ctxNum n + i), entry 4 29 0 0]) p) s
    let s := (extraPkgs x n).foldl (fun s m => sendPacket s n (routeTo s (ctxDie n) (ctxDie m) k [entry 4 29 0 0]) p) s
    (farRanks x).foldl (fun s r => sendPacket s n (routeRank s x (ctxDie n) r k [entry 4 29 0 0]) p) s

def execMcast (ctx : Nat) (s : State) : Out :=
  onWord s ctx 5 fun s c =>
    if (getCtx s ctx).begun then s
    else (List.range ((c.w3 + 4095) / 4096)).foldl (mcastChunk ctx c)
      (modCtx (beginWord s ctx c) ctx (fun x => { x with sent := if c.w3 = 0 then [] else [(0, 0)] }))

/-- The lines that the words of a context wrote on its package, whose two dies' contexts of one number run together (R231). -/
def wroteSig (s : State) (n : Nat) : Nat :=
  ((getCtx s (ctxOf (ctxDie n / 2 * 2) (ctxNum n))).wrote ||| (getCtx s (ctxOf (ctxDie n / 2 * 2 + 1) (ctxNum n))).wrote).toNat

/-- The release of a `SIGNAL` at a hub (R220, R231): the invalidations between the package's dies are taken, and the writes that wait in their
far-dirty queues reach their homes. -/
def signalRelease (s : State) (die : Nat) (wide : Bool) : State :=
  let s := drainInval (drainInval s (die / 2 * 2)) (die / 2 * 2 + 1)
  flushFar s (die / 2) (fun l => wide || !isPool l)

def execSignal (ctx : Nat) (s : State) : Out :=
  onWord s ctx 6 fun s c =>
    let x := getCtx s ctx
    if x.begun then s else
    match objAt s x.vif (ctxDie ctx) (cmdAddr c) with
    | .error e => ctxFault s ctx e
    | .ok o =>
      let s := modCtx (beginWord s ctx c) ctx (fun x => { x with sent := [(0, 0)] })
      let s := arrive (signalRelease s (ctxDie ctx) (spansPods x)) o c.w3 (wroteSig s ctx)
      if !cmdBit c then s else
      let p := { wordPacket (getCtx s ctx) ctx c .signal (getCtx s ctx).words with barrier := cmdAddr c, add := c.w3 }
      let s := (pkgCtxs x ctx).foldl (fun s m => sendPacket s ctx (routeTo s (ctxDie ctx) (ctxDie m) 0 [entry 5 29 0 0]) p) s
      (farRanks x).foldl (fun s r => sendPacket s ctx (routeRank s x (ctxDie ctx) r 0 [entry 5 29 0 0]) p) s

def execLoop (ctx : Nat) (s : State) : Out :=
  onWord s ctx 7 fun s c =>
    let x := getCtx s ctx
    let w := ctxWord x
    if (x.loop ≠ 0 && x.loopWord ≠ w) || w < c.w1 then ctxFault s ctx 0x306
    else
      let v := if x.loop = 0 then cmdHigh c - 1 else x.loop - 1
      ctxNext (modCtx s ctx (fun x => { x with loop := v, loopWord := w })) ctx (if v = 0 then w + 1 else w - c.w1)

def execHalt (ctx : Nat) (s : State) : Out := onWord s ctx 8 fun s _ => ctxIdle s ctx

/-- A word that cannot be read faults the context with the cause of its read; an illegal code with 0x300 (R113). -/
def execCollBadCommand (ctx : Nat) (s : State) : Out :=
  let x := getCtx s ctx
  if !ctxRunning x || x.begun || x.heldBy ≠ 0 then .next s else
  match readCmd s ctx (ctxWord x) with
  | (s, .error e) => .next (ctxFault s ctx e)
  | (s, .ok c) => if cmdCode c = 0 || cmdCode c ≥ 0x40 then .next (ctxFault s ctx 0x300) else .next s

def execCollReservedCommand (ctx : Nat) (s : State) : Out :=
  let x := getCtx s ctx
  if !ctxRunning x || x.begun || x.heldBy ≠ 0 then .next s else
  match readCmd s ctx (ctxWord x) with
  | (s, .error _) => .next s
  | (s, .ok c) => if 9 ≤ cmdCode c && cmdCode c < 0x40 then .next (ctxFault s ctx 0x301) else .next s

/-! ### Completion, time-out, abort and notices (R337, R340, R428, R437) -/

/-- The pieces that a word must send, and those it must receive. -/
def wordPieces (x : Context) (n : Nat) (c : CmdWord) : Nat × Nat :=
  let r := (rankOf x (ctxDie n)).getD 0
  let size (q : Nat) : Nat := (chunksOf x ((shard x c.w3 q).2 - (shard x c.w3 q).1)).length
  let all (l : List Nat) : Nat := l.foldl (fun a q => a + size q) 0
  match cmdCode c with
  | 1 => ((chunksOf x c.w3).length, 0)
  | 2 => (0, (chunksOf x c.w3).length)
  | 3 => (all (List.range (nmem x)), size r)
  | 4 => (size r * (nmem x - 1), all ((List.range (nmem x)).filter (· != r)))
  | _ => (0, 0)

/-- A begun word has reached its completion point. -/
def wordDone (x : Context) (n : Nat) (c : CmdWord) : Bool :=
  let (out, back) := wordPieces x n c
  x.begun && out ≤ x.sent.length && x.got.length == back && x.acks == 0

def execWordComplete (ctx : Nat) (s : State) : Out :=
  let x := getCtx s ctx
  if !ctxRunning x || !x.begun then .next s else
  match readCmd s ctx (ctxWord x) with
  | (s, .error e) => .next (ctxFault s ctx e)
  | (s, .ok c) => if wordDone x ctx c then .next (ctxNext s ctx (ctxWord x + 1)) else .next s

/-- A begun word awaits a contribution. -/
def awaiting (s : State) (n : Nat) : Bool :=
  let x := getCtx s n
  ctxRunning x && x.begun && (match readCmd s n (ctxWord x) with
    | (_, .ok c) => [2, 3, 4].contains (cmdCode c) && !wordDone x n c
    | (_, .error _) => false)

def execCollTimeout (ctx : Nat) (s : State) : Out := if awaiting s ctx then .next (ctxFault s ctx 0x305) else .next s

def execAbortPacket (ctx : Nat) (s : State) : Out :=
  let x := getCtx s ctx
  if !x.aborted then .next s
  else
    let s := modCtx s ctx (fun x => { x with aborted := false })
    if ctxRunning x then .next (ctxFault s ctx 0x307) else .next s

def execFreezeNotice (ctx : Nat) (s : State) : Out :=
  if (getCtx s ctx).freezeIn = 0 then .next s
  else .next (modCtx s ctx (fun x => { x with freezeIn := x.freezeIn - 1, heldBy := x.heldBy + 1 }))

def execThawNotice (ctx : Nat) (s : State) : Out :=
  match (getCtx s ctx).thawIn with
  | [] => .next s
  | (r, die) :: rest => .next (modCtx s ctx (fun x =>
      { x with
        thawIn := rest, heldBy := x.heldBy - 1
        members := x.members.zipIdx.map (fun m => if m.2 = r then BitVec.ofNat 64 (putField m.1.toNat 42 10 die) else m.1) }))

end Sys2Proof.Machine
end

