-- ==== Sys2Proof/Machine/Fabric.lean ====
section
/-! DEFINITION. The fabric: hubs and route stacks (R342 to R344), reduction units (R345, R346), multicast (R347), the UALink
data link (R349, R350) and bulk reservation (R351). -/

namespace Sys2Proof.Machine

/-! ### Packets at hubs (R343, R344) -/

def getPkt (s : State) (id : Nat) : Option Packet := s.packets.find? (fun p => p.id == id)
def setPkt (s : State) (q : Packet) : State := { s with packets := s.packets.map (fun p => if p.id == q.id then q else p) }
def delPkt (s : State) (id : Nat) : State := { s with packets := s.packets.filter (fun p => p.id != id) }
def addPkt (s : State) (q : Packet) : State := { s with packets := s.packets ++ [q] }

/-- The packet lies at a hub. -/
def atHub (p : Packet) : Bool := p.out == 0 && p.dropped == 0

/-- The packet is a route error where it lies. -/
def routeError (p : Packet) : Bool :=
  match p.stack with
  | [] => true
  | e :: _ => p.ver != 1 || entOp e ≥ 6 || entPort e ≥ 30 || p.dst != p.hub

def ctxSrc (p : Packet) : Nat := ctxOf p.src p.ctx
def ctxHub (p : Packet) : Nat := ctxOf p.hub p.ctx

/-- The sender counts a packet as performed or consumed. -/
def ackPkt (s : State) (p : Packet) : State :=
  if p.acked || p.kind = .agath || !ofWord p then s else modCtx s (ctxSrc p) (fun x => { x with acks := x.acks - 1 })

/-- LEN of a packet. -/
def pktLen (p : Packet) : Nat := if p.kind = .signal then p.add else p.payload.length

/-- A die as a header's field: [8:0] package, [9] die. -/
def dieField (d : Nat) : Nat := d / 2 % 512 + 512 * (d % 2)

/-- The header of a packet (R342): its fields by their first byte. -/
def headerBytes (p : Packet) : List Byte :=
  let depth := p.stack.length
  natBytes 80 ([(0, p.ver % 256), (1, depth % 16), (2, p.cls % 4 + (if p.drop then 4 else 0) + 8 * (p.fmt % 4)), (3, p.ctx % 16),
    (4, dieField p.src), (6, dieField p.dst), (8, pktLen p % 2 ^ 16), (10, p.keym % 256), (12, p.keyj % 2 ^ 16), (16, p.chunk % 2 ^ 32),
    (20, p.id % 2 ^ 32), (24, p.addr % 2 ^ 64), (32, p.barrier % 2 ^ 64)].foldl (fun a f => a + f.2 * 256 ^ f.1) 0
    + p.stack.zipIdx.foldl (fun a e => a + e.1.toNat * 256 ^ (48 + 4 * (8 - depth + e.2))) 0)

/-- A packet as it travels: header, payload, and the CRC-32C of both (R342). -/
def packetBytes (p : Packet) : List Byte :=
  let b := headerBytes p ++ p.payload
  b ++ natBytes 4 (crc32c b)

/-- Flits of a packet (R348). -/
def flitCount (p : Packet) : Nat := (80 + p.payload.length + 4 + 639) / 640

/-- A bulk packet (R351). -/
def bulk (p : Packet) : Bool := ofWord p && p.payload.length ≥ 4096

/-- The service order of the traffic classes (R348): control, response, reserved bulk, request, droppable bulk. DEDUCED (log entry 42): control
is served first, so what it carries waits at no port, and its steps stand for it. -/
def serviceRank (p : Packet) : Nat :=
  if p.cls = 3 then 0 else if p.cls = 1 then 1 else if p.drop then 4 else if bulk p then 2 else 3

/-- The lane of a remote access takes a deferred fault; a lane that has been performed has its operand again. -/
def badLane (s : State) (p : Packet) (cause : Nat) : State :=
  match getOp s p.index with
  | none => s
  | some o => setOp s { o with lanes := o.lanes.map (fun a =>
      if a.lane = p.rank then { a with stage := .bad cause, data := if isDone a then p.total else a.data } else a) }

/-- A packet is lost for good: its context faults, or the lane of its remote access (R340, R344, R350). -/
def failPkt (s : State) (p : Packet) (cause lane : Nat) : State :=
  if ofWord p then ctxFault (delPkt s p.id) (ctxSrc p) cause else badLane (delPkt s p.id) p lane

/-- Send a packet on a directed link; none while the retry buffer lacks room for it. -/
def onLink (s : State) (l : Nat) (p : Packet) : Option State :=
  let t := getPort s l
  if t.retry.length + flitCount p > 512 then none else
  let fs := (List.range (flitCount p)).map (fun i => (⟨(t.sendSeq + i) % 4096, p.id, i + 1 == flitCount p⟩ : Flit))
  some (setPkt (modPort s l (fun t =>
    { t with sendSeq := (t.sendSeq + fs.length) % 4096, retry := t.retry ++ fs, wire := t.wire ++ fs })) { p with out := l + 1 })

/-- A packet that no rail can carry (R350). -/
def noRail (s : State) (p : Packet) : State := failPkt s p 0x30A 0x30A

/-- The link that the top entry of a packet at a hub asks for. -/
def wantedLink (s : State) (p : Packet) : Option Nat :=
  match p.stack with
  | [] => none
  | e :: _ => if !atHub p || routeError p || entOp e != 0 || entPort e ≥ 24 then none
      else (liveRail s (entPort e) (p.hub / 2) (entDie e / 2)).map (linkOut (p.hub / 2))

/-- A packet of a class that is served earlier waits for the same link. -/
def outranked (s : State) (p : Packet) (l : Nat) : Bool :=
  s.packets.any (fun q => serviceRank q < serviceRank p && wantedLink s q == some l)

/-! ### Words at the receiving context (R337) -/

/-- What a receiving context says of a packet. -/
inductive Match where
  /-- the word that it belongs to is not running there -/
  | wait
  /-- the words disagree -/
  | bad
  /-- the word, by its command -/
  | word (c : CmdWord)

/-- An older packet of the same place in its word is still on its way. -/
def olderTwin (s : State) (p : Packet) : Bool :=
  s.packets.any (fun q => q.id < p.id && q.kind = p.kind && q.ctx == p.ctx && q.src == p.src && q.index == p.index
    && q.addr == p.addr && q.orig.getLast? == p.orig.getLast? && q.hub == p.hub)

/-- Something from the packet's sender has been taken for the running word. -/
def takenFrom (x : Context) (p : Packet) : Bool := x.got.any (fun g => g.1 == p.rank) || x.took.any (fun g => g.1 == p.rank)

/-- Match a packet with the word that its receiving context runs. -/
def matchWord (s : State) (p : Packet) : Match :=
  let x := getCtx s (ctxHub p)
  if !ctxRunning x || !x.begun || olderTwin s p then .wait else
  match readCmd s (ctxHub p) (ctxWord x) with
  | (_, .error _) => .wait
  | (_, .ok c) =>
    match p.kind with
    | .send =>
      if cmdCode c != 2 || cmdHigh c != p.rank || smGet x.recvs 0 p.rank != p.index || x.got.contains (p.rank, p.chunk) then .wait
      else if c.w3 != p.total then .bad else .word c
    | _ =>
      let code := if p.kind = .rscat then 3 else 4
      if x.words != p.index || !([3, 4, 6].contains (cmdCode c)) then .wait
      else if cmdCode c != code || c.w3 != p.total || cmdHigh c != p.handle then (if takenFrom x p then .wait else .bad)
      else if p.kind = .agath && x.got.contains (p.rank, p.chunk) then .wait else .word c

/-! ### Reduction units: what a unit can take (R345, R346) -/

/-- A packet whose next unit, if any, is not behind this one: its route ends here. -/
def atShard (p : Packet) : Bool := !(p.stack.any (fun e => entOp e == 0 || entOp e == 1 || entOp e == 2))

/-- The context that owns the shard of a contribution: that of the die where its route ends; none of this pod when that is another pod's. -/
def ownerCtx (p : Packet) : Option Nat :=
  if p.stack.any (fun e => entOp e == 0 && entPort e ≥ 25) then none
  else some (ctxOf (match (p.stack.filter (fun e => entOp e == 0)).getLast? with | some e => entDie e | none => p.hub) p.ctx)

/-- The flags of a combination go to the context that owns the shard (R345). -/
def flagOwner (s : State) (p : Packet) (fl : Nat) : State :=
  match ownerCtx p with
  | some n => modCtx s n (fun x => ctxFlags x fl)
  | none => s

def sameNode (h : Held) (p : Packet) : Bool :=
  h.die == p.hub && h.pkt.ctx == p.ctx && h.pkt.index == p.index && h.pkt.addr == p.addr && h.pkt.stack.length == p.stack.length

/-- The unit can take a value: its context's share of the combine buffer has room beside the slot kept for the lowest chunk
still awaited, or the value is of that chunk (R345): at the shard's own hub the lowest of the shard not written yet, at a hub on
the way none held there is lower. -/
def shareRoom (s : State) (p : Packet) : Bool :=
  let mine := s.held.filter (fun h => h.die == p.hub && h.pkt.ctx == p.ctx)
  let used := mine.foldl (fun a h => a + h.pkt.payload.length) 0
  let x := getCtx s (ctxHub p)
  let lowest := if atShard p then
      (List.range p.chunk).all (fun c => c < chunkBase x p.total ((rankOf x p.hub).getD 0) || x.got.contains (0, c))
    else mine.all (fun h => p.chunk ≤ h.pkt.chunk)
  used + p.payload.length ≤ 131072 - 4096 || lowest

/-- A contribution waits for the word that owns its shard. -/
def wordDue (s : State) (p : Packet) : Bool := match matchWord s p with | .wait => false | _ => true

/-- A unit can take a contribution, its entry popped. -/
def reducible (s : State) (p : Packet) : Bool := shareRoom s p && (ownerCtx p != some (ctxHub p) || wordDue s p)

/-- Arrival mode (R346): another value of the same chunk, which came in by a lower port, goes first where both wait. -/
def earlierPort (s : State) (p : Packet) (e : Word) : Bool :=
  entArg e ≠ 0 && s.packets.any (fun q => q.id != p.id && atHub q && q.hub == p.hub && q.ingress < p.ingress && (match q.stack with
    | e' :: rest => entOp e' == entOp e && sameNode ⟨p.hub, 0, { q with stack := rest }⟩ p && reducible s { q with stack := rest }
    | [] => false))

/-! ### The bulk ingress buffer (R330, R351) -/

/-- A bulk packet in a hub's ingress buffer. -/
def inBulk (die : Nat) (p : Packet) : Bool := atHub p && bulk p && p.hub == die && p.ingress != 29

def bulkBytes (s : State) (die : Nat) : Nat := (s.packets.filter (inBulk die)).foldl (fun a p => a + p.payload.length) 0

/-- A packet comes in at a hub by a port: dropped when it is droppable and the buffer is more than three quarters full; a packet of the
reserved class finds room in the 1 MiB, or waits on its link. -/
def enterHub (s : State) (p : Packet) (die port : Nat) : Option State :=
  if p.drop && bulkBytes s die > 786432 then some (setPkt (bump s 7 die 1) { p with out := 0, hub := die, dropped := 1 })
  else if bulk p && bulkBytes s die + p.payload.length > 1048576 then none
  else some (setPkt { s with nextId := s.nextId + 1 } { p with out := 0, hub := die, ingress := port, arr := s.nextId })

/-- A packet at a hub whose entry can be acted on now. -/
def canAct (s : State) (p : Packet) : Bool :=
  match p.stack with
  | [] => false
  | e :: rest =>
    let q := { p with stack := rest }
    if routeError p then true
    else if entOp e = 4 then p.kind == .mcast || p.kind == .signal || wordDue s q
    else if entOp e = 1 || entOp e = 2 then reducible s q && !earlierPort s q e
    else true

/-- The buffer drains in arrival order (R330): no older packet of it that can be acted on is still there. -/
def bulkTurn (s : State) (p : Packet) : Bool :=
  !inBulk p.hub p || !(s.packets.any (fun q => inBulk p.hub q && q.arr < p.arr && canAct s q))

/-- Act on a packet whose top entry has an operation code, in its turn: the action gets the packet with that entry popped. -/
def onTop (s : State) (id op : Nat) (f : Packet → Word → State) : Out :=
  match getPkt s id with
  | none => .next s
  | some p => match p.stack with
    | [] => .next s
    | e :: rest =>
      if !atHub p || routeError p || entOp e != op || !bulkTurn s p then .next s else .next (f { p with stack := rest } e)

/-! ### Sending on, and lost packets (R343, R344) -/

/-- The Ethernet ports of a package in turn from `k`, and the first of them that carries traffic (R13, R446). -/
def ethFrom (s : State) (p k : Nat) : Option Nat := ((List.range 8).map (fun i => (k + i) % 8)).find? (fun i => !linkIdle s (ethLink p i))

/-- A request leaves by Ultra Ethernet port `4 * die + span mod 4`, where that one works, and has the congestion entry of a hash of its
destination (R358; log entry 15). -/
def netPort (s : State) (die span : Nat) : Nat := 8 * (die / 2) + (ethFrom s (die / 2) (4 * (die % 2) + span % 4)).getD (4 * (die % 2) + span % 4)
def netSlot (port pod pkg : Nat) : Nat := 1024 * port + (512 * pod + pkg) % 1024

/-- A chunk for another pod enters the request table of its die (R341, R358), and its packet waits at the port. -/
def sendFar (s : State) (p : Packet) (port : Nat) : State :=
  let pod := match (getCtx s (ctxSrc p)).members.find? (fun m => !memHere m && memDie m == p.dst) with | some m => memPod m | none => 0
  setPkt { s with
    nextId := s.nextId + 1
    netReqs := s.netReqs ++ [{ id := s.nextId, coll := ctxSrc p + 1, pkt := p.id, pod := pod, target := p.dst / 2
                               entry := netSlot (netPort s p.hub port) pod (p.dst / 2), bytes := p.payload.length }] } { p with out := 2 ^ 20 + port }

def execFwd (pkt : Nat) (s : State) : Out :=
  onTop s pkt 0 fun p e =>
    let die := entDie e
    let q := { p with dst := die }
    if entPort e = 29 then setPkt s q
    else if entPort e = 24 then (enterHub s q die 24).getD s
    else if entPort e ≥ 25 then sendFar s q (entPort e - 25)
    else match liveRail s (entPort e) (p.hub / 2) (die / 2) with
      | none => noRail s p
      | some r => if outranked s p (linkOut (p.hub / 2) r) then s else (onLink s (linkOut (p.hub / 2) r) q).getD s

/-- A dropped route-error packet's notice reaches its sender. -/
def execRouteErrorNotice (pkt : Nat) (s : State) : Out :=
  match getPkt s pkt with
  | none => .next s
  | some p => if atHub p && routeError p then .next (failPkt s p 0x308 0x109) else .next s

/-- The end-to-end tag of a packet fails at its final hub: it is sent again once, then its context
faults, or the lane of its remote access with 0x109 (R344). -/
def execResendRequest (pkt : Nat) (s : State) : Out :=
  match getPkt s pkt with
  | none => .next s
  | some p =>
    if !atHub p || p.ingress == 29 || p.stack.any (fun e => entOp e == 0) then .next s
    else if p.resent then .next (failPkt s p 0x309 0x109)
    else .next (setPkt s { p with resent := true, stack := p.orig, hub := p.origHub, dst := p.origHub, ingress := 29 })

/-! ### Delivery (R343) -/

/-- A packet's entry is done: the next one is due, or the packet is consumed. -/
def popDone (s : State) (p : Packet) : State := if p.stack.isEmpty then delPkt s p.id else setPkt s p

/-- The context of a die has written bytes for a word: their lines enter its signature (R231). -/
def noteWritten (s : State) (n vif die va len : Nat) : State :=
  let sig := spanSig s vif die (va % 2 ^ 64) len false
  modCtx s n (fun x => { x with wrote := x.wrote ||| BitVec.ofNat 256 sig })

/-- The poisoned granules of a payload whose elements go from `a` bytes to `b`. -/
def scalePoison (a b : Nat) (l : List Nat) : List Nat :=
  (if a ≤ b then l.flatMap (fun g => (List.range (b / a)).map (fun i => g * (b / a) + i)) else l.map (fun g => g * b / a)).eraseDups

/-- A payload written as a collective engine writes, performed at device scope, its poison with it (R209, R253, R343). -/
def deliverBytes (s : State) (p : Packet) (vif va : Nat) (l : List Byte) (bad : List Nat) : State × Except Nat Unit :=
  match writeColl s vif p.hub va l with
  | (s, .error e) => (s, .error e)
  | (s, .ok ()) =>
    let s := performAt s p.hub 5
    let s := bad.foldl (fun s g => (List.range (min 32 (l.length - 32 * g))).foldl (fun s i =>
      let a := (va + 32 * g + i) % 2 ^ 64
      match (translate s vif p.hub a 1 (bufEntry s vif a).isSome).2 with | .ok t => setPoison s t.pa true | .error _ => s) s) s
    (noteWritten s (ctxHub p) vif p.hub va l.length, .ok ())

/-- Write a payload for a receiving context's word. -/
def deliverWord (s : State) (p : Packet) (c : CmdWord) : State :=
  let n := ctxHub p
  let x := getCtx s n
  let k := wireKind (cfmtKind (cfmt x)) p.fmt
  let sums := p.kind = .rscat
  let bytes := if sums then packElems (sourceKind x) (castElems k (sourceKind x) (unpackElems k p.payload)).1 else p.payload
  match deliverBytes s p x.vif ((cmdAddr c + p.addr) % 2 ^ 64) bytes (if sums then scalePoison k.width (sourceKind x).width p.poison else p.poison) with
  | (s, .error e) => ctxFault (delPkt s p.id) n e
  | (s, .ok ()) => popDone (modCtx (ackPkt s p) n (fun x => { x with got := x.got ++ [(if sums then 0 else p.rank, p.chunk)] })) p

def execDeliver (pkt : Nat) (s : State) : Out :=
  onTop s pkt 4 fun p _ =>
    if !ofWord p then s else
    if p.kind = .mcast || p.kind = .signal then
      match ctxIface s (ctxHub p) with
      | none => ctxFault (delPkt s p.id) (ctxSrc p) 0x102
      | some v => match deliverBytes s p v p.addr p.payload p.poison with
        | (s, .error e) => ctxFault (delPkt s p.id) (ctxSrc p) e
        | (s, .ok ()) => popDone (ackPkt s p) p
    else match matchWord s p with
      | .wait => s
      | .bad => ctxFault s (ctxHub p) 0x306
      | .word c => deliverWord s p c

def execRouteSignal (pkt : Nat) (s : State) : Out :=
  onTop s pkt 5 fun p _ =>
    match ctxIface s (ctxHub p) with
    | none => ctxFault (delPkt s p.id) (ctxSrc p) 0x102
    | some v => match objAt s v p.hub p.barrier with
      | .error e => ctxFault (delPkt s p.id) (ctxSrc p) e
      | .ok o =>
        let s := signalRelease s p.hub (spansPods (getCtx s (ctxSrc p)))
        popDone (ackPkt (arrive s o (pktLen p) (wroteSig s (ctxHub p))) p) p

/-! ### Multicast (R347) -/

/-- The rail of a copy: that of its chunk, counted from the target's PORT (R341; log entry 41). -/
def copyRail (p : Packet) (t : Word) : Nat := (entPort t + p.chunk) % 24

/-- The route of a copy to a target: by the die of its rail at both ends, then the rest of the stack. -/
def copyRoute (p : Packet) (t : Word) : List Word :=
  let r := copyRail p t
  dieHop p.hub (railDie (p.hub / 2) r) (entry 0 r (railDie (entDie t / 2) r) 0 :: dieHop (railDie (entDie t / 2) r) (entDie t) p.stack)

def execRouteMcast (pkt : Nat) (s : State) : Out :=
  onTop s pkt 3 fun p e =>
    let ts := smGet s.groups [] (64 * p.hub + entArg e % 64)
    if ts.any (fun t => !railUp s (copyRail p t) (p.hub / 2) (entDie t / 2)) then ctxFault (delPkt s p.id) (ctxSrc p) 0x30A
    else
      let s := ackPkt (delPkt s p.id) p
      ts.foldl (fun s t =>
        let st := copyRoute p t
        let s := addPkt { s with nextId := s.nextId + 1 } { p with id := s.nextId, stack := st, orig := st, origHub := p.hub, ingress := 29 }
        if p.acked || p.kind = .agath then s else modCtx s (ctxSrc p) (fun x => { x with acks := x.acks + 1 })) s

/-! ### Reduction units (R345, R346) -/

/-- Combine two payloads, the left operand first: bytes and flags. -/
def addPayload (k : FKind) (a b : List Byte) : List Byte × Nat :=
  let ys := ((unpackElems k a).zip (unpackElems k b)).map (fun p => fadd k .rne (unpack k p.1) (unpack k p.2))
  (packElems k (ys.map (·.1)), orFlags ys)

/-- A narrow payload widens in the first unit that it reaches (R339). -/
def widen (k : FKind) (p : Packet) : Packet × Nat :=
  let src := wireKind k p.fmt
  let (ys, fl) := castElems src k (unpackElems src p.payload)
  ({ p with payload := packElems k ys, fmt := 0, poison := scalePoison src.width k.width p.poison }, fl)

def dropHeld (s : State) (p : Packet) : State := { s with held := s.held.filter (fun h => h.pkt.id != p.id) }
def hold (s : State) (p : Packet) (count : Nat) : State := { delPkt s p.id with held := s.held ++ [⟨p.hub, count, p⟩] }

/-- A unit's result goes on with the rest of its stack. -/
def emit (s : State) (p : Packet) : State :=
  addPkt (delPkt (dropHeld s p) p.id) { p with orig := p.stack, origHub := p.hub, ingress := 29, resent := false }

/-- A value climbs the key tree at a hub (R345, R67): with its sibling held it becomes their node; with the sibling absent it
passes through; else it is held, but at a hub on its way only for a sibling of the same package, or where a pod's values meet before
they leave it, for one of the pod. At the root it goes on. -/
def climb (k : FKind) (s : State) (p : Packet) : Nat → State
  | 0 => s
  | fuel + 1 =>
    let x := getCtx s (ctxHub p)
    if keyM x ≤ p.keym then emit s p else
    let j' := p.keyj ^^^ 1
    match s.held.find? (fun h => sameNode h p && h.pkt.keym == p.keym && h.pkt.keyj == j') with
    | some h =>
      let (a, b) := if p.keyj % 2 = 0 then (p, h.pkt) else (h.pkt, p)
      let (y, fl) := addPayload k a.payload b.payload
      let s := dropHeld (delPkt (ackPkt (ackPkt s a) b) p.id) h.pkt
      climb k (flagOwner s p fl)
        { a with payload := y, poison := (a.poison ++ b.poison).eraseDups, keym := a.keym + 1, keyj := a.keyj / 2, acked := true } fuel
    | none =>
      let kin := x.members.filter (fun m => rangesMeet (keyRange p.keym j') (keyRange (memKeyM m) (memKeyJ m)))
      if !kin.isEmpty then
        let leavesPod := match p.stack with | e :: _ => entOp e == 0 && entPort e ≥ 25 | [] => false
        (if atShard p || kin.all (fun m => memHere m && (leavesPod || memDie m / 2 == p.hub / 2)) then hold s p 1 else emit s p)
      else climb k s { p with keym := p.keym + 1, keyj := p.keyj / 2 } fuel

/-- Arrival mode: each value joins the one held, until `want` have (R346). -/
def joinArrival (k : FKind) (s : State) (p : Packet) (want : Nat) : State :=
  match s.held.find? (fun h => sameNode h p) with
  | none => if want ≤ 1 then emit s p else hold s p 1
  | some h =>
    let (y, fl) := addPayload k h.pkt.payload p.payload
    let s := flagOwner (ackPkt (ackPkt s h.pkt) p) p fl
    let q := { h.pkt with payload := y, poison := (h.pkt.poison ++ p.poison).eraseDups, acked := true }
    let s := dropHeld (delPkt s p.id) h.pkt
    if h.count + 1 ≥ want then emit s q else { s with held := s.held ++ [⟨h.die, h.count + 1, q⟩] }

/-- A contribution reaches a reduction unit. -/
def reduceAt (k : FKind) (s : State) (p : Packet) (e : Word) : State :=
  let last := p.stack.length + 1
  let from' := if entArg e ≠ 0 && atShard p then p.src / 2 else p.src
  let tag := (p.rank, 1024 * last + from', p.addr)
  let x := getCtx s (ctxHub p)
  let run (s : State) : State :=
    let s := if ownerCtx p = some (ctxHub p) then modCtx s (ctxHub p) (fun x => { x with took := x.took ++ [tag] }) else s
    let (q, fl) := widen k p
    let s := flagOwner (setPkt s q) p fl
    if entArg e = 0 then climb k s q 33 else joinArrival k s q (entArg e)
  if !shareRoom s p || earlierPort s p e then s
  else if ownerCtx p ≠ some (ctxHub p) then run s
  else match matchWord s p with
    | .wait => s
    | .bad => ctxFault s (ctxHub p) 0x306
    | .word _ => if x.took.any (fun t => t.2 == tag.2) then s else run s

def execAddF32 (pkt : Nat) (s : State) : Out := onTop s pkt 1 fun p e => reduceAt .fp32 s p e
def execAddBf16 (pkt : Nat) (s : State) : Out := onTop s pkt 2 fun p e => reduceAt .bf16 s p e

/-! ### The data link (R349) -/

def linkUp (s : State) (l : Nat) : Bool := (getPort s (l - l % 2)).up && !(getPort s (l - l % 2)).training
def linkPkg (l : Nat) : Nat := l / 48
def linkRail (l : Nat) : Nat := l / 2 % 24

/-- A whole packet has come over a link: at the switch it goes on to the link into its package, at the package it enters the hub of its die, or
waits on the link for room there. -/
def arriveAt (s : State) (l : Nat) (p : Packet) : Option State :=
  if l % 2 = 0 then some (setPkt s { p with out := linkIn (p.dst / 2) (linkRail l) + 1, ingress := 31 }) else enterHub s p p.dst (linkRail l)

/-- Packets that wait at a switch, in the order of their classes, enter the link into their package as its retry buffer has room. -/
def switchOut (s : State) (l : Nat) : State :=
  ((s.packets.filter (fun p => p.out == l + 1 && p.ingress == 31)).mergeSort (fun a b => serviceRank a ≤ serviceRank b)).foldl
    (fun s p => (onLink s l { p with ingress := 30 }).getD s) s

def lastGood (t : Port) : Nat := (t.recvSeq + 4095) % 4096

/-- A flit reaches the end of a link. -/
def execFlitReceive (port : Nat) (crcGood : Bool) (s : State) : Out :=
  let t := getPort s port
  match t.wire with
  | [] => .next s
  | f :: rest =>
    if !linkUp s port then .next s
    else if !crcGood || f.seq ≠ t.recvSeq then
      .next (modPort s port (fun t => { t with
        wire := rest, nakSent := true, nakIn := if t.nakSent then t.nakIn else some (lastGood t) }))
    else
      let taken := modPort s port (fun t =>
        { t with
          wire := rest, recvSeq := (t.recvSeq + 1) % 4096, nakSent := false
          unacked := if t.unacked + 1 ≥ 16 then 0 else t.unacked + 1
          ackIn := if t.unacked + 1 ≥ 16 then some f.seq else t.ackIn })
      match (if f.last then getPkt s f.pkt else none) with
      | some p => if p.out = port + 1 then
          (match arriveAt taken port p with
          | some u => .next (if port % 2 = 0 then switchOut u (linkIn (p.dst / 2) (linkRail port)) else u)
          | none => .next s)
        else .next taken
      | none => .next taken

/-- Free the flits up to a sequence; progress clears the count of replays. -/
def freeTo (t : Port) (n : Nat) : Port :=
  match t.retry.findIdx? (fun f => f.seq == n) with
  | some i => { t with retry := t.retry.drop (i + 1), replays := 0 }
  | none => t

/-- Send every held flit again, in order, from the oldest. -/
def replay (t : Port) : Port := if t.retry.isEmpty then t else { t with wire := t.wire ++ t.retry, replays := t.replays + 1 }

def execAck (port : Nat) (s : State) : Out :=
  match (getPort s port).ackIn with
  | none => .next s
  | some n => .next (switchOut (modPort s port (fun t => { freeTo t n with ackIn := none })) port)

def execNak (port : Nat) (s : State) : Out :=
  match (getPort s port).nakIn with
  | none => .next s
  | some n => .next (switchOut (modPort s port (fun t => { replay (freeTo t n) with nakIn := none })) port)

def execAckTimer (port : Nat) (s : State) : Out :=
  let t := getPort s port
  if t.unacked = 0 then .next s
  else .next (modPort s port (fun t => { t with unacked := 0, ackIn := some (lastGood t) }))

def execNakRepeatTimer (port : Nat) (s : State) : Out :=
  if (getPort s port).nakSent then .next (modPort s port (fun t => { t with nakIn := some (lastGood t) })) else .next s

def execReplayTimer (port : Nat) (s : State) : Out := .next (modPort s port replay)

/-! ### A port goes down (R350) -/

/-- Take a port down: what it carries is lost, and its links start afresh. -/
def takeDown (s : State) (pkg rail : Nat) : State :=
  let ls := [linkOut pkg rail, linkIn pkg rail]
  let hit := s.packets.filter (fun p => ls.any (fun l => p.out == l + 1))
  let s := ls.foldl (fun s l => { s with ports := smSet s.ports {} l { up := l % 2 == 1 } }) s
  let s := { s with packets := s.packets.filter (fun p => !(ls.any (fun l => p.out == l + 1))) }
  let s := (hit.filter (fun p => !ofWord p)).foldl (fun s p => badLane s p 0x30A) s
  (((hit.filter ofWord).map ctxSrc).eraseDups).foldl (fun s n => ctxFault s n 0x30A) s

/-- Eight replays of one oldest flit without progress take the port down. -/
def execPortDown (port : Nat) (s : State) : Out :=
  if !linkUp s port || (getPort s port).replays < 8 then .next s
  else
    let s := takeDown s (linkPkg port) (linkRail port)
    .next (logError s (linkPkg port) none
      { die := 2 * linkPkg port + linkRail port / 12, kind := .port, index := linkRail port, cls := .linkDown, addr := linkRail port })

/-! ### Bulk reservation (R351) -/

def findBulk (s : State) (src dst : Nat) : Option Nat := s.bulks.findIdx? (fun b => b.src == src && b.dst == dst)

def modBulk (s : State) (i : Nat) (f : Bulk → Bulk) : State := { s with bulks := s.bulks.zipIdx.map (fun b => if b.2 = i then f b.1 else b.1) }

/-- A drop notice reaches the sender, which gathers. -/
def execDropNotice (pkt : Nat) (s : State) : Out :=
  match getPkt s pkt with
  | none => .next s
  | some p =>
    if p.dropped ≠ 1 then .next s
    else
      let s := setPkt s { p with dropped := 2, hub := p.origHub }
      match findBulk s p.origHub p.dst with
      | some i => .next (modBulk s i (fun b => { b with gathering := true }))
      | none => .next { s with bulks := s.bulks ++ [{ src := p.origHub, dst := p.dst, gathering := true }] }

/-- The hub to which a packet's route leads next over a rail, or, of one that no rail takes, the first that it leads to. -/
def railTarget (p : Packet) : Option Nat :=
  match p.stack.find? (fun e => entOp e == 0 && entPort e < 24) with
  | some e => some (entDie e)
  | none => (p.stack.find? (fun e => entOp e == 0)).map entDie

/-- Bulk packets of a sender that wait to go to a target: those dropped, and the droppable ones that have not left its package. -/
def pendingBulk (s : State) (b : Bulk) : List Packet :=
  s.packets.filter (fun p => p.origHub == b.src && ((p.dropped ≥ 2 && p.dst == b.dst)
    || (p.drop && atHub p && p.hub / 2 == b.src / 2 && railTarget p == some b.dst)))

def pendingBytes (s : State) (b : Bulk) : Nat := (pendingBulk s b).foldl (fun a p => a + p.payload.length) 0

def execDropGatherTimer (i : Nat) (s : State) : Out :=
  match s.bulks[i]? with
  | none => .next s
  | some b =>
    if !b.gathering || b.requested then .next s
    else .next (modBulk s i (fun b => { b with gathering := false, requested := true, bytes := pendingBytes s b }))

/-- Whole microseconds that bytes take at 100 GB/s. -/
def windowOf (bytes : Nat) : Nat := (bytes + 99999) / 100000

/-- The grant for a request: START and WINDOW in slots, and QUOTA. The first slot is the first that begins at least 2 µs ahead. -/
def grantFor (s : State) (pkg bytes : Nat) : Nat × Nat × Nat :=
  let now := (s.podTime + 999) / 1000
  let quota := min bytes 4194304
  let win := windowOf quota
  let busy (t : Nat) : Bool := s.calendar.contains (pkg, t)
  match ((List.range 998).map (fun k => now + 2 + k)).find? (fun t =>
      (List.range win).all (fun k => !busy (t + k)) && t + win ≤ now + 1000) with
  | some t => (t, win, quota)
  | none => (now + 1000, 0, 0)

/-- The target answers a request from its calendar; `slot` is the START of the answer in whole microseconds of pod time. -/
def execReservationRequest (i slot : Nat) (s : State) : Out :=
  match s.bulks[i]? with
  | none => .next s
  | some b =>
    let (t, win, quota) := grantFor s (b.dst / 2) b.bytes
    if !b.requested || b.granted || slot ≠ t then .next s
    else
      let s := { s with calendar := s.calendar.filter (fun c => s.podTime / 1000 ≤ c.2) ++ (List.range win).map (fun k => (b.dst / 2, t + k)) }
      .next (modBulk s i (fun b => { b with granted := true, start := t, window := win, quota := quota }))

def execReservationGrant (i : Nat) (s : State) : Out :=
  match s.bulks[i]? with
  | none => .next s
  | some b => if b.granted && !b.scheduled then .next (modBulk s i (fun b => { b with scheduled := true })) else .next s

/-- Send bulk packets of a sender, the dropped ones again: within the quota in the reserved class, beyond it speculatively. -/
def sendReserved (s : State) (quota : Nat) : List Packet → State
  | [] => s
  | p :: rest =>
    let n := p.payload.length
    let q := if p.dropped = 0 then p else { p with dropped := 0, hub := p.origHub, dst := p.origHub, ingress := 29, stack := p.orig }
    sendReserved (setPkt s { q with drop := quota < n }) (quota - n) rest

/-- START comes: with no quota the sender asks again. -/
def execReservedWindowStart (i : Nat) (s : State) : Out :=
  match s.bulks[i]? with
  | none => .next s
  | some b =>
    if !b.scheduled then .next s
    else if b.quota = 0 then .next (modBulk s i (fun b =>
      { b with granted := false, scheduled := false, requested := true, bytes := pendingBytes s b }))
    else
      let s := sendReserved s b.quota (pendingBulk s b)
      .next { s with bulks := s.bulks.zipIdx.filterMap (fun c => if c.2 = i then none else some c.1) }

end Sys2Proof.Machine
end

