-- ==== Sys2Proof/Machine/MemEvents.lean ====
section
/-! DEFINITION. The machine's own steps about memory: operations that return and perform (R247 to R252), walks (R195), active
messages (R200 to R202), remote accesses (R192), deferred faults (R243), the dies' coherence (R203 to R207), waits (R261,
R262), errors (R253, R448) and barriers (R391). A step that is not due leaves the state as it is (log entry 8). -/

namespace Sys2Proof.Machine

/-! ### Operations -/

/-- A step about an operation in flight. -/
def onOp (s : State) (id : Nat) (due : Op → Bool) (f : Op → State) : Out :=
  match getOp s id with
  | some o => .next (if due o then f o else s)
  | none => .next s

/-- A line is in a cache that an access of a core passes on its way. -/
def lineHere (s : State) (core l : Nat) : Bool :=
  (getLine s 0 core l).valid || (getLine s 1 (coreCluster core) l).valid || (getLine s 2 (2 * corePkg core) l).valid
    || (getLine s 2 (2 * corePkg core + 1) l).valid

/-- A point in another package than a core's; the memory of a line of another package is there too. -/
def farPoint (core : Nat) (p : Point) : Bool := match p with | .l2 die => die / 2 != corePkg core | .mem => true | _ => false

/-- A translated lane of `.g` that a remote access performs (R342): its line is of another package, and no cache on its way serves it. -/
def fabricLane (s : State) (o : Op) (a : LaneAcc) : Bool :=
  match a.stage with
  | .ready pa mode _ _ =>
    let core := waveCore o.w
    o.space == 0 && homePkg pa != corePkg core && [.load, .acq, .store, .rel, .atom, .red].contains o.kind
      && (farPoint core (if opWrites o.kind then writePoint o.w o.space o.scope (opPolicy o) mode pa (o.kind == .atom || o.kind == .red)
            else readPoint core o.scope pa false) || !lineHere s core (lineOf pa))
  | _ => false

/-- A lane that another package performs (R192, R342), not performed yet. -/
def awayLane (s : State) (o : Op) (a : LaneAcc) : Bool :=
  (isAway s o.w o.space a.addr || fabricLane s o a) && !isDone a && !isBad a

/-- A lane whose CXL port carries nothing: no response comes (R364, R446). -/
def deadLane (s : State) (o : Op) (a : LaneAcc) : Bool := o.space != 1 && (match stagePa a with | some pa => cxlDead s pa | none => false)

/-- Every lane of an operation that writes is translated; a load's lanes go one by one. -/
def allTranslated (o : Op) : Bool := !(opWrites o.kind) || o.lanes.all (fun a => !untranslated a)

/-- The rest of an operation can be performed here. -/
def performable (s : State) (o : Op) : Bool :=
  unblocked s o && allTranslated o && !(o.lanes.any isBad) && !(o.lanes.any (fun a => isMessage o a || awayLane s o a || deadLane s o a))

/-- A load's translated lanes can be performed. -/
def loadable (s : State) (o : Op) : Bool :=
  unblocked s o && o.lanes.any (fun a => (isReady a || isDone a) && !awayLane s o a && !deadLane s o a)

/-- The unit at which a lane meets the accesses of other waves in an order (R117, R199, R202, R251): the home of a message or of a write
to a GC region, the bench of its core, and the execution point of an atomic. -/
def laneUnit (o : Op) (a : LaneAcc) : Option (Nat × Nat) :=
  match a.stage with
  | .ready pa mode _ _ =>
    if !(opWrites o.kind) then none
    else if o.space == 1 then some (2, pa / 2 ^ 19)
    else if isMessage o a || mode == 1 then some (homeUnit pa)
    else if o.kind == .atom || o.kind == .red then
      (match atomicPoint (waveCore o.w) o.scope mode pa false with
      | .l1 => some (3, waveCore o.w)
      | .cc => some (4, coreCluster (waveCore o.w))
      | .l2 die => some (0, 128 * die + sliceOf pa)
      | .mem => some (5, homeDie pa))
    else none
  | _ => none

/-- The package that a lane's unit belongs to. -/
def unitPkg (o : Op) (a : LaneAcc) : Nat :=
  match laneUnit o a, stagePa a with
  | some (0, u), _ => u / 256
  | some _, some pa => if o.space == 1 then corePkg (waveCore o.w) else homePkg pa
  | _, _ => 0

/-- Where accesses that meet at a unit of a package stand in its order (R202): local sources before remote ones, by package, core,
slot, path. -/
def sourceRank (pkg : Nat) (o : Op) : Nat :=
  ((if corePkg (waveCore o.w) = pkg then 0 else corePkg (waveCore o.w) + 1) * 256 + waveCore o.w % 256) * 128 + waveSlot o.w * 2 + o.path

/-- Nothing but other sources holds the accesses of an operation back from their units. -/
def unitReady (s : State) (o : Op) : Bool := unblocked s o && allTranslated o && !(o.lanes.any isBad)

/-- A lane is the next at its unit: of the accesses that meet there together, the one of the lowest source (R202). -/
def laneDue (s : State) (o : Op) (a : LaneAcc) : Bool :=
  match laneUnit o a with
  | none => true
  | some u => s.ops.all (fun b =>
      !(sourceRank (unitPkg o a) b < sourceRank (unitPkg o a) o && b.lanes.any (fun x => laneUnit b x == some u) && unitReady s b))

/-- Some lane of an operation is the next at its unit. -/
def someDue (s : State) (o : Op) (p : LaneAcc → Bool) : Bool := o.lanes.isEmpty || o.lanes.any (fun a => p a && laneDue s o a)

def execLoadDataReturn (op : Nat) (s : State) : Out :=
  onOp s op (fun o => (o.kind == .load || o.kind == .acq) && loadable s o) (fun o =>
    performLanes s o (fun a => !awayLane s o a && !deadLane s o a))

/-- Writes go to their units in the order of R202; a barrier operation, and a write-back, which has no unit, as a whole. -/
def execStorePerformed (op : Nat) (s : State) : Out :=
  onOp s op (fun o => [.store, .red, .rel, .cwb, .cinv, .bari, .badd].contains o.kind && performable s o && someDue s o (fun _ => true)) (fun o =>
    match o.kind with
    | .store | .red | .rel => performLanes s o (laneDue s o)
    | .bari | .badd => if o.lanes.all (laneDue s o) then performOp s o else s
    | _ => performOp s o)

def execAtomResultReturn (op : Nat) (s : State) : Out :=
  onOp s op (fun o => o.kind == .atom && performable s o && someDue s o (fun _ => true)) (fun o => performLanes s o (laneDue s o))

def execFenceComplete (op : Nat) (s : State) : Out :=
  onOp s op (fun o => o.kind == .fence && unblocked s o) (performOp s)

/-- Two publications reach one buffer map entry (R260). -/
def sameEntry (a b : Op) : Bool :=
  match (a.lanes.headD {}).stage, (b.lanes.headD {}).stage with
  | .ready _ _ _ i, .ready _ _ _ j => i == j
  | _, _ => false

/-- A publication is the next at its entry: of those that reach it together, the lowest core, slot and path (R260). -/
def devlDue (s : State) (o : Op) : Bool :=
  o.kind == .devl && performable s o && s.ops.all (fun b =>
    !(b.kind == .devl && b.id != o.id && (getWave s b.w).vif == (getWave s o.w).vif && sameEntry b o && performable s b
      && 2 * b.w + b.path < 2 * o.w + o.path))

def execDevlPerformed (op : Nat) (s : State) : Out := onOp s op (devlDue s) (performOp s)

/-- The message that a lane sends to its home (R201), its wave's `seq`th. -/
def messageOf (o : Op) (a : LaneAcc) (pa seq : Nat) : Message :=
  { op := match o.kind with | .atom => .atomic o.fn4 | .red => .reduction o.fn4 | _ => .store
    size := BitVec.ofNat 3 o.sz
    mask := BitVec.ofNat 16 ((2 ^ opBytes o - 1) * 2 ^ (pa % 16))
    addr := BitVec.ofNat 60 pa
    data := BitVec.ofNat 128 (if o.kind == .atom || o.kind == .red then a.data else a.data * 2 ^ (8 * (pa % 16)))
    src := BitVec.ofNat 24 (waveCore o.w * 2 ^ 7 + waveSlot o.w * 2 + o.path)
    seq := BitVec.ofNat 12 seq }

/-- The messages of an operation, in ascending lane order. -/
def messagesOf (s : State) (o : Op) : List Message :=
  (o.lanes.filter (isMessage o)).zipIdx.map (fun a => messageOf o a.1 ((stagePa a.1).getD 0) ((getWave s o.w).seqMsg + a.2))

/-- A message of this package, the next at its home. -/
def dueMessage (s : State) (o : Op) (a : LaneAcc) : Bool := isMessage o a && !awayLane s o a && laneDue s o a

/-- An operation has messages that are the next at their homes. -/
def messageDue (s : State) (o : Op) : Bool := unblocked s o && allTranslated o && o.lanes.any (dueMessage s o)

/-- The lanes that go to their homes as messages are applied there, in ascending order (R201, R202). The home's invalidations of clusters
are acknowledged before it acknowledges the store (R200). -/
def execActiveMessage (op : Nat) (s : State) : Out := onOp s op (messageDue s) (fun o => (applyLanes s o (dueMessage s o)).1)

/-- A deferred fault is found once its answer has come, where another package met it. -/
def execDeferredFaultFound (op : Nat) (s : State) : Out :=
  onOp s op (fun o => o.lanes.any isBad && !(o.lanes.any (fun a => isBad a && onFabric s o a))) (foundFault s)

def execPageWalkComplete (walk : Nat) (s : State) : Out :=
  match s.walks.find? (fun k => k.id == walk) with
  | none => .next s
  | some k => .next (endWalk s k)

/-! ### Coherence (R203 to R207) -/

/-- A die reads a line that the other die holds. -/
def execOtherDieRead (die line : Nat) (s : State) : Out :=
  .next (if (getLine s 2 (die ^^^ 1) line).valid && !(getLine s 2 die line).valid then (readL2 s die line).1 else s)

/-- The invalidation that the other die's write sent reaches a die. -/
def execOtherDieWrite (die line : Nat) (s : State) : Out :=
  .next (if s.dieInval.contains (die, line) then takeInval s die line else s)

/-- The line is the victim that its set would give up next (R187, R207). -/
def isVictim (s : State) (level unit line : Nat) : Bool :=
  (getLine s level unit line).valid &&
    match level with
    | 0 => (inSet s 0 unit line).length ≥ 16 && (getLine s 0 unit line).way == smGet (getCore s unit).fill 0 (setOf 0 line)
    | 1 => (match scheduledVictim s (unit / 32) (inSet s 1 unit line) with | some (_, some l) => l == line | _ => false)
    | _ => (match scheduledVictim s unit (inSet s 2 unit line) with | some (_, some l) => l == line | _ => false)

def execL2Eviction (level unit line : Nat) (s : State) : Out :=
  .next (if level = 1 ∧ isVictim s 1 unit line then evictCC s unit line
    else if level = 2 ∧ isVictim s 2 unit line then evictL2 s unit line else s)

/-- The home sends a back-invalidation to a holder that its filter names. -/
def execBackInvalidation (line holder : Nat) (s : State) : Out :=
  .next (if (holdersOf s line 512).contains holder && !s.backInv.contains ⟨line, holder⟩ then
      bump { s with backInv := s.backInv ++ [⟨line, holder⟩] } 5 (homeDie (line * 128)) 1
    else s)

/-- The holder answers; a write-back that crossed has been applied already, and the answer then carries no data (R205). -/
def execBackInvalidationAnswer (line holder : Nat) (s : State) : Out :=
  .next (if s.backInv.contains ⟨line, holder⟩ then answerBackInv s line holder else s)

/-- A pooled node snoops a package's copy of a CXL line. -/
def execBisnp (pkg line : Nat) (s : State) : Out :=
  .next (if regionOf (line * 128) == .cxl && ((getLine s 2 (2 * pkg) line).valid || (getLine s 2 (2 * pkg + 1) line).valid) then
      answerBackInv s line pkg
    else s)

/-! ### Waits on memory (R261, R262) -/

/-- Read the watched location again, where its address stands now (R194, R209): the value, or the cause that the read met. -/
def rereadWait (s : State) (w : Nat) (y : Watch) : State × Except Nat Nat :=
  match locate s w y.space y.addr with
  | (s, .ready pa mode _ _) => readWait s w y.space y.scope mode pa y.size
  | (s, .bad c) => (s, .error c)
  | (s, _) => (s, .error 0x100)

/-- A parked read ends with a value in D; a change that an acquire order found is an acquire read. -/
def endWait (s : State) (w : Nat) (z : Wait) (y : Watch) (v : Nat) (change : Bool) : State :=
  let s := modWave s w (fun x => putWaitD { x with waits := x.waits.erase z } y.size y.d v)
  if change && ordAcq y.order then
    match locate s w y.space y.addr with
    | (s, .ready pa _ _ _) => waitAcquire s w y.space y.order y.scope pa
    | (s, _) => s
  else s

/-- A parked read that meets a deferred fault stops its path at the instruction, with the order and scope that it took (R254, R482). -/
def faultWait (s : State) (w : Nat) (z : Wait) (y : Watch) (cause : Nat) : State :=
  let s := modWave s w (fun x =>
    let x := { modLanes x z.lanes (atInstr z.pc z.head) with waits := x.waits.erase z }
    lateSlot x z.path y.order y.scope)
  raise s w { cause := cause, rank := 4, order := s.nextId, path := z.path, lanes := z.lanes, addr := y.addr }

/-- Wait `i` of a wave is judged again. -/
def wake (s : State) (w i : Nat) (reread : Bool) : State :=
  match (getWave s w).waits[i]? with
  | some z =>
    (match z.on with
    | .value y =>
      if y.reread != reread then s else
      (match rereadWait s w y with
      | (s1, .ok v) => if v ≠ y.cmp then endWait s1 w z y v true else s
      | (s1, .error c) => faultWait s1 w z y c)
    | _ => s)
  | none => s

def execWaitaWake (w i : Nat) (s : State) : Out := .next (wake s w i false)
def execWaitaReread (w i : Nat) (s : State) : Out := .next (wake s w i true)

/-- The timeout of a parked `WAITA` passes: D takes the value read last, its comparand. -/
def execWaitaTimeout (w i : Nat) (s : State) : Out :=
  .next (match (getWave s w).waits[i]? with
    | some z =>
      (match z.on with
      | .value y => if y.timeout = 0 then s else endWait s w z y y.cmp false
      | _ => s)
    | none => s)

/-! ### Errors (R253, R448) -/

/-- 32 bytes that the manual leaves open, from draw `n` on. -/
def freeBytes (n : Nat) : Nat := bytesNat ((List.range 32).map (fun i => Config.freeByte (n + i)))

/-- The bytes of granule `g` of a payload give way to `v`, and it is poisoned. -/
def spoilPacket (p : Packet) (g v : Nat) : Packet :=
  { p with payload := (p.payload.zipIdx.map (fun b => if b.2 / 32 = g then BitVec.ofNat 8 (v / 256 ^ (b.2 % 32)) else b.1)), poison := (g :: p.poison).eraseDups }

/-- The interface that a packet belongs to. -/
def packetVif (s : State) (p : Packet) : Option Nat :=
  if p.kind == .request || p.kind == .response then (getOp s p.index).map (fun o => (getWave s o.w).vif)
  else (s.ctxs.find? (fun kv => kv.1 == 16 * p.src + p.ctx)).map (·.2.vif)

/-- An uncorrectable error strikes a granule (R253, R448; log entry 24 says how `addr` names it): of memory or a vault (`space` 0), of a
bench (1), of a register file (2), of the accumulators (3), of a packet on a link or in a hub (4), of a drain queue (5), of a combine
buffer (6), or of the caches (7). Its bytes are free values, and it is poisoned. -/
def execUncorrectableError (space addr : Nat) (s : State) : Out :=
  let g := addr / 32 * 32
  let v := freeBytes s.free
  let s := { s with free := s.free + 32 }
  let note (s : State) (die : Nat) (vif : Option Nat) (kind : ErrKind) (index a : Nat) : State :=
    logError s (die / 2) vif { die := die % 2, kind := kind, index := index, cls := .uncorrectable, addr := a }
  let word (i : Nat) : Word := BitVec.ofNat 32 (v / 2 ^ (32 * i))
  .next (match space with
    | 1 =>
      let core := addr / 2 ^ 19
      let s := { s with bench := s.bench.writeN g 32 v, benchPoison := smSet s.benchPoison false (addr / 32) true }
      note s (coreDie core) (coreVif s core) .bench (core % 128) (addr % 2 ^ 19)
    | 2 =>
      let w := addr / 2048
      let k := addr % 2048
      if (getWave s w).status = .absent || k ≥ 1056 then s else
      let s := modWave s w (fun x =>
        let x := { x with poison := smSet x.poison false k true }
        (List.range 8).foldl (fun x i =>
          if k < 1024 then vPut x (k / 4) (8 * (k % 4) + i) (word i).toNat else sPut x (8 * (k - 1024) + i) (word i).toNat) x)
      note s (waveDie w) (some (getWave s w).vif) .registers (waveCore w % 128) k
    | 3 =>
      let c := addr / 8192
      let k := addr % 8192
      if (getCrew s c).waves = 0 || k / 512 ≥ (getCrew s c).tiles.length then s else
      let s := modCrew s c (fun c =>
        { c with cell := (List.range 8).foldl (fun m i => smSet m 0 (8 * k + i) (word i)) c.cell
                 cellPoison := smSet c.cellPoison false k true })
      note s (coreDie (getCrew s c).core) (some (getCrew s c).vif) .accumulators ((getCrew s c).core % 128) k
    | 4 =>
      match s.packets.find? (fun p => p.id == addr / 128 && 32 * (addr % 128) < p.payload.length) with
      | none => s
      | some p =>
        let s := { s with packets := s.packets.map (fun q => if q.id == p.id then spoilPacket q (addr % 128) v else q) }
        note s p.hub (packetVif s p) .engine p.ctx (addr % 128)
    | 5 =>
      let n := addr / 4096
      match s.ctxs.find? (fun kv => kv.1 == n && 8 * (addr % 4096) < kv.2.drain.length) with
      | none => s
      | some (_, x) =>
        let struck (i : Nat) : Bool := i / 8 == addr % 4096
        let q := x.drain.zipIdx.map (fun e => if struck e.2 then (e.1.1, e.1.2.1, (word (e.2 % 8)).toNat % (if e.1.2.1 = 1 then 2 ^ 32 else 2 ^ 16)) else e.1)
        let bad := (x.drain.zipIdx.filter (fun e => struck e.2)).map (fun e => e.1.1)
        let s := { s with ctxs := smSet s.ctxs {} n { x with drain := q, drainBad := (x.drainBad ++ bad).eraseDups } }
        note s (n / 16) (some x.vif) .engine (n % 16) (addr % 4096)
    | 6 =>
      match s.held[addr / 128]? with
      | none => s
      | some h =>
        if 32 * (addr % 128) ≥ h.pkt.payload.length then s else
        let s := { s with held := s.held.zipIdx.map (fun x => if x.2 = addr / 128 then { x.1 with pkt := spoilPacket x.1.pkt (addr % 128) v } else x.1) }
        note s h.die (packetVif s h.pkt) .engine h.pkt.ctx (addr % 128)
    | _ =>
      let vault := regionOf addr == .vault
      let core := 128 * homeDie addr + addr % 2 ^ 50 / 0x400000 % 128
      let s := setPoison (homeApply s (lineOf g) (dataAt g v) (maskAt g 32)) g true
      note s (homeDie addr) (if vault then coreVif s core else none) (if space = 7 then .cache else if vault then .vault else .memory)
        (if vault && space != 7 then core % 128 else sliceOf addr) addr)

/-- The kinds of a unit by number (log entry 24). -/
def errKind (n : Nat) : ErrKind :=
  ([.memory, .vault, .bench, .registers, .accumulators, .cache, .engine, .port, .ring] : List ErrKind).getD n .memory

/-- A corrected error is counted and logged; no data changes. `unit` is its kind below its index. -/
def execCorrectedError (die unit addr : Nat) (s : State) : Out :=
  .next (logError { s with pkgs := smMod s.pkgs {} (die / 2) (fun p => { p with corrected := p.corrected + 1 }) } (die / 2) none
    { die := die % 2, kind := errKind (unit % 9), index := unit / 9, cls := .corrected, addr := addr })

/-! ### Barriers (R391) -/

def execBarrierCountingCycle (obj : Nat) (s : State) : Out := .next (flushBar s obj)

/-- An AUTO object whose ARRIVED still reaches TARGET completes again with no further arrival. -/
def execBarrierAutoRecomplete (obj : Nat) (s : State) : Out :=
  .next (if (getBar s obj).tracked && objAuto (readObj s obj).2 && objFires (readObj s obj).2 && (getBar s obj).arrived = 0 then
      countCycle s obj
    else s)

end Sys2Proof.Machine
end

