-- ==== Sys2Proof/Machine/Remote.lean ====
section
/-! DEFINITION. Remote accesses on the fabric (R192, R342, R344): each lane's request goes to the package that performs it, and its response
comes back, as packets with a `FWD` and a `DELIVER` entry. -/

namespace Sys2Proof.Machine

/-- The die that a lane's request goes to, and the line whose number chooses its rail (log entry 14): those of its physical address, or of a
`.x` address not translated yet the target's die 0 and the line of the virtual address. -/
def accessPlace (a : LaneAcc) : Nat × Nat :=
  match stagePa a with
  | some pa => (homeDie pa, lineOf pa)
  | none => (2 * (xTarget a.addr).1, lineOf (xTarget a.addr).2)

/-- The bytes of a lane's operand. -/
def operandBytes (o : Op) : Nat := if !(opWrites o.kind) then 0 else if o.kind == .atom && o.fn4 == 9 then 2 * opBytes o else opBytes o

/-- The request of a lane: CLASS 00, its operand the payload. -/
def requestOf (s : State) (o : Op) (a : LaneAcc) (route : List Word) : Packet :=
  { id := s.nextId, kind := .request, cls := 0, index := o.id, rank := a.lane, total := a.data, chunk := (accessPlace a).2
    src := waveDie o.w, dst := waveDie o.w, hub := waveDie o.w, origHub := waveDie o.w, stack := route, orig := route
    addr := (stagePa a).getD (xTarget a.addr).2, payload := natBytes (operandBytes o) a.data }

/-- A lane's request leaves; where no rail works the lane takes 0x30A (R350). -/
def sendRequest (o : Op) (s : State) (a : LaneAcc) : State :=
  match routeTo s (waveDie o.w) (accessPlace a).1 (accessPlace a).2 [entry 4 29 0 0] with
  | some r => { s with nextId := s.nextId + 1, packets := s.packets ++ [requestOf s o a r] }
  | none => badLane s (requestOf s o a []) 0x30A

/-- A lane's request can leave: it is to be translated elsewhere, or nothing holds its operation back. -/
def canSend (s : State) (o : Op) (a : LaneAcc) : Bool :=
  awayLane s o a && !onFabric s o a && (untranslated a || (unblocked s o && allTranslated o))

/-- A packet of an operation lies at its last hub, its `DELIVER` due. -/
def landing (o : Op) (k : PktKind) (p : Packet) : Bool :=
  p.kind == k && p.index == o.id && atHub p && !routeError p && p.stack.length == 1 && p.stack.all (fun e => entOp e == 4)

/-- The requests of an operation that have reached their target. -/
def landedRequests (s : State) (o : Op) : List Packet := s.packets.filter (landing o .request)

/-- The lane of an operation that a packet carries. -/
def laneOf (o : Op) (p : Packet) : Option LaneAcc := o.lanes.find? (fun a => a.lane == p.rank)

/-- The lanes whose requests have reached their target are translated there (R192). -/
def remoteTranslate (s : State) (o : Op) (l : List Packet) : State × Op :=
  let (s, o) := o.lanes.foldl (fun (r : State × Op) a =>
    if !(l.any (fun p => p.rank == a.lane)) || !(untranslated a) || isBad a then r else
    let (s, st) := remoteXlat r.1 o.w (opAcc o.kind) a.addr
    (s, { r.2 with lanes := r.2.lanes.map (fun b => if b.lane == a.lane then { b with stage := st } else b) })) (s, o)
  (setOp s o, o)

/-- The lanes that a target performs now (R192, R202). -/
def remoteDue (s : State) (o : Op) (l : List Packet) (a : LaneAcc) : Bool :=
  l.any (fun p => p.rank == a.lane) && isReady a && laneDue s o a

/-- The response to a request whose lane has been performed or has met a fault (CLASS 01) goes back; a lane that is no more needs none. -/
def respond (o : Op) (s : State) (p : Packet) : State :=
  match laneOf o p with
  | none => delPkt s p.id
  | some a =>
    if !isDone a && !isBad a then s else
    match routeTo s p.hub p.src p.chunk [entry 4 29 0 0] with
    | none => badLane (delPkt s p.id) p 0x30A
    | some r => setPkt s { p with
        kind := .response, cls := 1, src := p.hub, dst := p.hub, origHub := p.hub, stack := r, orig := r, ingress := 29, resent := false
        payload := if isDone a && (opAcc o.kind = 0 || o.kind == .atom) then natBytes (opBytes o) a.data else [] }

/-- Requests leave for their packages; at their target they are translated with its own tables, performed once nothing holds them back,
and answered (R192, R202, R342). -/
def execRemoteAccessRequest (op : Nat) (s : State) : Out :=
  match getOp s op with
  | none => .next s
  | some o =>
    let out := o.lanes.filter (canSend s o)
    if !out.isEmpty then .next (out.foldl (sendRequest o) s) else
    let l := landedRequests s o
    if l.isEmpty then .next s else
    let (s, o) := remoteTranslate s o l
    let (s, o) := if unblocked s o && allTranslated o && o.lanes.any (remoteDue s o l) then applyLanes s o (remoteDue s o l) else (s, o)
    .next (l.foldl (respond o) s)

/-- The answers of lanes have come back: the performed ones are delivered (R192). -/
def execRemoteAccessResponse (op : Nat) (s : State) : Out :=
  match getOp s op with
  | none => .next s
  | some o =>
    let l := s.packets.filter (fun p => landing o .response p && p.hub == waveDie o.w)
    if l.isEmpty then .next s else
    let (s, o) := deliver (l.foldl (fun s p => delPkt s p.id) s) o
    .next (endOp s o)

end Sys2Proof.Machine
end

