-- ==== Sys2Proof/Machine/Net.lean ====
section
/-! DEFINITION. Ultra Ethernet remote memory (R352 to R361): `RPUT`, `RGET`, `RATOM`, requests, answers, retries, congestion,
generations and the atomic result cache; and CXL events (R362 to R364). -/

namespace Sys2Proof.Machine

/-! ### Descriptors and regions (R353, R354) -/

/-- A remote descriptor of an interface. -/
def remoteDesc (s : State) (vif i : Nat) : Nat := homeRead s (partField s vif 48 8 + 16 * i) 16

def rdValid (e : Nat) : Bool := e.testBit 74
def rdWrite (e : Nat) : Bool := e.testBit 73
def rdLen (e : Nat) : Nat := natBits e 39 0
def rdPkg (e : Nat) : Nat := natBits e 83 75
def rdPod (e : Nat) : Nat := natBits e 95 84
def rdRegion (e : Nat) : Nat := natBits e 111 96
def rdGen (e : Nat) : Nat := natBits e 127 112

/-- The parts of a `.n` address. -/
def netDesc (a : Nat) : Nat := natBits a 63 52
def netOffset (a : Nat) : Nat := natBits a 39 0

/-- The region entry of a table, which RTAB names (R354, R378): 32 bytes, laid out as log entry 15 says: base, length, GEN, RD, WR, AT, VALID. -/
def regionAddr (s : State) (vif i : Nat) : Nat := partField s vif 56 8 + 32 * i

/-- The region's context as the dies cache it. -/
def getRegion (s : State) (vif i : Nat) : Nat := (smGet s.regions 0 (65536 * vif + i)).toNat
def rgBase (e : Nat) : Nat := natBits e 63 0
def rgLen (e : Nat) : Nat := natBits e 127 64
def rgGen (e : Nat) : Nat := natBits e 143 128
def rgValid (e : Nat) : Bool := e.testBit 147

/-! ### Issue (R355 to R357) -/

/-- The lowest cause that a lane's address meets at issue (R356). -/
def netCause (s : State) (k : OpKind') (n a : Nat) : Option Nat :=
  let e := remoteDesc s s.wave.vif (netDesc a)
  firstCause [
    (natBits a 51 40 != 0 || !rdValid e || netOffset a + n > rdLen e || (k != .rget && !rdWrite e), 0x382),
    (a % n != 0, 0x107)]

/-- The Ethernet port of a request: every thread can use every port of its package (R13). DESIGN CHOICE (log entry 15): the spans take the
eight in turn, those that carry nothing left out, which the manual does not say. -/
def reqPort (s : State) (die span : Nat) : Nat := 8 * (die / 2) + (ethFrom s (die / 2) (span % 8)).getD (span % 8)

/-- The request packets of an access: one for each descriptor and 4 KiB span (R355). -/
def netRequests (s : State) (o : Op) : State :=
  let spans := (o.lanes.map (fun a => a.addr / 4096)).eraseDups
  spans.foldl (fun s g =>
    let e := remoteDesc s (getWave s o.w).vif (g / 2 ^ 40)
    let ls := (o.lanes.filter (fun a => a.addr / 4096 == g)).map (·.lane)
    let r : NetReq :=
      { id := s.nextId, op := o.id, lanes := ls, pod := rdPod e, target := rdPkg e, region := rdRegion e, gen := rdGen e
        entry := netSlot (reqPort s (waveDie o.w) g) (rdPod e) (rdPkg e), bytes := ls.length * szBytes o.sz }
    { s with nextId := s.nextId + 1, netReqs := s.netReqs ++ [r] }) s

/-- A network access is entered: its count, its sequence number, its requests. -/
def enterNet (s : State) (o : Op) : State :=
  let x := getWave s o.w
  let o := { o with id := s.nextId, cycle := x.cycle, netSeq := x.seqNet, entry := true }
  let s := modWave s o.w (fun x => { raiseCount x o.counter with seqNet := (x.seqNet + 1) % 2 ^ 32 })
  netRequests { s with nextId := s.nextId + 1, ops := s.ops ++ [o] } o

/-- `RPUT`, `RGET` and `RATOM` at issue: `dbytes` of D are read as data. -/
def runNet (i : Instr) (m : F64M) (off : Int) (k : OpKind') (vbytes dbytes : Nat) (orders : List Nat) (s : State) : Out :=
  runMem i m.g 4 (topM m vbytes) { orders := orders, scope := 7, scopes := [7] } s fun p ex order scope =>
    let x := s.wave
    let acc (l : Nat) : LaneAcc := { lane := l, addr := laneAddr x m off l, data := gatherRegs x m.d.toNat l dbytes, poison := regPoison x m.d.toNat l dbytes }
    let o := { memOp k m (if k = .rput then 2 else 1) with order := order, scope := scope, lanes := (lanesOf ex).map acc, ex := ex }
    let own := o.lanes.filterMap (fun a => (netCause s k (opBytes o) a.addr).map (fun c => (a.lane, c)))
    if !own.isEmpty then faultOf s o own
    else if entriesUsed s s.cur ≥ Config.replayLimit then .hold s .replay (some (slotFor order scope))
    else .done (enterNet (useSlot s)
      { o with w := s.cur, path := if x.turnB then 1 else 0, pc := p.pc, parcels := encode i, vlimit := 8 * x.gran })

def execRput64 (m : F64M) (s : State) : Out := runNet (.rput64 m) m (off64 m) .rput (szBytes m.sz.toNat) (szBytes m.sz.toNat) [0, 2, 4] s
def execRput96 (f : F96M) (s : State) : Out := runNet (.rput96 f) f.m (off96 f) .rput (szBytes f.m.sz.toNat) (szBytes f.m.sz.toNat) [0, 2, 4] s
def execRget64 (m : F64M) (s : State) : Out := runNet (.rget64 m) m (off64 m) .rget (szBytes m.sz.toNat) 0 [0, 1, 4] s
def execRget96 (f : F96M) (s : State) : Out := runNet (.rget96 f) f.m (off96 f) .rget (szBytes f.m.sz.toNat) 0 [0, 1, 4] s
def execRatom64 (m : F64M) (s : State) : Out := runNet (.ratom64 m) m (off64 m) .ratom (atomBytes m) (atomBytes m) [0, 1, 2, 3, 4] s
def execRatom96 (f : F96M) (s : State) : Out := runNet (.ratom96 f) f.m (off96 f) .ratom (atomBytes f.m) (atomBytes f.m) [0, 1, 2, 3, 4] s

/-! ### Requests -/

def getReq (s : State) (id : Nat) : Option NetReq := s.netReqs.find? (fun r => r.id == id)
def setReq (s : State) (r : NetReq) : State := { s with netReqs := s.netReqs.map (fun q => if q.id == r.id then r else q) }
def delReq (s : State) (id : Nat) : State := { s with netReqs := s.netReqs.filter (fun q => q.id != id) }

def onReq (s : State) (id : Nat) (f : NetReq → State) : Out :=
  match getReq s id with | none => .next s | some r => .next (f r)

/-- The congestion window of an entry (R358). -/
def netWindow (s : State) (e : Nat) : Nat := let w := (smGet s.congest (0, 0, 0) e).1; if w = 0 then 65536 else w

def inFlight (s : State) (e : Nat) : Nat :=
  (s.netReqs.filter (fun r => r.entry == e && r.sent)).foldl (fun a r => a + r.bytes) 0

/-- The die whose request table holds a request. -/
def reqDie (s : State) (r : NetReq) : Nat :=
  if r.coll ≠ 0 then ctxDie (r.coll - 1) else match getOp s r.op with | some o => waveDie o.w | none => 0

/-- The requests of a die's table, those that wait there for the window among them (R330, R358); what finds it full stands behind them. -/
def outstanding (s : State) (die : Nat) : Nat := (s.netReqs.filter (fun r => reqDie s r == die)).length
def inTable (s : State) (r : NetReq) : Bool :=
  ((s.netReqs.filter (fun q => reqDie s q == reqDie s r)).take Config.netTable).any (fun q => q.id == r.id)

/-- Nothing holds the access of a request back (R357); a collective chunk has none. -/
def reqFree (s : State) (r : NetReq) : Bool :=
  r.coll != 0 || (match getOp s r.op with | some o => unblocked s o | none => false)

/-- A request may leave, or has: its access is not held back, and the window and its die's table have room. -/
def sendable (s : State) (r : NetReq) : Bool :=
  r.sent || (reqFree s r && (inFlight s r.entry == 0 || inFlight s r.entry + r.bytes ≤ netWindow s r.entry)
    && inTable s r)

/-- A request leaves; the release steps of an access come before its first (R357). -/
def leaves (s : State) (r : NetReq) : State :=
  setReq (if r.coll ≠ 0 then s else match getOp s r.op with | some o => (beginOp s o).1 | none => s) { r with sent := true }

/-- The interface of the target package that serves the sender's pod job (log entry 15). -/
def netIface (s : State) (r : NetReq) : Option Nat :=
  match getOp s r.op with
  | some o =>
    let v := (getWave s o.w).vif
    if vifPkg v = r.target then some v else jobIface s v r.target
  | none => none

def netDie (s : State) (r : NetReq) : Nat := 2 * r.target + (match getOp s r.op with | some o => waveDie o.w % 2 | none => 0)
def regionKey (s : State) (r : NetReq) : Nat := (match netIface s r with | some v => 65536 * v | none => 65536 * (64 * r.target)) + r.region

/-- Read and write `n` bytes at their home as a remote access does: its policy 01 allocates nothing in the target's L2 (R355). -/
def netRead (s : State) (o : Op) (pa n : Nat) : State × Nat :=
  if o.kind = .rget && o.fn4 / 4 = 1 then (s, homeRead s pa n) else readDieN s (homeDie pa) pa n

def netWrite (s : State) (o : Op) (pa n v : Nat) : State :=
  if o.kind = .rput && o.fn4 / 4 = 1 then
    (List.range n).foldl (fun s i => writeHome s (lineOf (pa + i)) (dataAt (pa + i) (v / 256 ^ i % 256)) (maskAt (pa + i) 1)) s
  else writeDieN s (homeDie pa) pa n v

/-- One lane at the target: read and write at the home of the bytes, as a pod-scope access (R354, R217). -/
def netLane (s : State) (vif die base : Nat) (o : Op) (a : LaneAcc) : State × Except Nat Nat :=
  let n := opBytes o
  let va := (base + netOffset a.addr) % 2 ^ 64
  if !canonical va then (s, .error 0x383) else
  match translate s vif die va (if o.kind = .rget then 0 else 1) false with
  | (s, .error _) => (s, .error 0x383)
  | (s, .ok t) =>
    if o.kind ≠ .rput && poisoned s t.pa n then (s, .error (if o.kind = .rget then 0x109 else 0x105)) else
    let (s, old) := if o.kind = .rput then (s, 0) else netRead s o t.pa n
    if o.kind = .rget then (s, .ok old)
    else
      let v := if o.kind = .rput then a.data else atomNew o.fn4 n old a.data
      let s := recordWrite s vif va t.pte
      let s := netWrite (if t.mode == 2 then hcSettle s t.pa else s) o t.pa n v
      (spoil (unpoison s t.pa n) false a.poison t.pa n, .ok old)

/-- The lanes of a request, in ascending order: their values and causes. -/
def netLanes (s : State) (vif die base : Nat) (o : Op) : List LaneAcc → State × SMap Nat × SMap Nat
  | [] => (s, [], [])
  | a :: rest =>
    let (s, x) := netLane s vif die base o a
    let (s, vs, cs) := netLanes s vif die base o rest
    match x with
    | .ok v => (s, (a.lane, v) :: vs, cs)
    | .error c => (s, vs, (a.lane, c) :: cs)

/-- Every lane of a request is denied. -/
def denyReq (s : State) (r : NetReq) : State := setReq s { r with stage := 2, causes := r.lanes.map (fun l => (l, 0x383)) }

/-- The old values of an atomic that its target keeps, and its lanes' causes. -/
def atomKept (s : State) (r : NetReq) : Option (SMap Nat × SMap Nat) := (s.atomCache.find? (fun c => c.1 == netDie s r && c.2.1 == r.id)).map (·.2.2)
def atomFull (s : State) (die : Nat) : Bool := (s.atomCache.filter (fun c => c.1 == die)).length ≥ 4096

def reqAtomic (s : State) (r : NetReq) : Bool := match getOp s r.op with | some o => o.kind == .ratom | none => false

/-- A request with its region's context at hand: the region, the generation and the permission are checked, the access is
applied once, and the answer goes back (R356, R359). -/
def applyReq (s : State) (r : NetReq) : State :=
  match getOp s r.op, netIface s r with
  | some o, some v =>
    let e := getRegion s v r.region
    let perm := match o.kind with | .rget => e.testBit 144 | .rput => e.testBit 145 | _ => e.testBit 146
    if !rgValid e then denyReq s r
    else if rgGen e ≠ r.gen then setReq s { r with stage := 3 }
    else if !perm then denyReq s r
    else
      let accs := o.lanes.filter (fun a => r.lanes.contains a.lane)
      if accs.any (fun a => netOffset a.addr + opBytes o > rgLen e) then denyReq s r
      else match (if o.kind = .ratom then atomKept s r else none) with
        | some (vs, cs) => setReq s { r with stage := 2, values := vs, causes := cs }
        | none =>
          let (s, vs, cs) := netLanes s v (netDie s r) (rgBase e) o accs
          let s := if o.kind = .ratom then { s with atomCache := s.atomCache ++ [(netDie s r, r.id, vs, cs)] } else s
          setReq s { r with stage := 2, values := vs, causes := cs }
  | _, _ => denyReq s r

/-- The target would have to keep old values and has no room. -/
def targetBusy (s : State) (r : NetReq) : Bool := reqAtomic s r && (atomKept s r).isNone && atomFull s (netDie s r)

def contextMissing (s : State) (r : NetReq) : Bool := !s.regionCache.contains (netDie s r, regionKey s r)

def missCount (s : State) (die : Nat) : Nat := (s.netReqs.filter (fun q => q.stage == 1 && netDie s q == die)).length

/-- A request can be on its way. -/
def reqDue (s : State) (r : NetReq) : Bool := r.stage == 0 && sendable s r

/-- A request is for another pod. -/
def otherPod (r : NetReq) : Bool := r.coll != 0 || r.pod != Config.ownPod.toNat

/-- Another pod, which is no part of the machine, performs a request, finds it stale, denies it, or lets it be lost; what it answers is open
(log entry 15). A chunk is acknowledged or lost. -/
def farAnswer (s : State) (r : NetReq) : State :=
  let (s, k) := freeN s 1
  if k % 4 = 3 then setReq s { r with stage := 5 }
  else match getOp s r.op with
    | some o =>
      if k % 4 = 1 then setReq s { r with stage := 3 }
      else if k % 4 = 2 then denyReq s r
      else
        let (s, v) := freeN s (32 * opBytes o)
        setReq s { r with stage := 2, values := r.lanes.map (fun l => (l, bytesAt v (opBytes o * l) (opBytes o))) }
    | none => setReq s { r with stage := 2 }

/-- A request of a package with no working Ethernet port is lost; another reaches its target: it waits there for its region's context, is
dropped when the miss buffer is full, or is applied (R359, R360). -/
def execNetRequest (req : Nat) (s : State) : Out :=
  onReq s req fun r =>
    if !reqDue s r then s
    else if (ethFrom s (reqDie s r / 2) 0).isNone then setReq (leaves s r) { r with sent := true, stage := 5 }
    else if otherPod r then farAnswer (leaves s r) { r with sent := true }
    else if targetBusy s r then s else
    let s := leaves s r
    let r := { r with sent := true }
    if contextMissing s r then
      if missCount s (netDie s r) ≥ 256 then setReq s { r with stage := 5 }
      else setReq { s with nextId := s.nextId + 1 } { r with stage := 1, arr := s.nextId }
    else applyReq s r

def execBusyAnswer (req : Nat) (s : State) : Out :=
  onReq s req fun r =>
    if reqDue s r && (ethFrom s (reqDie s r / 2) 0).isSome && !otherPod r && targetBusy s r then setReq (leaves s r) { r with sent := true, stage := 4 } else s

def execBusyResendTimer (req : Nat) (s : State) : Out :=
  onReq s req fun r => if r.stage = 4 then setReq s { r with stage := 0 } else s

/-- The waiting requests of a region, oldest first. -/
def missWaiters (s : State) (die region : Nat) : List Nat :=
  let l := s.netReqs.filter (fun q => q.stage == 1 && netDie s q == die && regionKey s q == region)
  (l.mergeSort (fun a b => a.arr ≤ b.arr)).map (·.id)

/-- Contexts that no die caches go. -/
def pruneRegions (s : State) : State := { s with regions := s.regions.filter (fun kv => s.regionCache.any (fun c => c.2 == kv.1)) }

/-- A region's context arrives from the table; a full cache loses its oldest (log entry 9). -/
def execRegionContextFill (die region : Nat) (s : State) : Out :=
  let ws := missWaiters s die region
  if ws.isEmpty then .next s else
  let mine := s.regionCache.filter (fun c => c.1 == die)
  let cache := if mine.length ≥ 2048 then (match mine with | c :: _ => s.regionCache.erase c | [] => s.regionCache) else s.regionCache
  let e := homeRead s (regionAddr s (region / 65536) (region % 65536)) 32
  let s := pruneRegions { s with regionCache := cache ++ [(die, region)], regions := smSet s.regions 0 region (BitVec.ofNat 256 e) }
  .next (ws.foldl (fun s id => match getReq s id with
    | some r => if targetBusy s r then setReq s { r with stage := 4 } else applyReq s { r with stage := 0 }
    | none => s) s)

/-! ### Answers (R355, R358, R359) -/

/-- Lanes of an access finish: those with a value are done, those with a cause are bad; performed lanes are delivered. -/
def netFinish (s : State) (r : NetReq) (causes : SMap Nat) : State :=
  match getOp s r.op with
  | none => delReq s r.id
  | some o =>
    let o := { o with
      netBad := causes.foldl (fun m c => smSet m 0 c.1 c.2) o.netBad
      netTry := max o.netTry r.retries
      lanes := o.lanes.map (fun a =>
        if !r.lanes.contains a.lane then a
        else match causes.find? (fun c => c.1 == a.lane) with
          | some c => { a with stage := .bad c.2 }
          | none => { a with stage := .done, data := if o.kind = .rput then a.data else smGet r.values 0 a.lane }) }
    let (s, o) := deliver (setOp (delReq s r.id) o) o
    endOp s o

/-- What an acknowledged round trip of `t` ns does to a congestion entry. -/
def congestUpdate (now t : Nat) (c : Nat × Nat × Nat) : Nat × Nat × Nat :=
  let w := if c.1 = 0 then 65536 else c.1
  let b := if c.2.1 = 0 then t else min (c.2.1 - 1) t
  if t ≤ b + 5000 then (min 4194304 (w + 4096 * 4096 / w), b + 1, c.2.2)
  else if c.2.2 ≠ 0 && now < c.2.2 - 1 + t then (w, b + 1, c.2.2)
  else (max 4096 (w - w * 4 * (t - b - 5000) / (10 * t)), b + 1, now + 1)

def execNetResponse (req rttNs : Nat) (s : State) : Out :=
  onReq s req fun r =>
    if r.stage ≠ 2 then s
    else
      let s := { s with congest := smMod s.congest (0, 0, 0) r.entry (congestUpdate s.podTime rttNs) }
      if r.coll = 0 then netFinish s r r.causes
      else match getPkt s r.pkt with
        | some p => ackPkt (delPkt (delReq s r.id) p.id) p
        | none => delReq s r.id

def execStaleNotice (req : Nat) (s : State) : Out :=
  onReq s req fun r => if r.stage = 3 then netFinish s r (r.lanes.map (fun l => (l, 0x381))) else s

/-- The timer of a request that has left passes: it leaves again, or its lanes fault after seven retries. -/
def execNetRetryTimer (req : Nat) (s : State) : Out :=
  onReq s req fun r =>
    if r.stage = 4 || !r.sent then s
    else
      let s := { s with congest := smMod s.congest (0, 0, 0) r.entry (fun c => (4096, c.2.1, c.2.2)) }
      if r.retries ≥ 7 then
        (if r.coll ≠ 0 then ctxFault s (r.coll - 1) 0x380 else netFinish s r (r.lanes.map (fun l => (l, 0x380))))
      else setReq s { r with retries := r.retries + 1, stage := if r.stage = 1 then 1 else 0, values := [], causes := [] }

/-- The initiator acknowledges a response that it has taken. -/
def execResponseAck (req : Nat) (s : State) : Out :=
  if (getReq s req).isSome then .next s else .next { s with atomCache := s.atomCache.filter (fun c => c.2.1 != req) }

/-- An entry is freed 2,040 µs after it was made, when its request can no longer be retried. -/
def execAtomicCacheExpiry (die i : Nat) (s : State) : Out :=
  match (s.atomCache.filter (fun c => c.1 == die))[i]? with
  | none => .next s
  | some c => if (getReq s c.2.1).isSome then .next s else .next { s with atomCache := s.atomCache.erase c }

/-! ### CXL (R362 to R364) -/

/-- A dynamic-capacity event interrupts the driver of the management function (R363, R443); the device maps nothing itself. -/
def dcdEvent (s : State) (pkg : Nat) : State := { s with notes := s.notes ++ [.interrupt pkg 0 4] }

def execDcdExtentAdded (pkg port base len : Nat) (s : State) : Out :=
  .next (if port < 4 && len ≠ 0 && base % 4096 = 0 then dcdEvent s pkg else s)

def execDcdExtentRelease (pkg port base len : Nat) (s : State) : Out :=
  .next (if port < 4 && len ≠ 0 && base % 4096 = 0 then dcdEvent s pkg else s)

/-- A memory operation's access of pooled memory gets no response within 32 µs. -/
def cxlLane (o : Op) (a : LaneAcc) : Bool :=
  o.space != 1 && (match a.stage with | .ready pa _ _ _ => regionOf pa == .cxl | _ => false)

def cxlLost (s : State) (o : Op) : State :=
  let s := if !opWrites o.kind then s else
    (o.lanes.filter (cxlLane o)).foldl (fun s a => match stagePa a with
      | some pa => (List.range ((pa + opBytes o - 1) / 32 + 1 - pa / 32)).foldl (fun s i => setPoison s (pa / 32 * 32 + 32 * i) true) s
      | none => s) s
  setOp s { o with lanes := o.lanes.map (fun a => if cxlLane o a then { a with stage := .bad 0x109 } else a) }

def execCxlResponseTimeout (op : Nat) (s : State) : Out :=
  match getOp s op with
  | none => .next s
  | some o => if o.lanes.any (cxlLane o) && unblocked s o then .next (cxlLost s o) else .next s

end Sys2Proof.Machine
end

