-- ==== Sys2Proof/Machine/Arbiter.lean ====
section
/-! DEFINITION. Strokes and their start (R71 to R79, R480), readiness and the choice of paths (R18, R27, R28), and the
arbitration of a core's ports (R26, R32, R306, R419, R420). -/

namespace Sys2Proof.Machine

/-! ### Reading a stroke (R480) -/

/-- A parcel of code at a physical address. -/
def codeWord (s : State) (die pa : Nat) : Word := BitVec.ofNat 32 (readDie s die pa 4).2

/-- The header at a PC: its physical page and parcels, or the cause that its fetch meets and the parcels read. -/
def fetchHead (s : State) (w : Nat) (pc : DWord) : Except (Nat × List Word) (Nat × Word × Word) :=
  if pc.toNat % 8 ≠ 0 then .error (0x005, []) else
  match (translate s (getWave s w).vif (waveDie w) pc.toNat 2 false).2 with
  | .error c => .error (c, [])
  | .ok t =>
    if poisoned s t.pa 8 then .error (0x109, []) else
    let p0 := codeWord s (waveDie w) t.pa
    let p1 := codeWord s (waveDie w) (t.pa + 4)
    if p0.toNat % 4 ≠ 3 then .error (0x005, [p0, p1]) else .ok (t.pa / 4096 * 4096, p0, p1)

/-- COUNT of a header. -/
def headCount (p0 : Word) : Nat := natBits p0.toNat 6 2

/-- The instructions of a stroke from a page offset on: the offset and the unit of each, and the offset behind the last. -/
def scanUnits (s : State) (die page : Nat) : Nat → Nat → Except Nat (List (Nat × Parsed) × Nat)
  | 0, o => .ok ([], o)
  | n + 1, o =>
    if o + 4 > 4096 then .error 0x003 else
    let p := codeWord s die (page + o)
    let len := 4 * unitLength p
    if o + len > 4096 then .error 0x003
    else if poisoned s (page + o) len then .error 0x109
    else if p.toNat % 4 = 3 || p.getLsbD 31 != (n == 0) then .error 0x003
    else
      match scanUnits s die page n (o + len) with
      | .ok (l, e) => .ok ((o, parse ((List.range (len / 4)).map (fun i => codeWord s die (page + o + 4 * i)))) :: l, e)
      | .error c => .error c

/-- The classes and channels of the units of a stroke. -/
def unitClasses (u : Parsed) : Nat := match u with | .instr i _ _ => engineClasses i | _ => 0
def unitChannel (u : Parsed) : Option Nat :=
  match u with
  | .instr (.cpy64 p) _ _ => some (p.r.fn.toNat % 8)
  | .instr (.plane64 p) _ _ => some (p.r.fn.toNat % 8)
  | _ => none

/-- A stroke as its start needs it. -/
structure Stroke where
  page : Nat
  p0 : Word
  p1 : Word
  units : List (Nat × Parsed)
  fall : DWord

/-- The fall-through header of a stroke whose last instruction ends at a page offset (R73). -/
def fallOf (head : DWord) (p1 : Word) (e : Nat) : DWord :=
  sextPc (head.toNat / 4096 * 4096 + (if p1.getLsbD 4 then 4096 else (e + 7) / 8 * 8))

/-- The checks of R480 in their order, for a wave that starts the stroke at `head`. -/
def readStroke (s : State) (w : Nat) (head : DWord) : Except (Nat × List Word) Stroke :=
  match fetchHead s w head with
  | .error e => .error e
  | .ok (page, p0, p1) =>
    let n := headCount p0
    if p1.toNat / 32 ≠ 0 then .error (0x002, [p0, p1])
    else if n = 0 || n > 24 then .error (0x003, [p0, p1])
    else if p0.getLsbD 7 != (getWave s w).shadow then .error (0x003, [p0, p1])
    else
      match scanUnits s (waveDie w) page n (head.toNat % 4096 + 8) with
      | .error c => .error (c, [p0, p1])
      | .ok (us, e) =>
        let mask := natBits p0.toNat 15 8
        if us.any (fun u => unitClasses u.2 &&& mask != unitClasses u.2) then .error (0x003, [p0, p1])
        else .ok ⟨page, p0, p1, us, fallOf head p1 e⟩

/-- The stroke in which a path resumes at `pc` (R79, R419): where `head` is no header, or `pc` is no instruction of its stroke,
0x005. -/
def resumeStroke (s : State) (w : Nat) (head pc : DWord) : Except (Nat × List Word) (Stroke × Nat) :=
  match fetchHead s w head with
  | .error e => .error e
  | .ok (page, p0, p1) =>
    match scanUnits s (waveDie w) page (headCount p0) (head.toNat % 4096 + 8) with
    | .error c => .error (if c = 0x109 then c else 0x005, [p0, p1])
    | .ok (us, e) =>
      let same := head.toNat / 4096 == pc.toNat / 4096
      match us.findIdx? (fun u => same && u.1 == pc.toNat % 4096) with
      | some i => .ok (⟨page, p0, p1, us, fallOf head p1 e⟩, i)
      | none => .error (0x005, [p0, p1])

/-! ### Readiness (R18, R27, R76, R128) -/

/-- The header waits are met (R75). -/
def waitsMet (x : Wave) (p0 p1 : Word) : Bool :=
  let ok (n lo : Nat) (p : Word) : Bool := natBits p.toNat (lo + 3) lo == 15 || n ≤ natBits p.toNat (lo + 3) lo
  ok x.tile 28 p0 && ok x.cpy 24 p0 && ok x.st 20 p0 && ok x.ld 16 p0 && ok x.eng 0 p1

/-- No counter exceeds 231 (R128). -/
def countersLow (x : Wave) : Bool := x.tile ≤ 231 && x.cpy ≤ 231 && x.st ≤ 231 && x.ld ≤ 231 && x.eng ≤ 231

/-- Room in a copy channel and in a cluster's gather-pool engine (R298). -/
def channelFree (s : State) (core ch : Nat) : Bool := (smGet (getCore s core).chan [] ch).length < Config.channelDepth
def gatherFree (s : State) (core : Nat) : Bool := (smGet s.gathers [] (coreCluster core)).length < Config.gatherDepth

/-- Every engine class of the mask can accept a command from the wave (R76, R298): the network class while the die's request table has
room (R330). DESIGN CHOICE (log entry 52): the memory class can while one of the wave's replay entries is free, and the matrix, collective
and system classes always, for which R298 gives no condition. -/
def enginesAccept (s : State) (w : Nat) (st : Stroke) : Bool :=
  let m := natBits st.p0.toNat 15 8
  (!m.testBit 0 || entriesUsed s w < Config.replayLimit)
    && (!m.testBit 2 || st.units.all (fun u => match unitChannel u.2 with | some c => channelFree s (waveCore w) c | none => true))
    && (!m.testBit 3 || gatherFree s (waveCore w))
    && (!m.testBit 5 || outstanding s (waveDie w) < Config.netTable)

/-- What a continuation waits for has come (R28). -/
def condMet (s : State) (w : Nat) (c : Cond) : Bool :=
  let x := getWave s w
  match c with
  | .now => true
  | .counters t c st l e => countersMet x t c st l e
  | .replay => entriesUsed s w < Config.replayLimit
  | .channel ch => channelFree s (waveCore w) ch
  | .gather => gatherFree s (waveCore w)
  | .store n =>
    let u := smGet s.taskUnits {} (waveDie w)
    !((getIface s x.vif).frozen && (getIface s x.vif).exempt == (getCrew s x.crew).launch + 1) &&
    u.batches.foldl (fun a b => a + b.units) 0 + n ≤ u.units
  | .grow => false
  | .sysop => false
  | .pop q => !(queueOf s w q).isEmpty
  | .push q => (queueOf s w q).length < 8

/-- Lanes that can issue together: at a header, or inside a stroke as a continuation (by its place among the wave's own). -/
structure Group where
  lanes : Lanes := 0
  pc : DWord := 0
  head : DWord := 0
  mid : Bool := false
  slot : Option Nat := none
  deriving DecidableEq, Repr

/-- The lanes at one PC, of the lanes `m`. -/
def lanesAt (x : Wave) (m : Lanes) (pc head : DWord) (mid : Bool) : Lanes :=
  maskOf ((lanesOf m).filter (fun l => let y := getLane x l; y.pc == pc && y.mid == mid && (!mid || y.head == head)))

/-- The groups of a wave: its ready lanes by PC, and its continuations. -/
def groupsOf (s : State) (w : Nat) : List Group :=
  let x := getWave s w
  let conts := x.conts.filter (fun c => condMet s w c.cond && !c.kept)
  let m := readyLanes x ||| (conts.filter (fun c => c.pc == c.head)).foldl (fun m c => m ||| c.lanes) 0
  let keys := ((lanesOf m).map (fun l => let y := getLane x l; (y.pc, if y.mid then y.head else y.pc, y.mid))).eraseDups
  keys.map (fun k => { lanes := lanesAt x m k.1 k.2.1 k.2.2, pc := k.1, head := k.2.1, mid := k.2.2 })
    ++ (conts.filter (fun c => c.pc != c.head)).map (fun c =>
        { lanes := c.lanes, pc := c.pc, head := c.head, mid := true, slot := c.slot })

/-- A group can start: a continuation at once, a stroke when its waits are met and its engines accept; a stroke that will fault
does not wait for more than its header names. -/
def startable (s : State) (w : Nat) (g : Group) : Bool :=
  let x := getWave s w
  if g.mid then true
  else match fetchHead s w g.pc with
    | .error _ => true
    | .ok (_, p0, p1) =>
      waitsMet x p0 p1 && countersLow x && (match readStroke s w g.pc with | .ok st => enginesAccept s w st | .error _ => true)

/-- The group of the most lanes, and of these the lowest address (R18). -/
def bestGroup (l : List Group) : Option Group :=
  l.foldl (fun b g => match b with
    | none => some g
    | some h =>
      let n := popCount g.lanes.toNat 32
      let k := popCount h.lanes.toNat 32
      if n > k || (n == k && g.pc.toNat < h.pc.toNat) then some g else some h) none

/-- The groups that a wave can start. -/
def startGroups (s : State) (w : Nat) : List Group :=
  let x := getWave s w
  if x.status != .running || x.pathA.on || x.pathB.on || !(getWave s (mainWave s w)).reinject.isEmpty then []
  else (groupsOf s w).filter (startable s w)

/-- Path A, and path B where two strokes pair: a continuation never pairs, a stepping wave issues path A alone (R28, R420). -/
def choosePaths (x : Wave) (gs : List Group) : Option (Group × Option Group) :=
  match bestGroup gs with
  | none => none
  | some a =>
    if a.mid || stepping x then some (a, none)
    else some (a, bestGroup (gs.filter (fun g => !g.mid && g != a)))

/-! ### Starting paths -/

/-- A path that starts a stroke, or resumes in one. -/
def pathFor (s : State) (w : Nat) (g : Group) : Except (Nat × List Word) Path :=
  if g.mid then
    match resumeStroke s w g.head g.pc with
    | .ok (st, i) => .ok { on := true, lanes := g.lanes, pc := g.pc, head := g.head, idx := i, count := headCount st.p0
                           fall := st.fall, page := st.page, cont := true }
    | .error e => .error e
  else
    match readStroke s w g.pc with
    | .ok st => .ok { on := true, lanes := g.lanes, pc := g.pc + 8, head := g.pc, count := headCount st.p0, fall := st.fall, page := st.page }
    | .error e => .error e

/-- The slot of a path that starts: the one that its continuation keeps, or what stands there, as a return has restored it; one that
stands for another continuation is that one's (R127). -/
def startSlot (x : Wave) (b : Bool) (g : Group) : Nat :=
  match g.slot with
  | some v => v
  | none => if x.conts.any (fun c => (c.path == 1) == b && c.slot.isSome) then 0 else slotOf x b

/-- Install a path. -/
def putPath (s : State) (w : Nat) (b : Bool) (g : Group) (p : Path) : State :=
  let s := modWave s w (fun x =>
    let x := { x with conts := x.conts.filter (fun c => c.lanes &&& g.lanes == 0) }
    setSlot (setPath x b p) b (startSlot x b g))
  bump s 0 (waveCore w) 1

/-- Start the chosen paths. A fault at path A starts neither; one at path B comes behind path A's first instruction (R407). -/
def startPaths (s : State) (w : Nat) (a : Group) (b : Option Group) : State :=
  match pathFor s w a with
  | .error e => strokeFault s w false a.lanes a.pc e
  | .ok pa =>
    match b with
    | none => putPath s w false a pa
    | some g =>
      match pathFor s w g with
      | .error e => modWave (putPath s w false a pa) w (fun x =>
          setPath x true { on := true, lanes := g.lanes, pc := g.pc, head := g.pc, bad := some e })
      | .ok pb => bump (putPath (putPath s w false a pa) w true g pb) 1 (waveCore w) 1

/-! ### Arbitration (R26, R32, R306) -/

/-- The waves of a core, by number. -/
def coreWaves (s : State) (core : Nat) : List Nat := (allWaves s).filterMap (fun kv => if waveCore kv.1 = core then some kv.1 else none)

/-- A port of the core is free. -/
def portFree (s : State) (core : Nat) : Bool :=
  ((coreWaves s core).filter (fun w => let x := getWave s w; x.pathA.on || x.pathB.on)).length < Config.portsPerCore

/-- The ready waves of a core. -/
def readyWaves (s : State) (core : Nat) : List Nat := (coreWaves s core).filter (fun w => !(startGroups s w).isEmpty)

/-- The level of a wave (R125). -/
def levelOf (x : Wave) : Nat := prio x - boff x

/-- The wave that the level and the round-robin pointers choose. -/
def arbiterChoice (s : State) (core : Nat) (l : List Nat) : Option Nat :=
  let top := l.foldl (fun m w => max m (levelOf (getWave s w))) 0
  let ptr := smGet (getCore s core).rr 0 top
  (l.filter (fun w => levelOf (getWave s w) == top)).foldl (fun b w => match b with
    | none => some w
    | some v => if (waveSlot w + 64 - ptr) % 64 < (waveSlot v + 64 - ptr) % 64 then some w else some v) none

/-- A crew is frozen, or has a wave that has not ended. -/
def crewUnfinished (s : State) (c : Crew) : Bool :=
  c.saved != .placed || c.slots.any (fun w => let x := getWave s w; x.status != .ended && x.status != .absent)

/-- The wave belongs to the lowest-numbered unfinished crew of its launch. -/
def lowestCrew (s : State) (w : Nat) : Bool :=
  let c := getCrew s (getWave s w).crew
  s.crews.all (fun kv => kv.2.launch != c.launch || vifPkg kv.2.vif != vifPkg c.vif || c.idx ≤ kv.2.idx || !crewUnfinished s kv.2)

/-- The wave that the forward-progress rule favours: ready through 256 arbitrations without a port. DESIGN CHOICE (log entry 57): of
several, the first in the order of `allWaves`. -/
def overdue (s : State) (core : Nat) : Option Nat :=
  (readyWaves s core).find? (fun w => (getWave s w).starved ≥ 256 && lowestCrew s w)

/-- Wave `w` wins a port of its core; the ready waves that lost count it. -/
def winPort (s : State) (core w : Nat) : State :=
  let ready := readyWaves s core
  let s := (coreWaves s core).foldl (fun s v =>
    modWave s v (fun x => { x with starved := if v = w then 0 else if ready.contains v then x.starved + 1 else 0 })) s
  match choosePaths (getWave s w) (startGroups s w) with
  | some (a, b) => startPaths s w a b
  | none => s

/-- The depth-first mode holds a wave back at every second win: its node has SP set, and its batch is not its node's lowest, whose crew the
mode never holds back (R326). DEDUCED (log entry 58). -/
def spHeld (s : State) (w : Nat) : Bool :=
  let c := getCrew s (getWave s w).crew
  match ((getPkg s (vifPkg c.vif)).launches.find? (fun l => l.id == c.launch)).bind (·.batch) with
  | none => false
  | some (die, bin, num) => (getUnit s die).depthFirst && (getNode s die bin).testBit 80 && !lowestBatch (getUnit s die) bin num

/-- The winner among waves: those that the mode passes over this time are left out. -/
def arbiterPick (s : State) (core : Nat) : Nat → List Nat → State × Option Nat
  | 0, _ => (s, none)
  | n + 1, l =>
    match arbiterChoice s core l with
    | none => (s, none)
    | some w =>
      let held := spHeld s w
      if held && (getWave s w).passed then arbiterPick (modWave s w (fun x => { x with passed := false })) core n (l.erase w)
      else (modWave s w (fun x => { x with passed := held }), some w)

def execIssueArbitration (core : Nat) (s : State) : Out :=
  if !portFree s core || (overdue s core).isSome then .next s else
  match arbiterPick s core (readyWaves s core).length (readyWaves s core) with
  | (s, none) => .next s
  | (s, some w) =>
    let lv := levelOf (getWave s w)
    let s := modCore s core (fun c => { c with rr := smSet c.rr 0 lv ((waveSlot w + 1) % 64) })
    .next (winPort s core w)

/-- DESIGN CHOICE (log entry 57): a port won by the override leaves the level's round-robin pointer as it is. -/
def execProgressOverride (core : Nat) (s : State) : Out :=
  if !portFree s core then .next s else
  match overdue s core with
  | none => .next s
  | some w => .next (winPort (if arbiterChoice s core (readyWaves s core) = some w then s else bump s 3 core 1) core w)

/-- A continuation's condition has come; one that begins at a header leaves its lanes to start that stroke as others do. -/
def execContinuationReady (w i : Nat) (s : State) : Out :=
  match (getWave s w).conts[i]? with
  | none => .next s
  | some c =>
    if !condMet s w c.cond then .next s
    else .next (modWave s w (fun x =>
      if c.pc == c.head then { x with conts := x.conts.eraseIdx i }
      else { x with conts := x.conts.set i { c with cond := .now } }))

end Sys2Proof.Machine
end

