-- ==== Sys2Proof/Machine/Traps.lean ====
section
/-! DEFINITION. The delivery of a trap (R408), and how the instruction of a replay entry enters its unit again (R418). -/

namespace Sys2Proof.Machine

/-! ### Delivery (R408) -/

/-- Every replay entry of a wave and of its partner has passed its last check. -/
def entriesClosed (s : State) (w : Nat) : Bool :=
  entriesOpen s w == 0 && (match (getWave s w).partner with | some q => entriesOpen s q == 0 | none => true)

/-- A stopped wave with a cause that stands undelivered can take its trap, once its crew is not spilled (R159) and no entry of an earlier
return still waits to be issued again (R418). -/
def trapDue (s : State) (w : Nat) : Bool :=
  (getWave s w).status == .stopped && !(getWave s w).pend.isEmpty && (getWave s w).reinject.isEmpty && entriesClosed s w && !(getCrew s (getWave s w).crew).spilled

def execTrapDelivery (w : Nat) (s : State) : Out := if trapDue s w then .next (takeTrap s w) else .next s

/-! ### Re-injection (R418) -/

/-- The operands D, A, B and C that a replay entry captured. -/
def rOp (r : Replay) (i : Nat) : Nat := r.operands.getD i 0

/-- A memory operation as its entry issues it again: its words give its kind, its entry the rest. -/
def againOp (s : State) (w : Nat) (r : Replay) (o : Op) : Op :=
  { o with w := w, path := r.path, pc := r.ipc, parcels := r.parcels, order := r.order, scope := r.scope
           ex := r.rlanes &&& live (getWave s w), vlimit := 8 * (getWave s w).gran, entry := true }

/-- A check at the issue of an instruction fails as its entry issues it again: a precise cause, no lane of it executes, and its entry stays
to issue again (R242, R418, R423; log entry 65). -/
def againFault (s : State) (w : Nat) (r : Replay) (wide : Bool) (own : List (Nat × Nat)) (addr : Nat) : State :=
  let cause := own.foldl (fun c x => if c = 0 then x.2 else min c x.2) 0
  let q := { r with ecause := cause, rlanes := r.rlanes &&& live (getWave s w), seq := s.nextId }
  let s := modWave { s with nextId := s.nextId + 1 } w (fun x =>
    addReplay (if wide then x else own.foldl (fun x lc => markLanes x (laneBit lc.1) lc.2) x) q)
  raise s w { cause := cause, rank := r.path + 1, path := r.path, parcels := r.parcels, addr := addr
              lanes := if wide then q.rlanes else maskOf ((own.filter (fun x => x.2 == cause)).map (·.1)) }

/-- Enter a memory operation again, past the checks of R242. -/
def enterAgain (s : State) (w : Nat) (r : Replay) (o : Op) : State :=
  let own := laneFaults s w o
  if !own.isEmpty then againFault s w r (!o.operands.isEmpty) own (((o.lanes.filter (fun a => own.any (fun x => x.1 == a.lane))).map (·.addr)).headD 0) else
  let s := modWave s w (fun x => raiseCount x o.counter)
  enterOp s { o with lanes := o.lanes.map (fun a => { a with stage := firstStage s w o.space (opAcc o.kind) a.addr }) }

/-- The lanes of a per-lane entry that are still live. -/
def againLanes (s : State) (w : Nat) (r : Replay) : List LaneAcc :=
  (lanesOf (r.rlanes &&& live (getWave s w))).map (fun l => match r.lanes.find? (fun a => a.lane == l) with
    | some a => { lane := l, addr := a.addr, data := a.data }
    | none => { lane := l })

/-- A per-lane access again. -/
def againLane (s : State) (w : Nat) (r : Replay) (o : Op) : State :=
  let q := { againOp s w r o with lanes := againLanes s w r }
  if !isNet o.kind then enterAgain s w r q
  else
    let s := focus s w
    let own := q.lanes.filterMap (fun a => (netCause s q.kind (opBytes q) a.addr).map (fun c => (a.lane, c)))
    if !own.isEmpty then againFault s w r false own (((q.lanes.filter (fun a => own.any (fun x => x.1 == a.lane))).map (·.addr)).headD 0)
    else enterNet s q

/-- A wave-wide memory operation again, from its operands. -/
def againWide (s : State) (w : Nat) (r : Replay) (o : Op) : State :=
  enterAgain s w r { againOp s w r o with operands := r.operands }

/-- A tile operation again: at once into its engine (R293, R283). -/
def againTile (s : State) (w : Nat) (r : Replay) (i : Instr) (tile : Nat) (ra rb rc : ObRec) : State :=
  let x := getWave s w
  let o : TileOp :=
    { w := w, path := r.path, instr := i, pc := r.ipc, parcels := r.parcels, crew := x.crew, tile := tile, ra := ra, rb := rb, rc := rc
      operands := r.operands, lanes := r.rlanes &&& live x, vlimit := 8 * x.gran, t0 := some r.t0, resumed := true, seq := s.nextId }
  enterEngine (modWave { s with nextId := s.nextId + 1 } w (fun x => { x with tile := x.tile + 1 })) (waveCore w) [o]

/-- A copy or plane command again, at the end of its channel. -/
def againCopy (s : State) (w : Nat) (r : Replay) (i : Instr) (f : F64P) (rec0 : ObRec) : State :=
  let x := getWave s w
  let ch := fnBits f.r.fn 2 0
  let c : Command :=
    { id := s.nextId, w := w, path := r.path, crew := x.crew, pc := r.ipc, lanes := r.rlanes &&& live x, instr := i
      w0 := f.w0, w1 := f.w1, w2 := f.w2, w3 := f.w3, vd := rOp r 0, va := rOp r 1, vb := rOp r 2, vc := rOp r 3, rec0 := rec0, replayed := true }
  let s := modWave { s with nextId := s.nextId + 1 } w (fun x => { x with cpy := x.cpy + 1 })
  let s := slotBegin s (getCrew s x.crew) (cmdCopy c).bv (cmdCopy c).slot
  modCore s (waveCore w) (fun k => { k with chan := smMod k.chan [] ch (fun q => q ++ [c]) })

/-- A gather-pool command again, at the end of its engine's queue. -/
def againGather (s : State) (w : Nat) (r : Replay) (i : Instr) (f : F64P) : State :=
  let x := getWave s w
  let c : Command :=
    { id := s.nextId, w := w, path := r.path, crew := x.crew, pc := r.ipc, lanes := r.rlanes &&& live x, instr := i
      w0 := f.w0, w1 := f.w1, w2 := f.w2, w3 := f.w3, vd := rOp r 0, va := rOp r 1, vb := rOp r 2, vc := rOp r 3
      seq := x.seqGather, replayed := true }
  let s := modWave { s with nextId := s.nextId + 1 } w (fun x => { x with eng := x.eng + 1, seqGather := (x.seqGather + 1) % 2 ^ 32 })
  let s := slotBegin s (getCrew s x.crew) (cmdGather c).bv (cmdGather c).slot
  { s with gathers := smMod s.gathers [] (coreCluster (waveCore w)) (fun l => l ++ [c]) }

/-- `SPAWN` again from its replay entry, with the bin that its scalar names now. -/
def againSpawn (s : State) (w : Nat) (r : Replay) (f : F64R) : Option State :=
  let bin := sOrImm (getWave s w) f.cb f.b
  let m := r.rlanes &&& live (getWave s w)
  if bin ≥ 4096 || nodeSize (getNode s (waveDie w) bin) = 0 then some (againFault s w r true [(0, 0x20B)] 0)
  else if unitsStopped s w then none
  else (appendAll s (waveDie w) bin (spawnRecords s w f.a.toNat bin m)).map (fun y => spawnFault y.1 w r.path r.ipc f y.2)

end Sys2Proof.Machine
end

