-- ==== Sys2Proof/Machine/Save.lean ====
section
/-! DEFINITION. Draining a crew, its record, and its placement again (R426, R427, R434, R438, R483, R430), and the dispatcher's
pass (R304, R305, R23). -/

namespace Sys2Proof.Machine

/-! ### Runs of bytes -/

/-- A run of bytes: its length, and its number with the lowest byte first. -/
abbrev Piece := Nat × Nat

def cat (l : List Piece) : Piece := l.foldr (fun p r => (p.1 + r.1, p.2 % 256 ^ p.1 + 256 ^ p.1 * r.2)) (0, 0)
def alignUp (n a : Nat) : Nat := (n + a - 1) / a * a
def padTo (a : Nat) (p : Piece) : Piece := (alignUp p.1 a, p.2)

/-- `n` items of `size` bytes. -/
def row (size n : Nat) (f : Nat → Nat) : Piece := cat ((List.range n).map (fun i => (size, f i)))

/-- Fields at offsets within `n` bytes. -/
def fieldsPiece (n : Nat) (fs : List (Nat × Nat × Nat)) : Piece := (n, fs.foldl (fun a f => a + f.2.2 % 256 ^ f.2.1 * 256 ^ f.1) 0)

/-! ### The area of an operation (R425, R449) -/

/-- Write a run of bytes at a virtual address as system-scope stores. -/
def writeArea (s : State) (vif va : Nat) (p : Piece) : State × Except Nat Unit :=
  match writeVirt s vif (frontDie vif) va false (natBytes p.1 p.2) with
  | (s, .ok ()) => (flushFar s (vifPkg vif) (fun _ => true), .ok ())
  | (s, .error c) => (s, .error c)

/-- Read `n` bytes of an area, granule by granule; poison in it is no fault. -/
def readAreaBy (fuel : Nat) (s : State) (vif va n : Nat) : State × Except Nat (List Byte) :=
  match fuel with
  | 0 => (s, .ok [])
  | f + 1 =>
    if n = 0 then (s, .ok []) else
    if !canonical va then (s, .error 0x104) else
    match translate s vif (frontDie vif) va 0 false with
    | (s, .error c) => (s, .error c)
    | (s, .ok t) =>
      let k := runLen va t.pa n
      let (s, x) := readDie s (frontDie vif) t.pa k
      match readAreaBy f s vif ((va + k) % 2 ^ 64) (n - k) with
      | (s, .ok r) => (s, .ok (natBytes k x ++ r))
      | (s, .error c) => (s, .error c)

def readArea (s : State) (vif va n : Nat) : State × Except Nat Nat :=
  match readAreaBy n s vif va n with
  | (s, .ok l) => (s, .ok (bytesNat l))
  | (s, .error c) => (s, .error c)

/-- The poison of the granule of an area that holds a virtual address, read and set. -/
def areaPoison (s : State) (vif va : Nat) : Bool :=
  match (translate s vif (frontDie vif) va 0 false).2 with | .ok t => poisoned s t.pa 1 | .error _ => false

def poisonArea (s : State) (vif va : Nat) : State :=
  match (translate s vif (frontDie vif) va 1 false).2 with | .ok t => setPoison s t.pa true | .error _ => s

/-! ### Stopping and draining a crew (R426, R427) -/

/-- Read a spilled crew's registers back: its record holds them. -/
def unspill (s : State) (ci : Nat) : State :=
  let c := getCrew s ci
  if !c.spilled then s else
  match loadGran s c.core c.vif c.blocks with
  | (s, .error e) => haltCrew s c e
  | (s, .ok ()) => modCrew s ci (fun c => { c with blocks := [] })

/-- Step 1: the crew's waves stop as for a precise event, and their waits are withdrawn. -/
def stopCrew (s : State) (ci : Nat) : State :=
  let s := unspill s ci
  let stop (x : Wave) : Wave :=
    match x.status with
    | .running | .stopped | .held | .spilled => { syncPaths x with status := .draining, turnB := false }
    | _ => x
  (getCrew s ci).slots.foldl (fun s w => withdrawWaits (modWave s w stop) w) s

/-- The commands of a crew that its channels and its cluster's engine hold, by channel, then the engine's. -/
def crewCommands (s : State) (ci : Nat) : List (Option Nat × Command) :=
  let c := getCrew s ci
  (List.range 8).flatMap (fun ch => ((smGet (getCore s c.core).chan [] ch).filter (fun k => k.crew == ci && c.slots.contains k.w)).map (fun k => (some ch, k)))
    ++ ((smGet s.gathers [] (coreCluster c.core)).filter (fun k => k.crew == ci && c.slots.contains k.w)).map (fun k => (none, k))

/-- Bytes that an unfinished copy or `PLANE` has counted into its barrier. -/
def countedBytes (c : Command) : Nat := if (cmdCopy c).bv && !cmdOut c then c.verified * cmdUnit c else 0

/-- Cancel one command: its barrier loses what it counted, its counter falls, it is recorded; the channel's `WPTR` stays. -/
def cancelCommand (s : State) (ci : Nat) (k : Option Nat × Command) : State :=
  let c := k.2
  let cr := getCrew s ci
  let drop (l : List Command) : List Command := l.filter (fun d => d.id != c.id)
  let (bv, slot) := match k.1 with
    | some _ => ((cmdCopy c).bv, (cmdCopy c).slot)
    | none => ((cmdGather c).bv, (cmdGather c).slot)
  let s := match k.1 with
    | some ch =>
      modWave (modCore s cr.core (fun q => { q with chan := smMod q.chan [] ch drop })) c.w (fun x => { x with cpy := x.cpy - 1 })
    | none => lowerEng { s with gathers := smMod s.gathers [] (coreCluster cr.core) drop } c.w
  let s := match bv, crewSlot cr slot with
    | true, some o =>
      let s := flushBar s o
      let x := (readObj s o).2
      endWork (if k.1.isSome then writeObj s o 8 6 ((objArrived x + 2 ^ 48 - countedBytes c % 2 ^ 48) % 2 ^ 48) else s) o
    | _, _ => s
  modCrew s ci (fun q => { q with cancelled := q.cancelled ++ [c] })

/-- Cancel every command of a crew that is still incomplete. -/
def cancelCrew (s : State) (ci : Nat) : State := (crewCommands s ci).foldl (fun s k => cancelCommand s ci k) s

/-- An entry waits for its register, which is full. -/
def entryStuck (s : State) (e : EngEntry) : Bool :=
  let x := getWave s e.w
  match (if x.status == .absent || x.status == .ended then none else qreg x e.code) with
  | some i => (smGet x.q [] i).length ≥ 8
  | none => false

/-- Steps 2 to 4 are over for a crew: no access, no issued tile operation, no command, no completion on its way, no operation of its own in
progress. -/
def drained (s : State) (ci : Nat) : Bool :=
  let c := getCrew s ci
  let mine (w : Nat) : Bool := c.slots.contains w
  !(s.ops.any (fun o => mine o.w)) && !((getCore s c.core).engine.any (fun o => mine o.w)) && (crewCommands s ci).isEmpty
    && c.slots.all (fun w => (getWave s w).reinject.isEmpty)
    && !((getIface s c.vif).sysop.any (fun o => o.w.any (fun w => mine w && (getWave s w).crew == o.crew)))
    && !(s.taskUnits.any (fun u => u.2.done.any (fun d => mine d.2.1))) && s.entries.all (fun e => !mine e.w || entryStuck s e)

/-! ### The record of a crew (R434) -/

/-- Names for the waves of a crew that holds no slot, above every wave number. -/
def aliasOf (ci idx : Nat) (shadow : Bool) : Nat := 2 ^ 24 + 256 * ci + 2 * idx + (if shadow then 1 else 0)

/-- The pending cause of a wave record, 20 bytes. -/
def pendNat (s : State) (w : Nat) : Nat :=
  let x := getWave s w
  match (choosePending x.pend).map (gatherCause s w) with
  | none => 0
  | some p =>
    let fl := (if p.shadow then 1 else 0) + (if x.partner.isSome then 2 else 0) + (if x.stepped || (match x.partner with | some q => (getWave s q).stepped | none => false) then 4 else 0)
    (cat [(2, p.cause), (1, fl), (1, p.path), (4, p.lanes.toNat), (4, p.detail), (8, p.addr)]).2

/-- A lane record with the lane's predicate bits in bytes 22 and 23. -/
def savedLane (x : Wave) (l : Nat) : Nat :=
  laneRecord x l + 2 ^ 176 * (List.range 12).foldl (fun a n => if (pGet x n).getLsbD l then a + 2 ^ n else a) 0

/-- A queue register: its count, then its entries, oldest first. -/
def savedQueue (x : Wave) (i : Nat) : Piece :=
  let q := smGet x.q [] i
  (1040, (cat ([(4, q.length), (12, 0)] ++ q.map (fun e => (128, e.toNat)))).2)

/-- The address of the frame of a wave whose handler runs, else 0: log entry 17. -/
def savedFrame (s : State) (w : Nat) : Nat := if inTrap (getWave s w) then frameAddr s w else 0

def waveRecord (s : State) (w : Nat) : Piece :=
  let x := getWave s w
  let opc0 := x.ld % 256 + 2 ^ 8 * (x.st % 256) + 2 ^ 16 * (x.cpy % 256) + 2 ^ 24 * (x.tile % 256)
  padTo 256 (cat (
    [(4, x.wsw.toNat), (4, x.fcsr.toNat), (4, x.ordp.toNat), (4, opc0), (4, x.eng % 256), (4, x.qmap0.toNat), (4, x.qmap1.toNat), (4, x.gran)
    , (8, x.tvbase.toNat), (1, x.idx), (1, if x.shadow then 1 else 0), (1, x.replay.length), (1, if inTrap x then 1 else 0)
    , (20, pendNat s w), (32, x.sig.toNat), row 4 12 (fun i => (kGet x i).toNat)
    , (8, savedFrame s w), (4, x.seqGather), (4, x.seqNet), (4, x.seqMsg), (92, 0)
    , row 4 128 (sGet x), row 32 32 (savedLane x)
    , row 128 32 (fun l => (row 8 (getLane x l).stack.length (fun e => ((getLane x l).stack.reverse.getD e 0).toNat)).2)]
    ++ (List.range 16).map (savedQueue x)
    ++ x.replay.map (fun r => fieldsPiece 1024 (replayFields 0 r))
    ++ [row 4 (256 * x.gran) (fun i => vGet x (i / 32) (i % 32))]))

/-- A set or free reservation record, 16 bytes. -/
def savedOb (c : Crew) (n : Nat) : Nat :=
  let r := getOb c n
  (cat [(4, r.w0.toNat), (4, r.w1.toNat % 2 ^ 31 + (if r.set then 2 ^ 31 else 0)), (4, r.w2.toNat), (4, r.w3.toNat)]).2

def snapshot (r : ObRec) : List Piece := [(4, r.w0.toNat), (4, r.w1.toNat), (4, r.w2.toNat), (4, r.w3.toNat)]

/-- A convergence register with its armed operations, 512 bytes. -/
def savedCv (s : State) (c : Crew) (n : Nat) : Piece :=
  let v := getCv c n
  let arm (o : TileOp) : List Piece :=
    [(1, (getWave s o.w).idx), (1, o.tile), (1, match o.instr with | .mma64 f => f.fn.toNat | _ => 0), (1, 0)] ++ snapshot o.ra ++ snapshot o.rb ++ [(4, 0)]
  (512, (cat ([(2, v.first), (2, v.count), (2, v.round), (1, v.credit), (1, v.arm.length), (128, v.signed.toNat)] ++ v.arm.flatMap arm)).2)

/-- A cancelled command, 64 bytes, and what the model adds behind the waves (log entry 17): its wave, path, lanes and address. -/
def savedCommand (c : Command) : Piece :=
  let ps := encode c.instr
  cat ([(4, (ps.getD 0 0).toNat), (4, (ps.getD 1 0).toNat), (4, c.w0.toNat), (4, c.w1.toNat), (4, c.w2.toNat), (4, c.w3.toNat)]
    ++ [(8, c.vd), (8, c.va), (8, c.vb), (8, c.vc), (8, 0)])

def savedOrigin (s : State) (c : Command) : Piece :=
  let x := getWave s c.w
  cat [(1, x.idx), (1, if x.shadow then 1 else 0), (1, c.path), (1, 0), (4, c.lanes.toNat), (8, c.pc.toNat)]

/-- The counting unit's state of a bench slot, 64 bytes. -/
def savedSlot (s : State) (c : Crew) (n : Nat) : Nat :=
  match crewSlot c n with | some o => (getBar s o).sig.toNat | none => 0

/-- The channel of a copy or a plane. -/
def cmdChannel (c : Command) : Option Nat :=
  match c.instr with | .cpy64 f => some (fnBits f.r.fn 2 0) | .plane64 f => some (fnBits f.r.fn 2 0) | _ => none

/-- The `WPTR` of a channel as the record holds it: as it stood before the first command that a drain cancelled had started (R427). -/
def savedWptr (s : State) (c : Crew) (ch : Nat) : Nat :=
  if !c.chans.testBit ch then 0 else
  match c.cancelled.find? (fun k => k.started && cmdChannel k == some ch) with
  | some k => (withPos k.wptr0 (k.wptr0.toNat % 2 ^ 31) false).toNat
  | none => (getWptr s c.core ch).toNat

/-- Behind the wave records the model keeps (log entry 17): the bench slots that are tracked, and what each wave captured for its return. -/
def savedTracked (s : State) (c : Crew) : Nat :=
  (List.range 64).foldl (fun a n => match crewSlot c n with | some o => if (getBar s o).tracked then a + 2 ^ n else a | none => a) 0
def savedCapture (x : Wave) : Piece := cat [row 8 32 (fun l => (smGet x.capPc 0 l).toNat), (4, x.capLive.toNat), (4, 0)]

/-- The waves of a crew in the order of its record: each compute wave, then its shadow. -/
def recordOrder (s : State) (c : Crew) : List Nat :=
  let comp := c.slots.filter (fun w => !(getWave s w).shadow)
  let sh := c.slots.filter (fun w => (getWave s w).shadow)
  let pairs := comp.flatMap (fun w => w :: sh.filter (fun q => (getWave s w).partner == some q))
  pairs ++ sh.filter (fun q => !pairs.contains q)

/-- Barrier slots of a crew as its counting unit holds them after every arrival. -/
def flushSlots (s : State) (c : Crew) : State :=
  (List.range 64).foldl (fun s n => match crewSlot c n with | some o => flushBar s o | none => s) s

/-- The record of a crew. -/
def crewRecord (s : State) (ci entry : Nat) : Piece :=
  let c := getCrew s ci
  let ws := recordOrder s c
  let comp := (ws.filter (fun w => !(getWave s w).shadow)).length
  let pending := ws.any (fun w => !(getWave s w).pend.isEmpty)
  let fl := (if c.shadow then 1 else 0) + (if pending then 2 else 0) + (if c.spilled then 4 else 0)
  let rest := cat (
    [(4, c.cancelled.length), row 8 8 (savedWptr s c), (1, c.chans), (1, 0), (1, ws.length), (165, 0)]
    ++ (List.range 8).map (savedCv s c)
    ++ [row 16 32 (savedOb c), row 4 8 (fun t => (tileStat c t).toNat), (224, 0)]
    ++ (List.range c.tiles.length).map (fun t => row 4 4096 (fun n => cellOf c t (n / 64) (n % 64)))
    ++ [(c.benchSize, cRead s c 0 c.benchSize), row 64 64 (savedSlot s c)])
  let cmds := cat (c.cancelled.map savedCommand)
  let body := padTo 256 (cat ([(20, 0), rest, cmds]))
  let tail := padTo 256 (cat (ws.map (waveRecord s) ++ [(8, savedTracked s c)] ++ ws.map (fun w => savedCapture (getWave s w))
    ++ c.cancelled.map (savedOrigin s)))
  let all := cat [body, tail]
  let head := cat [(4, entry), (4, c.idx), (2, c.threads), (1, comp), (1, fl), (2, c.benchSize / 256), (1, coreDie c.core % 2), (1, c.bound), (4, all.1)]
  (all.1, all.2 + head.2)

/-! ### Taking a crew off its core -/

/-- The length of a wave record with `n` replay entries and `g` granules, and the offset of its register granule `k`: four for each vector
register, then from 1024 eight scalars each. -/
def waveRecLen (n g : Nat) : Nat := alignUp (0x5800 + 0x400 * n + 1024 * g) 256
def regOffset (n k : Nat) : Nat := if k < 1024 then 0x5800 + 0x400 * n + 32 * k else 0x100 + 32 * (k - 1024)

/-- The poisoned register granules of waves whose records follow from an offset. -/
def poisonedRegs (s : State) (off : Nat) : List Nat → List Nat
  | [] => []
  | w :: rest =>
    let x := getWave s w
    x.poison.map (fun kv => off + regOffset x.replay.length kv.1) ++ poisonedRegs s (off + waveRecLen x.replay.length x.gran) rest

/-- Poisoned granules of a crew's tiles, bench and registers, as offsets of its record (R449). -/
def poisonedOffsets (s : State) (c : Crew) : List Nat :=
  let bench := 0x1400 + 16384 * c.tiles.length
  c.cellPoison.map (fun kv => 0x1400 + 32 * kv.1) ++ (List.range (c.benchSize / 32)).filterMap (fun i =>
    if smGet s.benchPoison false (crewBench c 0 / 32 + i) then some (bench + 32 * i) else none)
    ++ poisonedRegs s (alignUp (bench + c.benchSize + 4096 + 64 * c.cancelled.length) 256) (recordOrder s c)

/-- What still names a wave of the crew names its alias. -/
def renameWave (s : State) (a b : Nat) : State :=
  { s with
    entries := s.entries.map (fun e => if e.w == a then { e with w := b } else e)
    ctxs := s.ctxs.map (fun kv => if kv.2.w == a && kv.2 != {} then (kv.1, { kv.2 with w := b }) else kv) }

/-- Step 5: the release that a move owes (R237). -/
def releaseCrew (s : State) (ci scope : Nat) : State := (getCrew s ci).slots.foldl (fun s w => releaseSteps s w scope) s

/-- The crew leaves its core; what is left says where its record stands. -/
def takeOff (s : State) (ci : Nat) (where' : Saved) : State :=
  let c := getCrew s ci
  let s := c.slots.foldl (fun s w =>
    let x := getWave s w
    setWave (renameWave s w (aliasOf ci x.idx x.shadow)) w {}) s
  let inBench (o : Nat) : Bool := o % 2 == 0 && objCore o == c.core && c.benchBase ≤ o / 2 % 16384 * 32 && o / 2 % 16384 * 32 < c.benchBase + c.benchSize
  let s := { s with bars := s.bars.filter (fun kv => !inBench kv.1) }
  modCrew s ci (fun c => { launch := c.launch, idx := c.idx, core := c.core, vif := c.vif, threads := c.threads, shadow := c.shadow
                           bound := c.bound, saved := where' })

/-! ### What a record asks of a core (R483) -/

/-- Wave records from an offset: offset, granules, shadow. -/
def walkRecords (r off : Nat) : Nat → List (Nat × Nat × Bool)
  | 0 => []
  | n + 1 =>
    let g := bytesAt r (off + 0x1C) 4 % 64
    (off, g, bytesAt r (off + 0x29) 1 == 1) :: walkRecords r (off + waveRecLen (bytesAt r (off + 0x2A) 1) g) n

def recBench (r : Nat) : Nat := 256 * bytesAt r 0xC 2
def recCancelled (r : Nat) : Nat := bytesAt r 0x14 4
def recSlots (r nt : Nat) : Nat := 0x1400 + 16384 * nt + recBench r
def recWaves (r nt : Nat) : List (Nat × Nat × Bool) :=
  walkRecords r (alignUp (recSlots r nt + 4096 + 64 * recCancelled r) 256) (bytesAt r 0x5A 1)

/-- Granules: each wave's, and 8 for each compute wave of a launch with shadows. -/
def recGranules (r nt : Nat) (sh : Bool) : Nat :=
  (recWaves r nt).foldl (fun a x => a + x.2.1 + (if sh && !x.2.2 then 8 else 0)) 0

/-- A record at an offset: its reserved bits read as zero (R5, R270). -/
def obAt (r o : Nat) : ObRec :=
  { w0 := BitVec.ofNat 32 (bytesAt r o 4) &&& 0x7FFFFFFF, w1 := BitVec.ofNat 32 (bytesAt r (o + 4) 4) &&& 0xFBFF
    w2 := BitVec.ofNat 32 (bytesAt r (o + 8) 4) &&& 0x7FFFF, w3 := BitVec.ofNat 32 (bytesAt r (o + 12) 4) &&& 0x7FFFF }

/-- The set records by number, and the armed operations: register, wave index, tile, FN, the two snapshots. -/
def recObs (r : Nat) : List (Nat × ObRec) :=
  (List.range 32).filterMap (fun n => if natBits (bytesAt r (0x1104 + 16 * n) 4) 31 31 = 1 then some (n, obAt r (0x1100 + 16 * n)) else none)

def recArmed (r : Nat) : List (Nat × Nat × Nat × Nat × ObRec × ObRec) :=
  (List.range 8).flatMap (fun n =>
    let o := 0x100 + 512 * n
    (List.range (bytesAt r (o + 7) 1)).map (fun k =>
      let q := o + 136 + 40 * k
      (n, bytesAt r q 1, bytesAt r (q + 1) 1, bytesAt r (q + 2) 1, obAt r (q + 4), obAt r (q + 20))))

/-- Take runs of units, lowest first, for records and then for armed operands; an operand equal to a record shares its run. -/
def takeRuns (used : List (Nat × Nat)) (have' : List ObRec) : List ObRec → Option (List ObRec)
  | [] => some []
  | x :: rest =>
    match have'.find? (fun y => { y with unit := 0, set := false } == x) with
    | some y => (takeRuns used have' rest).map (fun l => y :: l)
    | none => match freeRun used (recObn x) with
      | none => none
      | some u => (takeRuns ((u, recObn x) :: used) have' rest).map (fun l => { x with unit := u, set := true } :: l)

/-- The records with their units, then the armed operands with theirs, two for each operation. -/
def unitsOf (used : List (Nat × Nat)) (r : Nat) : Option (List ObRec × List ObRec) :=
  match takeRuns used [] ((recObs r).map (·.2)) with
  | none => none
  | some obs =>
    (takeRuns (obs.map (fun x => (x.unit, recObn x)) ++ used) obs ((recArmed r).flatMap (fun a => [a.2.2.2.2.1, a.2.2.2.2.2]))).map (fun l => (obs, l))

/-- A core with nothing on it could take the crew (R435). -/
def fitsEmpty (p r : Nat) : Bool :=
  (recWaves r (lNtile p)).length ≤ Config.slotsPerCore && recGranules r (lNtile p) (lShadow p) ≤ Config.granulesPerCore
    && recBench r ≤ Config.benchBytes && lNtile p ≤ 8 && lNcv p ≤ 8 && lNob p ≤ 32 && (unitsOf [] r).isSome

/-- Gather-pool commands among the cancelled ones of a record. -/
def recGathers (r nt : Nat) : Nat :=
  ((List.range (recCancelled r)).filter (fun i =>
    match decode ((List.range 6).map (fun k => BitVec.ofNat 32 (bytesAt r (recSlots r nt + 4096 + 64 * i + 4 * k) 4))) with
    | .ok (.gather64 _, _) => true
    | .ok (.pool64 _, _) => true
    | _ => false)).length

/-- The place that a frozen crew takes on a core: its channels are empty, and its cluster's engine has room for its commands (R438, R297). -/
def frozenPlace (s : State) (p r core : Nat) : Option (Place × List ObRec × List ObRec) :=
  let quiet := (List.range 8).all (fun ch => !(bytesAt r 0x58 1).testBit ch || (smGet (getCore s core).chan [] ch).isEmpty)
    && (smGet s.gathers [] (coreCluster core)).length + recGathers r (lNtile p) ≤ Config.gatherDepth
  if !quiet then none else
  match placeOn s core (recWaves r (lNtile p)).length (recGranules r (lNtile p) (lShadow p)) (recBench r) (lNtile p) (lNcv p) (lNob p),
      unitsOf (usedUnits s core (2 ^ 40) 0) r with
  | some q, some u => some (q, u)
  | _, _ => none

/-- A crew with a bound tag that is not PKG goes back to its die (R437). -/
def tagHome (s : State) (pkg r core : Nat) : Bool :=
  let die := 2 * pkg + bytesAt r 0xE 1 % 2
  (List.range 8).all (fun n => !(bytesAt r 0xF 1).testBit n || (smGet s.tags {} (8 * die + n)).pkg) || coreDie core == die

/-! ### Restoring a crew (R438) -/

/-- Where the model's own bytes of a record begin, if it has them: behind the wave records. -/
def recTail (r nt : Nat) : Option Nat :=
  let ends := (recWaves r nt).foldl (fun a x => max a (x.1 + waveRecLen (bytesAt r (x.1 + 0x2A) 1) x.2.1)) 0
  if ends < bytesAt r 0x10 4 then some ends else none

/-- A wave as its record at offset `o` holds it: reserved bits of its registers read as zero (R5), and a park tag that never occurs as none
(R164). -/
def waveAt (r o ci vif : Nat) (partner : Option Nat) : Wave :=
  let g (a n : Nat) : Nat := bytesAt r (o + a) n
  let lane (l : Nat) : Nat := g (0x300 + 32 * l) 32
  let opc := g 12 4
  let fl := g 0x2E 1
  let p : Pending := { cause := g 0x2C 2, rank := 4, path := g 0x2F 1, lanes := BitVec.ofNat 32 (g 0x30 4), detail := g 0x34 4, addr := g 0x38 8
                       shadow := fl.testBit 0 }
  let mask (f : Nat → Bool) : Lanes := maskOf ((List.range 32).filter f)
  let n := g 0x2A 1
  let gran := g 0x1C 4 % 64
  let x : Wave :=
    { crew := ci, idx := g 0x28 1, shadow := g 0x29 1 == 1, partner := partner, vif := vif
      wsw := setBits (BitVec.ofNat 32 (g 0 4) &&& 0x00FF7400) 11 11 (g 0x29 1 % 2), fcsr := BitVec.ofNat 32 (g 4 4) &&& 0x1F1F
      ordp := BitVec.ofNat 32 (g 8 4) &&& 0xF7F7
      ld := opc % 256, st := opc / 2 ^ 8 % 256, cpy := opc / 2 ^ 16 % 256, tile := opc / 2 ^ 24, eng := g 16 4 % 256
      qmap0 := BitVec.ofNat 32 (g 20 4), qmap1 := BitVec.ofNat 32 (g 24 4), gran := gran, tvbase := BitVec.ofNat 64 (g 0x20 8 / 8192 * 8192)
      sig := BitVec.ofNat 256 (g 0x40 32), pend := if p.cause = 0 then [] else [p], stepped := fl.testBit 2
      active := mask (fun l => (lane l).testBit 129), faulted := mask (fun l => (lane l).testBit 130)
      lcause := (List.range 32).foldl (fun m l => smSet m 0 l (bytesAt (lane l) 20 2)) []
      replay := (List.range n).map (fun i => replayOf (g (0x5800 + 0x400 * i) 1024) i)
      seqGather := g 0x98 4, seqNet := g 0x9C 4, seqMsg := g 0xA0 4 }
  let x := (List.range 12).foldl (fun x i => kPut x i (BitVec.ofNat 32 (g (0x60 + 4 * i) 4))) x
  let x := (List.range 128).foldl (fun x i => sPut x i (g (0x100 + 4 * i) 4)) x
  let x := (List.range 12).foldl (fun x i => pPut x i (mask (fun l => (bytesAt (lane l) 22 2).testBit i))) x
  let x := (List.range 32).foldl (fun x l =>
    let stack := (List.range (min 16 (bytesAt (lane l) 18 1))).map (fun e => sextPc (g (0x700 + 128 * l + 8 * e) 8))
    modLane x l (fun _ => { pc := sextPc (bytesAt (lane l) 0 8), head := sextPc (bytesAt (lane l) 8 8), mid := (lane l).testBit 131
                            park := if 1 ≤ natBits (lane l) 139 136 && natBits (lane l) 139 136 ≤ 11 then natBits (lane l) 139 136 else 15
                            tile := (lane l).testBit 140, stack := stack.reverse })) x
  let x := (List.range 16).foldl (fun x i =>
    let q := g (0x1700 + 1040 * i) 1040
    { x with q := smSet x.q [] i ((List.range (min 8 (bytesAt q 0 4))).map (fun e => BitVec.ofNat 1024 (bytesAt q (16 + 128 * e) 128))) }) x
  let x := (List.range (256 * gran)).foldl (fun x i => vPut x (i / 32) (i % 32) (g (0x5800 + 0x400 * n + 4 * i) 4)) x
  { x with status := if live x == 0 then .ended else if x.pend.isEmpty then .running else .stopped }

/-- The cells of tile `t` of a record. -/
def recCells (r t : Nat) : List Nat := (List.range 4096).map (fun n => bytesAt r (0x1400 + 16384 * t + 4 * n) 4)

/-- The crew's units, tiles, records and convergence registers. -/
def crewAt (s : State) (l : Launch) (r core : Nat) (q : Place) (obs arms : List ObRec) (ci : Nat) (waveOf : Nat → Nat) : Crew :=
  let p := l.packet.toNat
  let rs := recWaves r (lNtile p)
  let slots := rs.zipIdx.map (fun x => (x.1.2.2, q.slots.getD x.2 0))
  let c : Crew :=
    { launch := l.id, idx := bytesAt r 4 4, core := core, vif := l.vif, threads := bytesAt r 8 2, shadow := lShadow p
      waves := (slots.filter (fun x => !x.1)).length
      slots := (slots.filter (fun x => !x.1)).map (·.2) ++ (slots.filter (·.1)).map (·.2)
      benchBase := q.bench, benchSize := recBench r, tiles := q.tiles, cvs := q.cvs, obs := q.obs
      bound := bytesAt r 0xF 1, chans := bytesAt r 0x58 1
      tstat := (List.range 8).foldl (fun m t => smSet m 0 t (BitVec.ofNat 32 (bytesAt r (0x1300 + 4 * t) 4) &&& 0x3FFDF)) []
      ob := ((recObs r).zip obs).foldl (fun m x => smSet m {} x.1.1 x.2)
        ((List.range 32).foldl (fun m n => smSet m {} n (obAt r (0x1100 + 16 * n))) []) }
  let c := (List.range (lNtile p)).foldl (fun c t => setTile c t (recCells r t)) c
  let armed (n : Nat) : List TileOp := (recArmed r).zipIdx.filterMap (fun a =>
    if a.1.1 ≠ n then none else
    let f : F64R := { e := false, g := 15, d := BitVec.ofNat 8 a.1.2.2.1, a := 0, b := 0, c := BitVec.ofNat 8 n, rnd := 0, cd := 0, ca := 0, cb := 0
                      cc := 0, fn := BitVec.ofNat 6 a.1.2.2.2.1 }
    some { w := waveOf a.1.2.1, instr := .mma64 f, parcels := encode (.mma64 f), crew := ci, tile := a.1.2.2.1
           ra := arms.getD (2 * a.2) {}, rb := arms.getD (2 * a.2 + 1) {}, lanes := live (getWave s (waveOf a.1.2.1)), seq := s.nextId + a.2 })
  { c with cv := (List.range 8).foldl (fun m n =>
      let o := 0x100 + 512 * n
      smSet m {} n { first := bytesAt r o 2, count := bytesAt r (o + 2) 2, round := bytesAt r (o + 4) 2, credit := bytesAt r (o + 6) 1
                     signed := BitVec.ofNat 1024 (bytesAt r (o + 8) 128), arm := armed n }) [] }

/-- A cancelled command issues again with its words as used; `rec0` is a `PLANE`'s record where the device still holds it (R427). -/
def issueAgain (s : State) (w : Nat) (words : List Word) (e : Replay) (rec0 : Option ObRec) : State :=
  match decode words with
  | .ok (.cpy64 f, _) => againCopy s w e (.cpy64 f) f {}
  | .ok (.plane64 f, _) => againCopy s w e (.plane64 f) f (rec0.getD (getOb (getCrew s (getWave s w).crew) (f.r.d.toNat % 32)))
  | .ok (.gather64 f, _) => againGather s w e (.gather64 f) f
  | .ok (.pool64 f, _) => againGather s w e (.pool64 f) f
  | _ => s

/-- The crew goes on where it stands; a shadow stays held while its compute wave stands stopped or runs its handler (R414). Its cancelled
commands issue again, ahead of its instructions, and its channels stand as before the first of them (R427). -/
def resumeCrew (s : State) (ci : Nat) : State :=
  let c := getCrew s ci
  let s := c.slots.foldl (fun s w =>
    let m := getWave s (mainWave s w)
    modWave s w (fun x => if x.status != .draining then x else
      { x with status := if x.shadow && (!m.pend.isEmpty || inTrap m) then .held else if m.pend.isEmpty then .running else .stopped })) s
  let s := (List.range 8).foldl (fun s ch =>
    if c.cancelled.any (fun k => k.started && cmdChannel k == some ch) then setWptr s c.core ch (BitVec.ofNat 64 (savedWptr s c ch)) else s) s
  c.cancelled.foldl (fun s k => issueAgain s k.w ((encode k.instr).take 2 ++ [k.w0, k.w1, k.w2, k.w3])
    { path := k.path, rlanes := k.lanes, ipc := k.pc, operands := [k.vd, k.va, k.vb, k.vc] } (some k.rec0))
    (modCrew s ci (fun c => { c with cancelled := [] }))

/-- Issue a cancelled command of a record again, ahead of the crew's instructions (R427). -/
def reissue (s : State) (r nt : Nat) (waveOf : Nat → Bool → Nat) (i : Nat) : State :=
  let o := recSlots r nt + 4096 + 64 * i
  let b := match recTail r nt with | some e => e + 8 + 264 * (recWaves r nt).length + 16 * i | none => bytesAt r 0x10 4
  let w := waveOf (bytesAt r b 1) (bytesAt r (b + 1) 1 == 1)
  let words := (List.range 6).map (fun k => BitVec.ofNat 32 (bytesAt r (o + 4 * k) 4))
  issueAgain s w words { path := bytesAt r (b + 2) 1, rlanes := BitVec.ofNat 32 (bytesAt r (b + 4) 4), ipc := BitVec.ofNat 64 (bytesAt r (b + 8) 8)
                         operands := (List.range 4).map (fun k => bytesAt r (o + 24 + 8 * k) 8) } none

/-- The lanes that a wave captured at delivery: from the record's own bytes at `o`, 264 of them. -/
def captureAt (r o : Nat) (y : Wave) : Wave :=
  { y with
    capPc := (List.range 32).foldl (fun m l => smSet m 0 l (BitVec.ofNat 64 (bytesAt r (o + 8 * l) 8))) []
    capLive := BitVec.ofNat 32 (bytesAt r (o + 256) 4) }

/-- Copy the frame of a wave whose handler runs to its new FA (R422, R438); the lanes that it captured stand in the record's own bytes, or
else are read from the frame (`fresh`; log entry 17). -/
def moveFrame (s : State) (w old : Nat) (fresh : Bool) : State :=
  let x := getWave s w
  if !inTrap x || x.shadow then s else
  match readArea s x.vif old 65536 with
  | (s, .error c) => haltWave s w 0x3E3 c
  | (s, .ok v) =>
    let capture (base : Nat) (y : Wave) : Wave :=
      { y with
        capPc := (List.range 32).foldl (fun m l => smSet m 0 l (sextPc (bytesAt v (base + 32 * l) 8))) []
        capLive := maskOf ((List.range 32).filter (fun l => (bytesAt v (base + 32 * l + 16) 1).testBit 0)) }
    let s := if !fresh then s else
      let s := modWave s w (capture 0x100)
      match x.partner with | some q => modWave s q (capture 0x500) | none => s
    if frameAddr s w = old then s else
    match writeArea s x.vif (frameAddr s w) (65536, v) with
    | (s, .ok ()) => s
    | (s, .error c) => haltWave s w 0x3E3 c

/-- The bound tags of a crew that moves to the other die move with it: only PKG ones do (R437). -/
def moveTags (s : State) (r pkg core : Nat) : State :=
  let a := 2 * pkg + bytesAt r 0xE 1 % 2
  let b := coreDie core
  if a = b then s else
  (List.range 8).foldl (fun s n =>
    if !(bytesAt r 0xF 1).testBit n then s else
    let t := getTag s a n
    let s := modTag s a n (fun t => { t with bound := t.bound - 1 })
    modTag s b n (fun u => if u.owner.isNone then { t with bound := 1, arrived := 0, round := u.round } else { u with bound := u.bound + 1 })) s

/-- The shadow of a wave that stands stopped, or whose handler runs, is held with it (R414). -/
def holdPartners (ws : List Nat) (s : State) : State :=
  ws.foldl (fun s w =>
    let x := getWave s w
    match x.partner with
    | some q => if x.shadow || !(x.status == .stopped || inTrap x) then s
      else modWave s q (fun y => { y with status := if y.status = .running then .held else y.status })
    | none => s) s

/-- The widest scope that a move crosses (R237): 7 to another package, whose crews name no core of this one. -/
def moveScope (old core : Nat) : Nat :=
  if old = core then 0 else if corePkg old ≠ corePkg core then 7 else if coreCluster old = coreCluster core then 3
  else if coreDie old = coreDie core then 4 else 5

/-- Place a frozen crew with its record on a core. -/
def restoreCrew (s : State) (l : Launch) (ci r core : Nat) (q : Place) (obs arms : List ObRec) : State :=
  let p := l.packet.toNat
  let nt := lNtile p
  let rs := recWaves r nt
  let old := getCrew s ci
  let slotOf' (j : Nat) : Nat := q.slots.getD j 0
  let find (idx : Nat) (sh : Bool) : Option Nat := (rs.zipIdx.find? (fun x => bytesAt r (x.1.1 + 0x28) 1 == idx && x.1.2.2 == sh)).map (fun x => slotOf' x.2)
  let partner (x : Nat × Nat × Bool) : Option Nat :=
    if !lShadow p then none else some ((find (bytesAt r (x.1 + 0x28) 1) (!x.2.2)).getD goneShadow)
  let s := rs.zipIdx.foldl (fun s x =>
    let y := waveAt r x.1.1 ci l.vif (partner x.1)
    setWave s (slotOf' x.2) (evalMasks (match recTail r nt with | some e => captureAt r (e + 8 + 264 * x.2) y | none => y))) s
  let s := holdPartners (rs.zipIdx.map (fun x => slotOf' x.2)) s
  let c := crewAt s l r core q obs arms ci (fun i => (find i false).getD goneShadow)
  let s := { s with crews := smSet s.crews {} ci c, nextId := s.nextId + 64 }
  let bench := recSlots r nt - recBench r
  let s := cWrite s c 0 c.benchSize (bytesAt r bench c.benchSize)
  let s := (List.range 64).foldl (fun s n => match crewSlot c n with
    | none => s
    | some o =>
      let was := match recTail r nt with | some e => (bytesAt r e 8).testBit n | none => true
      settle (modBar s o (fun b => { b with tracked := was, sig := BitVec.ofNat 256 (bytesAt r (recSlots r nt + 64 * n) 32) })) o) s
  let s := (List.range 8).foldl (fun s ch => if c.chans.testBit ch then setWptr s core ch (BitVec.ofNat 64 (bytesAt r (0x18 + 8 * ch) 8)) else s) s
  let s := rs.zipIdx.foldl (fun s x => renameWave s (aliasOf ci (bytesAt r (x.1.1 + 0x28) 1) x.1.2.2) (slotOf' x.2)) s
  let s := moveTags s r (vifPkg l.vif) core
  let s := (List.range (recCancelled r)).foldl (fun s i => reissue s r nt (fun i sh => (find i sh).getD goneShadow) i) s
  let s := c.slots.foldl (fun s w => acquireSteps s w (moveScope old.core core) sigAll false) s
  let s := rs.zipIdx.foldl (fun s x => moveFrame s (slotOf' x.2) (bytesAt r (x.1.1 + 0x90) 8) (recTail r nt).isNone) s
  modPkg s (vifPkg l.vif) (fun k => { k with launches := k.launches.map (fun m =>
    if m.id == l.id then { m with frozen := m.frozen.erase ci, lastCore := logicalCore s l.vif core } else m) })

/-- The record of a frozen crew. -/
def recordOf (s : State) (ci : Nat) : State × Except Nat Nat :=
  let c := getCrew s ci
  match c.saved with
  | .placed => (s, .error 0)
  | .kept r _ => (s, .ok r)
  | .at va =>
    match readArea s c.vif (va + 0x10) 4 with
    | (s, .error e) => (s, .error e)
    | (s, .ok n) => readArea s c.vif va n

/-- The granules of a record with `nt` tiles that can hold poison, as offsets: its tiles', its bench's, and its waves' registers'. -/
def poisonPlaces (nt r : Nat) : List Nat :=
  (List.range (512 * nt + recBench r / 32)).map (fun g => 0x1400 + 32 * g) ++ (recWaves r nt).flatMap (fun x =>
    ((List.range (32 * x.2.1)) ++ (List.range 16).map (· + 1024)).map (fun k => x.1 + regOffset (bytesAt r (x.1 + 0x2A) 1) k))

/-- The poisoned granules of a frozen crew's record, as offsets. -/
def savedPoison (s : State) (c : Crew) (nt r : Nat) : List Nat :=
  match c.saved with
  | .at va => (poisonPlaces nt r).filter (fun o => areaPoison s c.vif (va + o))
  | .kept _ l => l
  | .placed => []

/-- Poison of a crew's record goes back into its tiles, its bench and its registers (R449). -/
def restorePoison (s : State) (ci nt r : Nat) (l : List Nat) : State :=
  let c := getCrew s ci
  l.foldl (fun s o =>
    let g := (o - 0x1400) / 32
    if g < 512 * nt then modCrew s ci (fun c => { c with cellPoison := smSet c.cellPoison false g true })
    else if o < recSlots r nt then { s with benchPoison := smSet s.benchPoison false (crewBench c 0 / 32 + (g - 512 * nt)) true }
    else (recWaves r nt).foldl (fun s x =>
      let n := bytesAt r (x.1 + 0x2A) 1
      let d := o - x.1
      if o < x.1 || waveRecLen n x.2.1 ≤ d then s else
      match c.slots.find? (fun w => (getWave s w).idx == bytesAt r (x.1 + 0x28) 1 && (getWave s w).shadow == x.2.2) with
      | some w => modWave s w (fun y => { y with poison := smSet y.poison false (if d < 0x5800 then 1024 + (d - 0x100) / 32 else (d - 0x5800 - 0x400 * n) / 32) true })
      | none => s) s) s

/-! ### The dispatcher's pass (R304, R305, R23, R438) -/

/-- A launch is stopped by a `FREEZE` of its interface (R431). -/
def launchStopped (s : State) (l : Launch) : Bool := l.away || ((getIface s l.vif).frozen && (getIface s l.vif).exempt != l.id + 1)

/-- Launches of a package in the order of R304. -/
def rankedLaunches (s : State) (pkg : Nat) : List Launch :=
  let l := (getPkg s pkg).launches.filter (fun l =>
    !l.complete && !l.bad && (!l.frozen.isEmpty || l.next < lCrews l.packet.toNat) && !launchStopped s l)
  (List.range 8).reverse.flatMap (fun k => l.filter (fun m => lPrio m.packet.toNat == k))

/-- The frozen crew of a launch that is placed next: the lowest. -/
def nextFrozen (s : State) (l : Launch) : Option Nat :=
  l.frozen.foldl (fun b ci => match b with
    | none => some ci
    | some d => if (getCrew s ci).idx < (getCrew s d).idx then some ci else some d) none

/-- Place a launch's next frozen crew on a die: none where no core takes it. -/
def tryFrozen (s : State) (die : Nat) (l : Launch) (ci : Nat) : Option State :=
  match recordOf s ci with
  | (_, .error _) => none
  | (s, .ok r) =>
    let p := l.packet.toNat
    let spot := (searchCores s l die).foldl (fun b core => match b with
      | some y => some y
      | none => if coreOpen s core l && tagHome s (vifPkg l.vif) r core && !(getCore s core).failed then (frozenPlace s p r core).map (fun q => (core, q)) else none) none
    spot.map (fun (core, q, obs, arms) =>
      restorePoison (restoreCrew s l ci r core q obs arms) ci (lNtile p) r (savedPoison s (getCrew s ci) (lNtile p) r))

/-- Place at most one crew on a die; a launch's frozen crews go before its others. DESIGN CHOICE (log entry 69): a launch whose dependency table
was wrong is placed no more, also behind its ring's restart. -/
def tryPlace (s : State) (die : Nat) : List Launch → State
  | [] => s
  | l :: rest =>
    match nextFrozen s l with
    | some ci => (tryFrozen s die l ci).getD (tryPlace s die rest)
    | none =>
    match findPlace s l die with
    | none => tryPlace s die rest
    | some (core, q) =>
      match depOf s l l.next with
      | (s, .met) => placeCrew s l l.next core q
      | (s, .waiting) => tryPlace s die rest
      | (s, .broken k) =>
        let s := modPkg s (vifPkg l.vif) (fun p => { p with launches := p.launches.map (fun m => if m.id == l.id then { m with bad := true } else m) })
        stopRing s l.ring k l.off

def execCrewPlacement (die : Nat) (s : State) : Out := .next (tryPlace s die (rankedLaunches s (die / 2)))

end Sys2Proof.Machine
end

