-- ==== Sys2Proof/Machine/Freeze.lean ====
section
/-! DEFINITION. `VACATE`, `FREEZE` and `THAW` (R424 to R439), their drain and completion, the Rosan image, and the failure of a
core (R377). -/

namespace Sys2Proof.Machine

/-! ### Completions (R425, R441) -/

/-- The queue of a command's function. -/
def queueKey (c : CmdHead) : Nat := 65 * c.pkg + c.fn
def getQueue (s : State) (k : Nat) : CmdQueue := smGet s.cmdqs {} k
/-- A queue is configured: its size is a power of two from 4 KiB to 64 KiB (R441). -/
def queueSet (q : CmdQueue) : Bool := (List.range 5).any (fun i => q.size == 4096 * 2 ^ i)
def modQueue (s : State) (k : Nat) (f : CmdQueue → CmdQueue) : State := { s with cmdqs := smMod s.cmdqs {} k f }

/-- The 16-byte record of a completion, written to the queue's completion area as a release at system scope (R441); the area holds a record
for each command of the ring, and then wraps (log entry 19). -/
def completionRecord (s : State) (c : CmdHead) (status r : Nat) : State :=
  let q := getQueue s (queueKey c)
  if !queueSet q then s else
  let s := homeBytes (flushFar s c.pkg (fun _ => true)) (q.area + 16 * q.records % (q.size / 4)) 16 (c.tag.toNat + 2 ^ 32 * status + 2 ^ 64 * r)
  modQueue s (queueKey c) (fun q => { q with records := q.records + 1 })

/-- A command completes: its record, performed before its interrupt is sent (R443); a result that the manual does not state is free. -/
def completeCmd (s : State) (c : CmdHead) (status : Nat) (result : Option Nat) : State :=
  let (s, r) := match result with | some r => (s, r) | none => freeN s 8
  let s := completionRecord s c status r
  let s := { s with notes := s.notes ++ [.completion c.pkg c.fn c.tag status r] }
  if c.tag.getLsbD 31 then { s with notes := s.notes ++ [.interrupt c.pkg c.fn 2] } else s

/-- The issuing wave of an operation is still that of its crew. -/
def issuer (s : State) (o : SysOp) : Option Nat :=
  match o.w with
  | some w => if (getWave s w).crew == o.crew && (getWave s w).status != .absent then some w else none
  | none => none

/-- The continuation behind the operation becomes ready; lanes that a handler runs over go on there once it returns. -/
def readyBehind (x : Wave) : Wave :=
  { x with conts := x.conts.filterMap (fun c => if c.cond != .sysop then some c else if c.kept then none else some { c with cond := .now }) }

/-- Lanes of a path whose operation issues again wait for it where they stand (R418, R425). -/
def holdBehind (x : Wave) (m : Lanes) (path : Nat) : Wave :=
  let m := m &&& live x
  let at' (l : Nat) : DWord × DWord × Bool := let y := getLane x l; (y.pc, if y.mid then y.head else y.pc, y.mid)
  { x with conts := x.conts ++ (((lanesOf m).map at').eraseDups).map (fun k =>
      { lanes := maskOf ((lanesOf m).filter (fun l => at' l == k)), pc := k.1, head := k.2.1, cond := .sysop, path := path }) }

/-- An operation completes with a value of D; the manual states none for `THAW`, whose D is free. -/
def finishOp (s : State) (v : Nat) (o : SysOp) (d : Option Nat) : State :=
  let s := modIface s v (fun f => { f with sysop := none })
  let s := match issuer s o with
    | some w =>
      let (s, r) := match d with | some r => (s, r) | none => freeN s 4
      modWave s w (fun x => readyBehind (sPut x o.d r))
    | none => s
  match o.cmd with | some c => completeCmd s c 0 d | none => s

/-! ### The start of an operation (R425) -/

/-- The highest logical core with a valid entry, plus one (R432). -/
def nLog (s : State) (v : Nat) : Nat := (List.range 256).foldl (fun m n => if (physCore s v n).isSome then n + 1 else m) 0

/-- Resident crews that a `FREEZE` freezes: those of every launch but the one numbered `ex` - 1, by rank. -/
def insertCrew (s : State) (c : Nat) : List Nat → List Nat
  | [] => [c]
  | d :: rest => if crewRank (getCrew s c) < crewRank (getCrew s d) then c :: d :: rest else d :: insertCrew s c rest

def freezeCrews (s : State) (v ex : Nat) : List Nat :=
  (s.crews.filter (fun kv => kv.2.vif == v && !kv.2.slots.isEmpty && kv.2.launch + 1 != ex)).foldl (fun l kv => insertCrew s kv.1 l) []

/-- The bound of R433 in bytes: its cores are those with resident crews of the interface. -/
def freezeBound (s : State) (v : Nat) : Nat :=
  4096 + 2 ^ 24 + 2 ^ 24 * (((freezeCrews s v 0).map (fun c => (getCrew s c).core)).eraseDups).length + 3 * 2 ^ 20 * nLog s v

/-- The checks made at issue: busy, and the area. -/
def sysopCause (s : State) (v kind : Nat) (base size : Nat) (reads : Bool) : Option Nat :=
  firstCause [
    ((getIface s v).sysop.isSome, 0x3C0),
    (reads && (base % 65536 != 0 || !canonical base || (kind == 1 && size * 65536 < freezeBound s v)), 0x3C1)]

/-- The contexts of an interface. -/
def ifaceCtxs (s : State) (v : Nat) : List Nat :=
  (List.range 32).filterMap (fun k => if ctxAssigned s v (2 * vifPkg v + k / 16) (k % 16) then some (ctxOf (2 * vifPkg v + k / 16) (k % 16)) else none)

def findLaunch (s : State) (pkg id : Nat) : Option Launch := (getPkg s pkg).launches.find? (fun l => l.id == id)

/-! ### The choice of VACATE (R429) -/

/-- Every crew of a core belongs to a launch of lower PRIO, there is one, and no launch holds the core. -/
def vacateCandidate (s : State) (v prio core : Nat) : Bool :=
  let cs := crewsOn s core
  !cs.isEmpty && (getCore s core).holder == 0 && cs.all (fun kv => match findLaunch s (vifPkg v) kv.2.launch with
    | some l => lPrio l.packet.toNat < prio
    | none => false)

/-- The rank of a core's highest crew. -/
def coreRank (s : State) (core : Nat) : Nat := (crewsOn s core).foldl (fun m kv => max m (crewRank kv.2)) 0

/-- The lowest-numbered unfinished crew of a launch. -/
def lowestUnfinished (l : Launch) : Nat := ((List.range l.next).find? (fun i => !l.finished.contains i)).getD l.next

/-- A core holds the lowest-numbered unfinished crew of a launch that has another crew elsewhere (R32). -/
def holdsLowest (s : State) (v core : Nat) : Bool :=
  (crewsOn s core).any (fun kv => match findLaunch s (vifPkg v) kv.2.launch with
    | some l => lowestUnfinished l == kv.2.idx
        && s.crews.any (fun k => k.2.vif == kv.2.vif && k.2.launch == kv.2.launch && !k.2.slots.isEmpty && k.2.core != core)
    | none => false)

def insertCore (s : State) (c : Nat) : List Nat → List Nat
  | [] => [c]
  | d :: rest => if coreRank s d < coreRank s c then c :: d :: rest else d :: insertCore s c rest

def vacateCores (s : State) (v prio want : Nat) : List Nat :=
  let cs := ((List.range 256).filterMap (physCore s v)).filter (vacateCandidate s v prio)
  ((cs.foldl (fun l c => insertCore s c l) []).filter (fun c => !holdsLowest s v c)).take want

/-- The number that holds a core for the driver's own VACATE, above every launch (log entry 18). -/
def driverHold : Nat := 2 ^ 64

def setHolder (s : State) (core h : Nat) : State := modCore s core (fun c => { c with holder := h })

/-- Cores that a holder holds fall free. -/
def giveBack (s : State) (v h : Nat) : State :=
  (s.cores.filter (fun kv => corePkg kv.1 == vifPkg v && kv.2.holder == h)).foldl (fun s kv => setHolder s kv.1 0) s

/-- Begin an operation: its crews stop, its interface's rings and contexts too for a FREEZE. -/
def startOp (s : State) (v : Nat) (o : SysOp) (prio : Nat) : State :=
  match o.kind with
  | 0 =>
    let cores := vacateCores s v prio o.size
    let crews := cores.flatMap (fun c => ((crewsOn s c).map (·.1)).foldl (fun l k => insertCrew s k l) [])
    let s := cores.foldl (fun s c => setHolder s c (if o.launch = 0 then driverHold else o.launch)) s
    crews.foldl stopCrew (modIface s v (fun f => { f with sysop := some { o with crews := crews, cores := cores } }))
  | 1 =>
    let crews := freezeCrews s v o.launch
    let s := modIface s v (fun f => { f with sysop := some { o with crews := crews }, frozen := true, exempt := o.launch })
    let s := crews.foldl stopCrew s
    (ifaceCtxs s v).foldl (fun s n => ctxCheckpoint (modCtx s n (fun x => if ctxRunning x then { x with freezing := true } else x)) n) s
  | _ => modIface s v (fun f => { f with sysop := some o })

/-! ### A failing operation (R435) -/

/-- The stopped contexts of an interface go on, and their members hear of it, which know the context by its die `old` (R437). -/
def releaseCtx (s : State) (n old : Nat) : State :=
  let x := getCtx s n
  let s := modCtx s n (fun x => { (if ctxState x = 3 then setCtxState x 1 else x) with freezing := false, noticed := false })
  if !x.noticed then s else
  (otherCtxs x n).foldl (fun s m => match rankOf (getCtx s m) (ctxDie n) <|> rankOf (getCtx s m) old with
    | some r => modCtx s m (fun y => { y with thawIn := y.thawIn ++ [(r, ctxDie n)] })
    | none => s) s

/-- An operation fails: it has no effect, its wave takes the cause as a deferred fault; a command completes with STATUS 0x01. -/
def failOp (s : State) (v : Nat) (o : SysOp) (cause : Nat) : State :=
  let s := modIface s v (fun f => { f with sysop := none, frozen := f.frozen && o.kind != 1, exempt := if o.kind = 1 then 0 else f.exempt })
  let s := if o.kind = 1 then (ifaceCtxs s v).foldl (fun s n => releaseCtx s n (ctxDie n)) s else s
  let s := o.crews.foldl resumeCrew (if o.kind = 0 then o.cores.foldl (fun s c => setHolder s c 0) s else s)
  let s := match issuer s o with
    | some w =>
      let x := getWave s w
      let r : Replay := { ecause := cause, shadow := x.shadow, path := o.path, rlanes := o.lanes, ipc := o.pc, parcels := o.parcels
                          operands := [0, o.base, o.size, 0], seq := s.nextId }
      let s := modWave { s with nextId := s.nextId + 1 } w (fun x => addReplay (readyBehind x) r)
      raise s w { cause := cause, rank := 4, order := r.seq, path := o.path, lanes := o.lanes, addr := o.base }
    | none => s
  match o.cmd with | some c => completeCmd s c 1 none | none => s

/-! ### Saving for VACATE -/

/-- Write the records of crews one behind another, and take the crews off. -/
def saveCrews (s : State) (v va : Nat) : List Nat → State × Except Nat Unit
  | [] => (s, .ok ())
  | ci :: rest =>
    let c := getCrew s ci
    if c.slots.isEmpty then saveCrews s v va rest else
    let s := releaseCrew (flushSlots s c) ci 5
    let p := crewRecord s ci 0
    match writeArea s v va p with
    | (s, .error e) => (s, .error e)
    | (s, .ok ()) =>
      let s := (poisonedOffsets s c).foldl (fun s o => poisonArea s v (va + o)) s
      let s := takeOff s ci (.at va)
      let s := modPkg s (vifPkg v) (fun k => { k with launches := k.launches.map (fun l => if l.id == c.launch then { l with frozen := l.frozen ++ [ci] } else l) })
      saveCrews s v (va + p.1) rest

def saveCores (s : State) (v : Nat) (crews : List Nat) (base : Nat) : List Nat → State × Except Nat Unit
  | [] => (s, .ok ())
  | c :: rest =>
    match saveCrews s v base (crews.filter (fun k => (getCrew s k).core == c)) with
    | (s, .error e) => (s, .error e)
    | (s, .ok ()) => saveCores s v crews (base + 2 ^ 24) rest

def completeVacate (s : State) (v : Nat) (o : SysOp) : State :=
  match saveCores s v o.crews o.base o.cores with
  | (_, .error e) => failOp s v o e
  | (s, .ok ()) => finishOp s v o (some o.cores.length)

/-! ### The image (R432, R433) -/

/-- The launches that an image lists. -/
def imageLaunches (s : State) (v ex : Nat) : List Launch :=
  (getPkg s (vifPkg v)).launches.filter (fun l => l.vif == v && !l.complete && !l.away && l.id + 1 != ex)

/-- Its crews: those drained, and those that a `VACATE` froze before. -/
def imageCrews (s : State) (v : Nat) (ls : List Launch) : List Nat :=
  (s.crews.filter (fun kv => kv.2.vif == v && ls.any (fun l => l.id == kv.2.launch) && (!kv.2.slots.isEmpty || kv.2.saved != .placed))).foldl
    (fun l kv => insertCrew s kv.1 l) []

def entryOf (ls : List Launch) (id : Nat) : Nat := (ls.findIdx? (fun l => l.id == id)).getD 0

/-- The record of each crew, with its entry, its poisoned offsets beside it. -/
def imageRecords (s : State) (ls : List Launch) : List Nat → State × Except Nat (List (Nat × Piece × List Nat))
  | [] => (s, .ok [])
  | ci :: rest =>
    let c := getCrew s ci
    let e := entryOf ls c.launch
    let one : State × Except Nat (Piece × List Nat) :=
      if !c.slots.isEmpty then
        let s := releaseCrew (flushSlots s c) ci 7
        (s, .ok (crewRecord s ci e, poisonedOffsets s c))
      else match recordOf s ci with
        | (s, .error k) => (s, .error k)
        | (s, .ok r) =>
          let nt := match ls[e]? with | some l => lNtile l.packet.toNat | none => 0
          (s, .ok ((bytesAt r 0x10 4, putField r 0 32 e), savedPoison s c nt r))
    match one with
    | (s, .error k) => (s, .error k)
    | (s, .ok (p, bad)) => match imageRecords s ls rest with
      | (s, .ok l) => (s, .ok ((ci, p, bad) :: l))
      | (s, .error k) => (s, .error k)

/-- A launch entry, 72 bytes, and what the model adds behind the entries (log entry 17), 64 bytes. -/
def launchEntry (l : Launch) : Piece := cat [(64, l.packet.toNat), (8, l.next)]
def launchMeta (ls : List Launch) (l : Launch) : Piece :=
  let (bd, bin, num) := match l.batch with | some (d, b, n) => (d % 2 + 1, b, n) | none => (0, 0, 0)
  let prod := match l.producer.bind (fun id => ls.findIdx? (fun k => k.id == id)) with | some i => i + 1 | none => 0
  (64, (cat [(8, l.id), (1, l.kind), (1, bd), (2, bin), (8, num), (4, l.task), (8, l.args.toNat), (4, prod)]).2)

def launchBits (l : Launch) : Piece := ((lCrews l.packet.toNat + 7) / 8, l.finished.foldl (fun a i => a + 2 ^ i) 0)

/-- Tasks of an interface: index of the package and entry; and the packet that loaded each. -/
def ifaceTasks (s : State) (v : Nat) : List (Nat × Nat × Nat × Nat) :=
  s.tasks.filterMap (fun kv =>
    let die := kv.1 / 65536
    let ld := smGet (getUnit s die).loader (0, 0) (kv.1 % 65536)
    if die / 2 == vifPkg v && kv.2.getLsbD 31 && ld.1 != 0 && (ld.1 - 1) / 16 == v then
      some (65536 * (die % 2) + kv.1 % 65536, kv.2.toNat, (ld.1 - 1) % 16, ld.2) else none)

/-- The nodes of an interface on a die, and its unit's store. -/
def ifaceNodes (s : State) (v die : Nat) : List (Nat × Nat) :=
  s.nodes.filterMap (fun kv => if kv.1 / 4096 == die && nodeVif (getUnit s die) (kv.1 % 4096) == v && smGet (getUnit s die).nodeRing 0 (kv.1 % 4096) != 0
    then some (kv.1 % 4096, kv.2.toNat) else none)

def batchPiece (b : Batch) : Piece := cat [(4, b.bin), (4, b.num), (4, b.count), (4, b.unit), (4, b.units), (4, b.stage)]

/-- The node section of a die: its nodes, the unit's state, then the record store as it stands. -/
def nodePiece (s : State) (v die : Nat) : State × Except Nat Piece :=
  let ns := ifaceNodes s v die
  let u := getUnit s die
  if ns.isEmpty then (s, .ok (cat [(4, 0)])) else
  let head := cat ([(4, ns.length)] ++ ns.map (fun n => cat [(4, n.1), (4, smGet u.nodeRing 0 n.1 - 1), (8, smGet u.nextBatch 0 n.1), (32, n.2)])
    ++ [(8, u.store), (4, u.units), (4, u.batches.length)] ++ u.batches.map batchPiece)
  match readArea s v u.store (16 * u.units) with
  | (s, .ok x) => (s, .ok (cat [head, (16 * u.units, x)]))
  | (s, .error e) => (s, .error e)

/-- A reference to a wave that an alias names: crew of section 2 plus one, wave index, shadow. -/
def waveRef (cis : List Nat) (w : Nat) : Piece :=
  let ci := (w - 2 ^ 24) / 256
  let k := if w < 2 ^ 24 then 0 else match cis.findIdx? (· == ci) with | some i => i + 1 | none => 0
  cat [(4, k), (1, w % 256 / 2), (1, w % 2), (2, 0)]

/-- A context: its size first. -/
def ctxPiece (s : State) (cis : List Nat) (n : Nat) : Piece :=
  let x := getCtx s n
  let counts (m : SMap Nat) : Piece := cat (m.map (fun kv => cat [(4, kv.1), (4, kv.2)]))
  let p := cat (
    [(1, ctxDie n % 2), (1, ctxNum n), (2, x.members.length), (4, x.status.toNat), (8, x.list), (4, x.loop), (4, x.loopWord), (64, x.desc.toNat)
    , waveRef cis x.w, (4, x.drain.length), (4, x.sends.length), (4, x.recvs.length), (4, x.words), (4, x.heldBy + x.freezeIn)
    , (4, if x.noticed then 1 else 0)]
    ++ x.members.map (fun m => (8, m.toNat)) ++ x.drain.map (fun e => cat [(4, e.1), (4, e.2.1), (8, e.2.2)]) ++ [counts x.sends, counts x.recvs])
  cat [(4, p.1), p]

/-- A tag: 1 the interface's own, 2 free, and then its ROUND still; another interface's is not saved. -/
def tagPiece (s : State) (v die n : Nat) : Piece :=
  let t := getTag s die n
  if t.owner.isSome && t.owner ≠ some v then (16, 0) else
  (16, (cat [(1, if t.owner.isSome then 1 else 2), (1, if t.pkg then 1 else 0), (2, t.expect), (2, t.bound), (2, t.arrived), (2, t.round),
    (1, if t.releasing then 1 else 0)]).2)

/-- The vault of a logical core: the map of its non-zero 64 KiB granules, then those (log entry 17). -/
def vaultPiece (s : State) (v n : Nat) : Piece :=
  match physCore s v n with
  | none => (8, 0)
  | some c =>
    let gs := (List.range 48).map (fun g => (g, homeRead s (vaultBase c + 65536 * g) 65536))
    let full := gs.filter (fun g => g.2 != 0)
    cat ((8, full.foldl (fun a g => a + 2 ^ g.1) 0) :: full.map (fun g => (65536, g.2)))

/-- The page tables at an address and below it, `lv` levels of them: each its address and its bytes (R366, R367). -/
def pageTables (s : State) (table : Nat) : Nat → List Piece
  | 0 => []
  | lv + 1 =>
    let n := if lv = 0 then 256 else 4096
    let x := homeRead s table n
    cat [(8, table), (n, x)] :: (List.range (n / 8)).flatMap (fun i =>
      let e := bytesAt x (8 * i) 8
      if lv = 0 || !e.testBit 0 || e.testBit 1 then [] else pageTables s (natBits e 59 8 * 256) lv)

/-- Section 9, and behind it the interface's page tables (log entry 17), which `THAW` does not change (R366). -/
def tablesPiece (s : State) (v : Nat) : Piece :=
  let n := partField s v 40 2
  let d := 2 * vifPkg v
  let pts := pageTables s (ptRoot s v) 5
  cat ([(4, n), (32 * n, homeRead s (partField s v 32 8) (32 * n))
    , row 16 2048 (fun i => (smGet s.evict 0 (1024 * d + i)).toNat), (2, getPhase s d), (2, getPhase s (d + 1))
    , (65536, homeRead s (partField s v 48 8) 65536), row 2 (nLog s v) (fun i => (smGet s.lct 0 (256 * v + i)).toNat), (4, pts.length)] ++ pts)

/-- The header and the sections of an image. -/
def layout (off : Nat) : List (Nat × Nat × Piece) → List (Nat × Nat × Nat) × List Piece
  | [] => ([], [])
  | (t, n, p) :: rest =>
    let (h, b) := layout (off + alignUp p.1 4096) rest
    ((t, n, off) :: h, padTo 4096 p :: b)

def imageOf (s : State) (v : Nat) (secs : List (Nat × Nat × Piece)) : Piece :=
  let (h, b) := layout 4096 secs
  let raw := cat b
  let total := alignUp (4096 + raw.1) 65536
  let body : Piece := (total - 4096, raw.2)
  let head := cat ([(8, 0x4E41534F52), (4, 1), (4, 0), (8, total), (32, featEn s v), (2, vifPkg v), (2, nLog s v), (4, secs.length)
    , (4, crc32c (natBytes body.1 body.2)), (188, 0)] ++ h.map (fun e => cat [(4, e.1), (4, e.2.1), (8, e.2.2)]))
  cat [(4096, head.2), body]

/-- Entries that wait for a full register are discarded before the save (log entry 17). -/
def dropEntries (s : State) (ci : Nat) : State :=
  let mine (e : EngEntry) : Bool := (getCrew s ci).slots.contains e.w
  let s' := (s.entries.filter (fun e => mine e && e.lowersEng)).foldl (fun s e => lowerEng s e.w) s
  { s' with entries := s'.entries.filter (fun e => !mine e) }

/-- Tags of an interface with no bound crew left on the package fall free. -/
def clearTags (s : State) (v : Nat) : State :=
  (List.range 16).foldl (fun s k =>
    let die := 2 * vifPkg v + k / 8
    let n := k % 8
    if (getTag s die n).owner == some v && !(s.crews.any (fun kv => kv.2.vif == v && kv.2.bound.testBit n && coreDie kv.2.core / 2 == vifPkg v)) then
      modTag s die n freeTag else s) s

/-- Write the image; the work leaves its cores. -/
def writeImage (s : State) (v : Nat) (o : SysOp) : State × Except Nat Nat :=
  let ls := imageLaunches s v o.launch
  let cis := imageCrews s v ls
  let s := cis.foldl dropEntries s
  match imageRecords s ls cis with
  | (s, .error e) => (s, .error e)
  | (s, .ok recs) =>
    let renamed := recs.foldl (fun s r => ((getCrew s r.1).slots).foldl (fun s w => renameWave s w (aliasOf r.1 (getWave s w).idx (getWave s w).shadow)) s) s
    let d := 2 * vifPkg v
    match nodePiece s v d, nodePiece s v (d + 1) with
    | (_, .error e), _ => (s, .error e)
    | _, (_, .error e) => (s, .error e)
    | (_, .ok n0), (_, .ok n1) =>
      let ts := ifaceTasks s v
      let cs := (ifaceCtxs s v).filter (fun n => getCtx s n != {})
      let nb := (partField s v 24 8 + 7) / 8
      let im := imageOf s v [
        (1, ls.length, cat (ls.map launchEntry ++ ls.map (launchMeta ls))),
        (2, recs.length, cat (recs.map (fun r => r.2.1))),
        (3, ts.length, cat (ts.map (fun t => cat [(4, t.1), (32, t.2.1)]) ++ ts.map (fun t => cat [(4, t.2.2.1), (8, t.2.2.2)]))),
        (4, (ifaceNodes s v d).length + (ifaceNodes s v (d + 1)).length, cat [n0, n1]),
        (5, ls.length, cat (ls.map launchBits)),
        (6, cs.length, cat (cs.map (ctxPiece renamed cis))),
        (7, 16, cat ((List.range 16).map (fun k => tagPiece s v (d + k / 8) (k % 8)))),
        (8, nLog s v, cat ((List.range (nLog s v)).map (vaultPiece s v))),
        (9, 1, tablesPiece s v),
        (10, nb, (nb, homeRead s (partField s v 8 8) nb))]
      if im.1 > 65536 * o.size then (s, .ok 0) else
      match writeArea s v o.base im with
      | (s, .error e) => (s, .error e)
      | (s, .ok ()) =>
        let off2 := 4096 + alignUp (136 * ls.length) 4096
        let s := (recs.foldl (fun (a : State × Nat) r =>
          (r.2.2.foldl (fun s x => poisonArea s v (o.base + a.2 + x)) a.1, a.2 + r.2.1.1)) (s, off2)).1
        let s := recs.foldl (fun s r => { takeOff s r.1 .placed with crews := smSet (takeOff s r.1 .placed).crews {} r.1 {} }) s
        let s := modPkg s (vifPkg v) (fun k => { k with launches := k.launches.map (fun l =>
          if ls.any (fun m => m.id == l.id) then { l with away := true, frozen := [] } else l) })
        (clearTags s v, .ok (im.1 / 65536))

def completeFreeze (s : State) (v : Nat) (o : SysOp) : State :=
  match writeImage s v o with
  | (_, .error e) => failOp s v o e
  | (_, .ok 0) => finishOp s v o (some 0)
  | (s, .ok n) => finishOp s v o (some n)

/-! ### THAW (R435 to R437) -/

/-- Count and offset of the section of a type. -/
def imageSection (im t : Nat) : Nat × Nat :=
  match (List.range (bytesAt im 60 4)).find? (fun i => bytesAt im (256 + 16 * i) 4 == t) with
  | some i => (bytesAt im (260 + 16 * i) 4, bytesAt im (264 + 16 * i) 8)
  | none => (0, 0)

/-- The header's fields are as R432 says; a last section of no entries may lie at LENGTH. -/
def headerOk (h : Nat) : Bool :=
  let n := bytesAt h 60 4
  bytesAt h 0 8 == 0x4E41534F52 && bytesAt h 8 4 == 1 && bytesAt h 12 4 == 0 && bytesAt h 16 8 != 0 && bytesAt h 16 8 % 65536 == 0
    && 1 ≤ n && n ≤ 16 && bytesAt h 68 188 == 0 && bytesAt h 512 3584 == 0
    && (List.range n).all (fun i => bytesAt h (264 + 16 * i) 8 % 4096 == 0 && bytesAt h (264 + 16 * i) 8 ≤ bytesAt h 16 8
        && (i == 0 || bytesAt h (240 + 16 * i) 4 < bytesAt h (256 + 16 * i) 4))

/-- Offsets of the crew records of an image. -/
def crewOffsets (im off : Nat) : Nat → List Nat
  | 0 => []
  | n + 1 => off :: crewOffsets im (off + bytesAt im (off + 0x10) 4) n

def imageRecs (im : Nat) : List (Nat × Nat) :=
  (crewOffsets im (imageSection im 2).2 (imageSection im 2).1).map (fun o => (o, bytesAt im o (bytesAt im (o + 0x10) 4)))

def imagePacket (im i : Nat) : Nat := bytesAt im ((imageSection im 1).2 + 72 * i) 64

/-- The working cores of an interface, ascending (R436). -/
def workingCores (s : State) (v : Nat) : List Nat :=
  ((List.range 256).map (fun i => 256 * vifPkg v + i)).filter (fun c => (partField s v 72 8).testBit (c % 256 / 4) && !(getCore s c).failed)

/-- The vaults of an image: the map and the offset of the granules, by logical core. -/
def vaultMaps (im off : Nat) : Nat → List (Nat × Nat)
  | 0 => []
  | n + 1 =>
    let m := bytesAt im off 8
    (m, off + 8) :: vaultMaps im (off + 8 + 65536 * popCount m 48) n

def imageVaults (im : Nat) : List (Nat × Nat) := vaultMaps im (imageSection im 8).2 (imageSection im 8).1

/-- A saved tag: owned, PKG, and its other fields. -/
def imageTag (im k : Nat) : Nat := if (imageSection im 7).1 = 0 then 0 else bytesAt im ((imageSection im 7).2 + 16 * k) 16

/-- The lowest cause that the image meets beyond its format (R435). -/
def thawCause (s : State) (v im : Nat) : Option Nat :=
  let work := workingCores s v
  let recs := imageRecs im
  let fits (r : Nat) : Bool := fitsEmpty (imagePacket im (bytesAt r 0 4)) r && !work.isEmpty
  let member (k r : Nat) : Bool := bytesAt r 0xE 1 % 2 == k / 8 && (bytesAt r 0xF 1).testBit (k % 8)
  let tagBad (k : Nat) : Bool :=
    let t := imageTag im k
    let here := (getTag s (2 * vifPkg v + k / 8) (k % 8)).owner
    bytesAt t 0 1 == 1 && ((here.isSome && here != some v)
      || (bytesAt t 1 1 == 0 && bytesAt t 4 2 != 0 && (!(work.any (fun c => coreDie c == 2 * vifPkg v + k / 8))
          || recs.any (fun r => member k r.2 && !fitsEmpty (imagePacket im (bytesAt r.2 0 4)) r.2))))
  firstCause [
    (bytesAt im 24 32 &&& featEn s v != bytesAt im 24 32, 0x3C6),
    (recs.any (fun r => !fits r.2), 0x3C3),
    (((imageVaults im).filter (fun x => x.1 != 0)).length > work.length, 0x3C4),
    ((List.range 16).any tagBad, 0x3C5)]

/-- The logical-core table, rebuilt: cores with data first (R436). -/
def thawTable (s : State) (v : Nat) (maps : List (Nat × Nat)) : State :=
  let data := (List.range maps.length).filter (fun n => (maps.getD n (0, 0)).1 != 0)
  let order := data ++ (List.range 256).filter (fun n => !data.contains n)
  let entry (n : Nat) : BitVec 16 := match ((order.zip (workingCores s v)).find? (fun x => x.1 == n)) with
    | some (_, c) => BitVec.ofNat 16 (2 ^ 15 + c % 256)
    | none => 0
  { s with lct := (List.range 256).foldl (fun m n => smSet m 0 (256 * v + n) (entry n)) s.lct }

/-- What the vaults of valid entries from `k` on hold that table `t` moves to another core: the new core, and the old vault's granules. -/
def movedVaults (s t : State) (v k : Nat) : List (Nat × List Nat) :=
  ((List.range 256).drop k).filterMap (fun n => match physCore s v n, physCore t v n with
    | some a, some b => if a = b then none else some (b, (List.range 48).map (fun g => homeRead s (vaultBase a + 65536 * g) 65536))
    | _, _ => none)

/-- Vault granules go to their new vaults; absent ones are zero. Those of the entries beyond the image go along with theirs (R377). -/
def thawVaults (s : State) (v im : Nat) (maps : List (Nat × Nat)) (moved : List (Nat × List Nat)) : State :=
  let s := moved.foldl (fun s x => x.2.zipIdx.foldl (fun s g => homeGranule s (vaultBase x.1 + 65536 * g.2) g.1) s) s
  maps.zipIdx.foldl (fun s x => match physCore s v x.2 with
    | none => s
    | some c => (List.range 48).foldl (fun s g =>
        let k := popCount x.1.1 g
        homeGranule s (vaultBase c + 65536 * g) (if x.1.1.testBit g then bytesAt im (x.1.2 + 65536 * k) 65536 else 0)) s) s

/-- The tables of section 9. -/
def thawTables (s : State) (v im : Nat) : State :=
  let (c, o) := imageSection im 9
  if c = 0 then s else
  let n := bytesAt im o 4
  let e := o + 4 + 32 * n
  let d := 2 * vifPkg v
  let k := min n (partField s v 40 2)
  let s := homeBytes s (partField s v 32 8) (32 * k) (bytesAt im (o + 4) (32 * k))
  let s := { s with evict := (List.range 2048).foldl (fun m i => smSet m 0 (1024 * d + i) (BitVec.ofNat 128 (bytesAt im (e + 16 * i) 16))) s.evict }
  let s := setPhase (setPhase s d (bytesAt im (e + 32768) 2)) (d + 1) (bytesAt im (e + 32770) 2)
  homeBytes s (partField s v 48 8) 65536 (bytesAt im (e + 32772) 65536)

def thawTasks (s : State) (v im : Nat) : State :=
  let (c, o) := imageSection im 3
  (List.range c).foldl (fun s i =>
    let t := bytesAt im (o + 36 * i) 4
    let b := o + 36 * c + 12 * i
    let die := 2 * vifPkg v + t / 65536 % 2
    let s := setTask s die (t % 65536) (bytesAt im (o + 36 * i + 4) 32)
    modUnit s die (fun u => { u with loader := smSet u.loader (0, 0) (t % 65536) (16 * v + bytesAt im b 4 % 16 + 1, bytesAt im (b + 4) 8) })) s

/-- The nodes of a die from an offset, and the offset behind them. -/
def thawNodes (s : State) (v im die o : Nat) : State × Nat :=
  let n := bytesAt im o 4
  if n = 0 then (s, o + 4) else
  let a := o + 4 + 48 * n
  let store := bytesAt im a 8
  let units := bytesAt im (a + 8) 4
  let nb := bytesAt im (a + 12) 4
  let s := { s with nodes := (List.range n).foldl (fun m i => smSet m 0 (4096 * die + bytesAt im (o + 4 + 48 * i) 4 % 4096)
      (BitVec.ofNat 256 (bytesAt im (o + 4 + 48 * i + 16) 32))) s.nodes }
  let batch (i : Nat) : Batch :=
    let b := a + 16 + 24 * i
    { die := die, bin := bytesAt im b 4, num := bytesAt im (b + 4) 4, count := bytesAt im (b + 8) 4, unit := bytesAt im (b + 12) 4
      units := bytesAt im (b + 16) 4, stage := bytesAt im (b + 20) 4 }
  let s := modUnit s die (fun u => setMode { u with
    store := store, units := units, batches := (List.range nb).map batch
    nodeRing := (List.range n).foldl (fun m i => smSet m 0 (bytesAt im (o + 4 + 48 * i) 4 % 4096) (16 * v + bytesAt im (o + 8 + 48 * i) 4 % 16 + 1)) u.nodeRing
    nextBatch := (List.range n).foldl (fun m i => smSet m 0 (bytesAt im (o + 4 + 48 * i) 4 % 4096) (bytesAt im (o + 12 + 48 * i) 8)) u.nextBatch })
  let e := a + 16 + 24 * nb
  ((writeArea s v store (16 * units, bytesAt im e (16 * units))).1, e + 16 * units)

/-- The finished crews of launch entry `i`, from section 5. -/
def thawBits (im i : Nat) : List Nat :=
  let size (k : Nat) : Nat := (lCrews (imagePacket im k) + 7) / 8
  let o := (List.range i).foldl (fun a k => a + size k) (imageSection im 5).2
  if (imageSection im 5).1 = 0 then [] else
  let x := bytesAt im o (size i)
  (List.range (lCrews (imagePacket im i))).filter (fun k => x.testBit k)

/-- The launches and the frozen crews re-enter: entry `i` becomes launch `nextLaunch` + `i`, record `k` crew `nextCrew` + `k`; cores that a
launch held it holds still (R430). -/
def thawLaunches (s : State) (v im base : Nat) : State :=
  let pkg := vifPkg v
  let (c, o) := imageSection im 1
  let id0 := (getPkg s pkg).nextLaunch
  let c0 := s.nextCrew
  let recs := imageRecs im
  let old := (getPkg s pkg).launches.filter (fun l => l.away && l.vif == v && bytesAt im 56 2 == pkg)
  let one (i : Nat) : Launch :=
    let m := o + 72 * c + 64 * i
    let was := (old.find? (fun l => l.id == bytesAt im m 8)).getD { kind := 3, ring := 16 * v }
    let bd := bytesAt im (m + 9) 1
    { id := id0 + i, ring := was.ring, vif := v, kind := if bytesAt im (m + 8) 1 = 0 then was.kind else bytesAt im (m + 8) 1
      packet := BitVec.ofNat 512 (imagePacket im i), task := bytesAt im (m + 20) 4
      batch := if bd = 0 then none else some (2 * pkg + (bd - 1) % 2, bytesAt im (m + 10) 2, bytesAt im (m + 12) 8)
      args := BitVec.ofNat 64 (bytesAt im (m + 24) 8), next := bytesAt im (o + 72 * i + 64) 8, finished := thawBits im i
      frozen := (recs.zipIdx.filter (fun r => bytesAt r.1.2 0 4 == i)).map (fun r => c0 + r.2)
      producer := if bytesAt im (m + 32) 4 = 0 then none else some (id0 + bytesAt im (m + 32) 4 - 1), off := was.off, ringSeq := was.ringSeq }
  let ls := (List.range c).map one
  let ids := (List.range c).map (fun i => bytesAt im (o + 72 * c + 64 * i) 8)
  let heldBy (h : Nat) : Nat := match ids.findIdx? (fun id => h == id + 1 && old.any (fun l => l.id == id)) with | some i => id0 + i + 1 | none => h
  let s := { s with cores := s.cores.map (fun kv => if corePkg kv.1 == pkg then (kv.1, { kv.2 with holder := heldBy kv.2.holder }) else kv) }
  let s := modPkg s pkg (fun k => { k with
    nextLaunch := id0 + c
    launches := k.launches.filter (fun l => !(l.away && l.vif == v && bytesAt im 56 2 == pkg && ids.contains l.id)) ++ ls })
  let stub (r : (Nat × Nat) × Nat) : Crew :=
    { launch := id0 + bytesAt r.1.2 0 4, idx := bytesAt r.1.2 4 4, core := 2 ^ 20, vif := v, threads := bytesAt r.1.2 8 2
      shadow := (bytesAt r.1.2 11 1).testBit 0, bound := bytesAt r.1.2 0xF 1, saved := .at (base + r.1.1) }
  { s with nextCrew := c0 + recs.length, crews := recs.zipIdx.foldl (fun m r => smSet m {} (c0 + r.2) (stub r)) s.crews }

def thawTags (s : State) (v im : Nat) : State :=
  (List.range 16).foldl (fun s k =>
    let t := imageTag im k
    if bytesAt t 0 1 = 2 then
      modTag s (2 * vifPkg v + k / 8) (k % 8) (fun u => if u.owner.isSome then u else { u with round := bytesAt t 8 2 })
    else if bytesAt t 0 1 ≠ 1 then s else
    modTag s (2 * vifPkg v + k / 8) (k % 8) (fun _ =>
      { owner := some v, pkg := bytesAt t 1 1 == 1, expect := bytesAt t 2 2, bound := bytesAt t 4 2, arrived := bytesAt t 6 2, round := bytesAt t 8 2
        releasing := bytesAt t 10 1 == 1 })) s

/-- A saved context at an offset, its members' dies in the source package moved here (R437). -/
def thawCtx (im o v c0 : Nat) (moved : Nat → Bool) : Nat × Context :=
  let g (a n : Nat) : Nat := bytesAt im (o + 4 + a) n
  let nm := g 2 2
  let src := bytesAt im 56 2
  let k := g 88 4
  let nd := g 96 4
  let ns := g 100 4
  let nr := g 104 4
  let a := 120 + 8 * nm
  let b := a + 16 * nd
  let counts (a n : Nat) : SMap Nat := (List.range n).foldl (fun m i => smSet m 0 (g (a + 8 * i) 4) (g (a + 8 * i + 4) 4)) []
  let mem (x : Nat) : BitVec 64 :=
    let d := memDie (BitVec.ofNat 64 x)
    BitVec.ofNat 64 (if memHere (BitVec.ofNat 64 x) && d / 2 == src && moved (d % 2) then putField x 42 10 (2 * vifPkg v + d % 2) else x)
  (ctxOf (2 * vifPkg v + g 0 1 % 2) (g 1 1 % 16),
    { status := BitVec.ofNat 32 (g 4 4), vif := v, list := g 8 8, loop := g 16 4, loopWord := g 20 4, desc := BitVec.ofNat 512 (g 24 64)
      w := if k = 0 then 2 ^ 24 else aliasOf (c0 + k - 1) (g 92 1) (g 93 1 == 1)
      members := (List.range nm).map (fun i => mem (g (120 + 8 * i) 8))
      drain := (List.range nd).map (fun i => (g (a + 16 * i) 4, g (a + 16 * i + 4) 4, g (a + 16 * i + 8) 8))
      sends := counts b ns, recvs := counts (b + 8 * ns) nr, words := g 108 4, heldBy := g 112 4, noticed := g 116 4 == 1
      wrote := BitVec.ofNat 256 sigAll })

def ctxOffsets (im off : Nat) : Nat → List Nat
  | 0 => []
  | n + 1 => off :: ctxOffsets im (off + 4 + bytesAt im off 4) n

def thawCtxs (s : State) (v im c0 : Nat) : State :=
  let offs := ctxOffsets im (imageSection im 6).2 (imageSection im 6).1
  let moved (o d : Nat) : Bool := offs.any (fun p => bytesAt im (p + 4) 1 % 2 == d && bytesAt im (p + 5) 1 == bytesAt im (o + 5) 1)
  let xs := offs.map (fun o => thawCtx im o v c0 (moved o))
  let s := { s with ctxs := xs.foldl (fun m x => smSet m {} x.1 x.2) s.ctxs }
  xs.foldl (fun s x => releaseCtx s x.1 (2 * bytesAt im 56 2 + ctxDie x.1 % 2)) s

/-- A `THAW` reads its image, checks it and resumes what it holds. -/
def completeThaw (s : State) (v : Nat) (o : SysOp) : State :=
  match readArea s v o.base 4096 with
  | (_, .error e) => failOp s v o e
  | (s1, .ok h) =>
    if !headerOk h then failOp s v o 0x3C2 else
    match readArea s1 v o.base (bytesAt h 16 8) with
    | (_, .error e) => failOp s v o e
    | (s1, .ok im) =>
      let len := bytesAt h 16 8
      if crc32c (natBytes (len - 4096) (im / 256 ^ 4096)) != bytesAt im 64 4 then failOp s v o 0x3C2 else
      match thawCause s v im with
      | some c => failOp s v o c
      | none =>
        let c0 := s1.nextCrew
        let maps := imageVaults im
        let s := thawVaults (thawTable s1 v maps) v im maps (movedVaults s1 (thawTable s1 v maps) v maps.length)
        let s := thawTasks (thawTables s v im) v im
        let s := if (imageSection im 4).1 = 0 then s else
          let (s, a) := thawNodes s v im (2 * vifPkg v) (imageSection im 4).2
          (thawNodes s v im (2 * vifPkg v + 1) a).1
        let s := thawCtxs (thawTags (thawLaunches s v im o.base) v im) v im c0
        finishOp (modIface s v (fun f => { f with frozen := false, exempt := 0 })) v o none

/-! ### The failure of a core (R377) -/

/-- The crews of a failed core, whose records the device keeps itself (log entry 18). -/
def completeFailure (s : State) (v core : Nat) : State :=
  let crews := (crewsOn s core).map (·.1)
  let s := modIface s v (fun f => { f with failing := f.failing.erase core })
  crews.foldl (fun s ci =>
    let c := getCrew s ci
    let s := releaseCrew (flushSlots s c) ci 5
    let r := (crewRecord s ci 0).2
    let s := takeOff s ci (.kept r (poisonedOffsets s c))
    modPkg s (vifPkg v) (fun k => { k with launches := k.launches.map (fun l => if l.id == c.launch then { l with frozen := l.frozen ++ [ci] } else l) })) s

def execCoreFailure (core : Nat) (s : State) : Out :=
  if (getCore s core).failed then .next s else
  let s := modCore s core (fun c => { c with failed := true })
  let crews := (crewsOn s core).map (·.1)
  let s := crews.foldl stopCrew s
  let s := match coreVif s core with
    | some v => if crews.isEmpty then s else modIface s v (fun f => { f with failing := f.failing ++ [core] })
    | none => s
  let names (kv : Nat × BitVec 16) : Bool := physCore s (kv.1 / 256) (kv.1 % 256) == some core
  .next { s with lct := s.lct.filterMap (fun kv =>
    if !names kv then some kv else if BitVec.ofNat 16 (kv.2.toNat % 2 ^ 15) = 0 then none else some (kv.1, BitVec.ofNat 16 (kv.2.toNat % 2 ^ 15))) }

/-! ### Time-out and completion (R425, R426) -/

/-- The crews that are being drained for an interface. -/
def drainingCrews (s : State) (v : Nat) : List Nat :=
  let f := getIface s v
  (match f.sysop with | some o => o.crews | none => []) ++ f.failing.flatMap (fun c => (crewsOn s c).map (·.1))

def execDrainEngineTimeout (vif : Nat) (s : State) : Out :=
  let l := (drainingCrews s vif).filter (fun ci => !(crewCommands s ci).isEmpty)
  if l.isEmpty then .next s
  else .next (modIface (l.foldl cancelCrew s) vif (fun f => { f with sysop := f.sysop.map (fun o => { o with timedOut := true }) }))

/-- Every context of an interface has reached its checkpoint, with no packet of its words outstanding (R428). -/
def ctxsAtRest (s : State) (v : Nat) : Bool :=
  (ifaceCtxs s v).all (fun n => ctxState (getCtx s n) != 1 && !(ctxState (getCtx s n) == 3 && ctxPackets s n))

def opDue (s : State) (v : Nat) (o : SysOp) : Bool :=
  o.crews.all (drained s) && (o.kind != 1 || ctxsAtRest s v)

def execSystemOpComplete (vif : Nat) (s : State) : Out :=
  match (getIface s vif).failing.find? (fun c => (crewsOn s c).all (fun kv => drained s kv.1)) with
  | some c => .next (completeFailure s vif c)
  | none =>
    match (getIface s vif).sysop with
    | none => .next s
    | some o =>
      if !opDue s vif o then .next s
      else match o.kind with
        | 0 => .next (completeVacate s vif o)
        | 1 => .next (completeFreeze s vif o)
        | _ => .next (completeThaw s vif o)

/-! ### The instructions (R424, R425, R430) -/

/-- The launch of the current wave's crew, plus one, and its PRIO. -/
def ownLaunch (s : State) : Nat × Nat :=
  let id := (getCrew s s.wave.crew).launch
  (id + 1, match findLaunch s (vifPkg s.wave.vif) id with | some l => lPrio l.packet.toNat | none => 0)

/-- The operation as an instruction issues it. -/
def sysOp (i : Instr) (s : State) (p : Path) (ex : Lanes) (kind d base size : Nat) : SysOp :=
  { kind := kind, w := some s.cur, d := d, crew := s.wave.crew, path := if s.wave.turnB then 1 else 0, lanes := ex, pc := p.pc
    parcels := encode i, base := base, size := size, launch := (ownLaunch s).1 }

def runSysOp (i : Instr) (f : F64R) (kind size : Nat) (reads : Bool) (s : State) : Out :=
  runWide i f.g none s fun p ex =>
    let v := s.wave.vif
    let base := sPair64 s.wave f.a.toNat
    match sysopCause s v kind base size reads with
    | some c => .fault s c ex [] 0
    | none =>
      if !reads then
        let s := giveBack s v (ownLaunch s).1
        .after { s with wave := sPut s.wave f.d.toNat 0 } .now
      else .after (startOp s v (sysOp i s p ex kind f.d.toNat base size) (ownLaunch s).2) .sysop

def execVacate64 (f : F64R) (s : State) : Out :=
  runSysOp (.vacate64 f) f 0 (sOrImm s.wave f.cb f.b) (sOrImm s.wave f.cb f.b != 0) s

def execFreeze64 (f : F64R) (s : State) : Out := runSysOp (.freeze64 f) f 1 (sGet s.wave f.b.toNat) true s

def execThaw64 (f : F64R) (s : State) : Out := runSysOp (.thaw64 f) f 2 0 true s

/-- A faulted operation issues again from its replay entry; one that finds its interface busy faults again. -/
def againSysOp (s : State) (w : Nat) (r : Replay) (kind : Nat) (f : F64R) (base size : Nat) : State :=
  let x := getWave s w
  let id := (getCrew s x.crew).launch
  let prio := match findLaunch s (vifPkg x.vif) id with | some l => lPrio l.packet.toNat | none => 0
  let o : SysOp := { kind := kind, w := some w, d := f.d.toNat, crew := x.crew, path := r.path, lanes := r.rlanes &&& live x, pc := r.ipc, parcels := r.parcels
                     base := base, size := size, launch := id + 1 }
  match sysopCause s x.vif kind base size true with
  | some c =>
    let q := { r with ecause := c, seq := s.nextId }
    raise (modWave { s with nextId := s.nextId + 1 } w (fun x => addReplay x q)) w
      { cause := c, rank := 4, order := q.seq, path := r.path, lanes := r.rlanes, addr := base }
  | none => startOp (modWave s w (fun x => holdBehind x r.rlanes r.path)) x.vif o prio

end Sys2Proof.Machine
end

