-- ==== Sys2Proof/Machine/Return.lean ====
section
/-! DEFINITION. The return from a trap (R417 to R419): `TRET`, and the instructions that it issues again from the replay
entries (R418). -/

namespace Sys2Proof.Machine

/-! ### The instruction of an entry -/

/-- One entry's instruction issues again on its recorded wave. -/
def againInstr (s : State) (w : Nat) (r : Replay) (i : Instr) : State :=
  let ob (n : Nat) : ObRec := getOb (getCrew s (getWave s w).crew) (n % 32)
  let fn8 (f : F64R) : Nat := f.fn.toNat % 8
  match i with
  | .rel64 f => againWide s w r { kind := .rel, order := fn8 f, scope := f.fn.toNat / 8, sz := 5, counter := 2
                                  lanes := [{ addr := rOp r 1, data := rOp r 2 }] }
  | .acq64 f => againWide s w r { kind := .acq, order := fn8 f, scope := f.fn.toNat / 8, sz := 5, counter := 1, d := f.d.toNat
                                  lanes := [{ addr := rOp r 1 }] }
  | .bari64 f => againWide s w r (objOp .bari f (rOp r 1) (rOp r 3) r.operands)
  | .badd64 f => againWide s w r (objOp .badd f (rOp r 1) (rOp r 3) r.operands)
  | .devl64 m =>
    let x := getWave s w
    let addr := (rOp r 1 + truncI (sext (rOp r 2) 32 + off64 m) 64) % 2 ^ 64
    let o := { againOp s w r (memOp .devl m 2) with lanes := [{ addr := addr, stage := bufStage s x.vif addr }], operands := r.operands }
    enterOp (modWave s w (fun x => raiseCount x 2)) o
  | .mma64 f => againTile s w r i (f.d.toNat % 32) (ob f.a.toNat) (ob f.b.toNat) {}
  | .mdrain64 f =>
    let d := drainOf f
    slotBegin (againTile s w r i (f.r.d.toNat % 32) {} {} {}) (getCrew s (getWave s w).crew) d.bv d.slot
  | .lstream64 f => againTile s w r i (f.r.d.toNat % 32) (ob f.r.a.toNat) (ob f.r.b.toNat) (ob f.r.c.toNat)
  | .lsgrad64 f => againTile s w r i (f.r.d.toNat % 32) (ob f.r.a.toNat) (ob f.r.b.toNat) (ob f.r.c.toNat)
  | .lsmerge64 f => againTile s w r i 0 (ob f.a.toNat) {} (ob f.d.toNat)
  | .mbyp64 f => againTile s w r i (f.d.toNat % 32) (ob f.a.toNat) {} {}
  | .cpy64 f => againCopy s w r i f {}
  | .plane64 f => againCopy s w r i f (ob f.r.d.toNat)
  | .gather64 f => againGather s w r i f
  | .pool64 f => againGather s w r i f
  | .vacate64 f => againSysOp s w r 0 f (rOp r 1) (rOp r 2)
  | .freeze64 f => againSysOp s w r 1 f (rOp r 1) (rOp r 2)
  | .thaw64 f => againSysOp s w r 2 f (rOp r 1) 0
  | .spawn64 f => (againSpawn s w r f).getD s
  | i => match laneOp i with
    | some o => againLane s w r o
    | none => s

/-- One replay entry: skipped when none of its lanes is still live. -/
def againEntry (s : State) (m : Nat) (r : Replay) : State :=
  let w := if r.shadow then (getWave s m).partner.getD m else m
  if r.rlanes &&& live (getWave s w) == 0 then s else
  match decode r.parcels with
  | .ok (i, _) => againInstr s w r i
  | .error _ => s

/-- The queue that an entry's command goes to has room (R297), and the record store for its records (R324). -/
def againFits (s : State) (m : Nat) (r : Replay) : Bool :=
  match decode r.parcels with
  | .ok (.cpy64 f, _) => (smGet (getCore s (waveCore m)).chan [] (fnBits f.r.fn 2 0)).length < Config.channelDepth
  | .ok (.plane64 f, _) => (smGet (getCore s (waveCore m)).chan [] (fnBits f.r.fn 2 0)).length < Config.channelDepth
  | .ok (.gather64 _, _) => (smGet s.gathers [] (coreCluster (waveCore m))).length < Config.gatherDepth
  | .ok (.pool64 _, _) => (smGet s.gathers [] (coreCluster (waveCore m))).length < Config.gatherDepth
  | .ok (.spawn64 f, _) => (againSpawn s (if r.shadow then (getWave s m).partner.getD m else m) r f).isSome
  | _ => true

/-- Entries issue again in order, up to one whose command finds its queue full: it waits, and those behind it. -/
def againEach (s : State) (m : Nat) : List Replay → State
  | [] => s
  | r :: rest => if againFits s m r then againEach (againEntry s m r) m rest else modWave s m (fun x => { x with reinject := r :: rest })

/-- The entries that a return leaves issue again. -/
def reinject (s : State) (w : Nat) : State :=
  let rs := (getWave s w).reinject
  if rs.isEmpty then s else focus (againEach (modWave s w (fun x => { x with reinject := [] })) w rs) s.cur

/-! ### TRET (R417) -/

/-- The stores of a wave that stand before the read of its frame, with what comes before them, are performed (R213, R417). -/
def settleOwn (s : State) (w : Nat) : State :=
  let n := (s.ops.filter (fun o => o.w == w && opWrites o.kind)).foldl (fun m o => max m (o.id + 1)) 0
  settleOps s w (s.ops.filter (fun o => o.id < n))

def execTret32 (f : F32Z) (s : State) : Out :=
  runWide (.tret32 f) f.g none s fun _ ex =>
    if !inTrap s.wave then .fault s 0x006 ex [] 0
    else
      let s := settleOwn s s.cur
      .stop (if s.wave.pend.isEmpty then reinject (returnTrap s s.cur) s.cur else modWave s s.cur (stopAs false .stopped))

end Sys2Proof.Machine
end

