-- ==== Sys2Proof/Machine/Host.lean ====
section
/-! DEFINITION. What the host does to the machine: the driver's and the management function's commands (R440 to R445, and the
rules that they name), the resets (R446, R450), and the power control (R447). A command arrives as its step, in its queue's
order; where its function's queue is configured it is the one that stands next in the ring (log entry 19). -/

namespace Sys2Proof.Machine

/-! ### How a command runs (R440 to R442) -/

/-- The interface that a command's function stands for; function 0, the management function, stands for none. -/
def cmdVif (c : CmdHead) : Nat := 64 * c.pkg + c.fn - 1

/-- A command ends with a status that names a failure: no effect, and a result that is not stated. -/
def refuse (s : State) (c : CmdHead) (status : Nat) : State := completeCmd s c status none

/-- A function that the package has reaches it: while READY is clear every access returns completer abort (R446). -/
def reached (s : State) (c : CmdHead) (f : State) : State :=
  if c.pkg ≥ Config.packages || c.fn > Config.interfaces then s
  else if (getPkg s c.pkg).ready then f
  else { s with notes := s.notes ++ [.abort c.pkg c.fn] }

/-- The OPC of a command (R441); none of a driver command that its table does not list (R206). -/
def opcOf (i : Instr) : Option Nat :=
  match i with
  | .invalidate .. => some 1 | .bmread .. => some 2 | .esload .. => some 3 | .phaseset .. => some 4 | .ringcfg .. => some 5 | .rdesc .. => some 6
  | .bufmap .. => some 7 | .wavectlResume .. | .wavectlEnd .. | .wavectlFrame .. => some 8
  | .sysopVacate .. | .sysopFreeze .. | .sysopThaw .. => some 9 | .ctrread .. => some 10 | .partset .. => some 0x20 | .lctset .. => some 0x21
  | .linkctlRetrain .. | .linkctlDisable .. => some 0x22 | .powercap .. => some 0x23 | .featlock .. => some 0x24
  | _ => none

/-- The 64 bytes of the command that stands next in a ring, and its OPC and TAG; bytes 1 to 3 are reserved (R441, R442). -/
def ringCommand (s : State) (q : CmdQueue) : Nat := homeRead s (q.base + q.taken % q.size) 64
def rawOpc (x : Nat) : Nat := bytesAt x 0 1
def rawTag (x : Nat) : Word := BitVec.ofNat 32 (bytesAt x 4 4)
def rawBad (x : Nat) : Bool :=
  bytesAt x 1 3 != 0 || !((1 ≤ rawOpc x && rawOpc x ≤ 10) || (0x20 ≤ rawOpc x && rawOpc x ≤ 0x24))

/-- The step's command is taken: with a ring, only the one that stands next in it, and one that waited is taken already. -/
def takeCmd (s : State) (c : CmdHead) (i : Instr) : Option State :=
  let q := getQueue s (queueKey c)
  if q.again then some (modQueue s (queueKey c) (fun q => { q with again := false }))
  else if !queueSet q || opcOf i = none then some s
  else
    let x := ringCommand s q
    if q.taken ≠ q.head && !rawBad x && opcOf i == some (rawOpc x) && rawTag x == c.tag then
      some (modQueue s (queueKey c) (fun q => { q with taken := q.taken + 64 }))
    else none

/-- A command waits, behind those of its queue that wait. -/
def holdCmd (s : State) (c : CmdHead) (i : Instr) : State := modQueue s (queueKey c) (fun q => { q with held := q.held ++ [i] })

/-- The queue of a function executes a command still: a `SYSOP`, or one that waits (R441). -/
def queueBusy (s : State) (c : CmdHead) : Bool :=
  !(getQueue s (queueKey c)).held.isEmpty
    || (c.fn != 0 && (match (getIface s (cmdVif c)).sysop with | some o => o.cmd.isSome | none => false))

/-- A command marked VF, on its own interface: it waits behind one of its queue that is still in progress, and while `wait` holds. -/
def vfCommand (s : State) (c : CmdHead) (i : Instr) (wait bad : Bool) (run : State → Nat → State) : Out :=
  .next (reached s c (
    match takeCmd s c i with
    | none => s
    | some s =>
      if queueBusy s c then holdCmd s c i
      else if c.fn = 0 || bad then refuse s c 1
      else if !enabled s (cmdVif c) then refuse s c 3
      else if wait then holdCmd s c i
      else run s (cmdVif c)))

/-- A management command. -/
def mgmtCommand (s : State) (c : CmdHead) (i : Instr) (bad : Bool) (run : State → State) : Out :=
  .next (reached s c (
    match takeCmd s c i with
    | none => s
    | some s =>
      if queueBusy s c then holdCmd s c i
      else if bad then refuse s c 1 else if c.fn ≠ 0 then refuse s c 2 else run s))

/-- A ring's next command has an unknown OPC or a reserved byte that is not zero: it completes with 0x01 (R442). -/
def badCommand (k : Nat) (s : State) : Out :=
  let q := getQueue s k
  let x := ringCommand s q
  let c : CmdHead := ⟨k / 65, k % 65, rawTag x⟩
  if !queueSet q || q.taken = q.head || !(getPkg s (k / 65)).ready || queueBusy s c || !rawBad x then .next s
  else .next (completeCmd (modQueue s k (fun q => { q with taken := q.taken + 64 })) c 1 none)

/-- Success with no result that the manual states. -/
def success (s : State) (c : CmdHead) : State := completeCmd s c 0 none

/-! ### Switching a range to HC (R206) -/

/-- What a core or a cluster of a package, or a remote holder, has written of a line: rank, bytes, mask. A byte of a cluster
cache gives way to one of an L1 of the same cluster. -/
def writersOf (s : State) (pkg l : Nat) : List (Nat × BitVec 1024 × BitVec 128) :=
  let here (f : Nat → Bool) : List (Nat × Line) :=
    s.cache.filterMap (fun kv => if kv.1 % 2 ^ 53 == l && f (kv.1 / 2 ^ 53) && kv.2.dirty != 0 then some (kv.1 / 2 ^ 53 % 131072, kv.2) else none)
  let l1 := here (fun k => k < 131072 && k / 256 == pkg)
  let cc := here (fun k => 131072 ≤ k && k < 262144 && (k - 131072) / 64 == pkg)
  let own (u : Nat) : BitVec 128 := l1.foldl (fun m x => if x.1 / 4 = u then m ||| x.2.dirty else m) 0
  let far := (holdersOf s l 512).flatMap (fun h => [2 * h, 2 * h + 1].filterMap (fun d =>
    let y := getLine s 2 d l
    if y.dirty != 0 then some (256 * h + threadCore y.agent % 256, y.data, y.dirty) else none))
  l1.map (fun x => (x.1, x.2.data, x.2.dirty)) ++ cc.map (fun x => (4 * x.1, x.2.data, x.2.dirty &&& ~~~(own x.1))) ++ far

def insertWriter (a : Nat × BitVec 1024 × BitVec 128) : List (Nat × BitVec 1024 × BitVec 128) → List (Nat × BitVec 1024 × BitVec 128)
  | [] => [a]
  | b :: rest => if a.1 < b.1 then a :: b :: rest else b :: insertWriter a rest

/-- One line goes to HC: its highest-ranked writers' bytes reach the home, a conflict counts once, no copy stays. -/
def switchLine (s : State) (pkg l : Nat) : State :=
  let ws := (writersOf s pkg l).foldl (fun r a => insertWriter a r) []
  let x := ws.foldl (fun (a : BitVec 1024 × BitVec 128 × Bool) w =>
    (mergeLine a.1 w.2.1 w.2.2, a.2.1 ||| w.2.2, a.2.2 || (a.2.1 &&& w.2.2) != 0)) (0, 0, false)
  let s := if x.2.2 then bump s 4 (homeDie (l * 128)) 1 else s
  let s := hcSettle (backInvalidate s l 512) (l * 128)
  let d := homeDie (l * 128)
  let s := if x.2.1 = 0 then s else writeL2 s d l x.1 x.2.1 noThread
  let s := if s.dieInval.contains (d ^^^ 1, l) then takeInval s (d ^^^ 1) l else s
  if regionOf (l * 128) == .vault then flushL2 s pkg l else s

/-- The range lies in one die's HBM4E, or in its vaults, of the package. -/
def ownRange (pkg base len : Nat) : Bool :=
  let e := base + len - 1
  len = 0 || (e < 2 ^ 60 && homePkg base == pkg && homeDie e == homeDie base && regionOf e == regionOf base
    && (regionOf base == .hbm || regionOf base == .vault))

def execRegionModeSwitch (c : CmdHead) (base len : Nat) (s : State) : Out :=
  vfCommand s c (.regionModeSwitch c base len) false (!ownRange c.pkg base len) fun s _ =>
    let ls := ((s.cache.map (fun kv => kv.1 % 2 ^ 53)).filter (fun l => inSpan (base / 128 * 128) (base % 128 + len) (l * 128))).eraseDups
    let s := ls.foldl (fun s l => switchLine s c.pkg l) s
    success { s with grain := s.grain.filter (fun kv => !inSpan (base / 512 * 512) (base % 512 + len) (kv.1 * 512)) } c

/-! ### Translations and dirty bits (R194, R370) -/

/-- A lane that has been translated through a page of the range, and not been performed. -/
def staleLane (s : State) (v base len : Nat) (o : Op) (a : LaneAcc) : Bool :=
  match a.stage with
  | .ready _ _ pte _ => pte != 0 && o.space != 2 && (laneVif s o.w o.space a.addr).1 == v
      && (laneVif s o.w o.space a.addr).2 < base + len && base < (laneVif s o.w o.space a.addr).2 + opBytes o
  | _ => false

/-- Forget every translation of a range of an interface: its TLB entries go, and accesses that have not been performed are translated
again, their atomic-pending marks with them. -/
def forgetPages (s : State) (v base len : Nat) : State :=
  let stale := staleLane s v base len
  let ids := (s.ops.filter (fun o => o.lanes.any (stale o))).map (·.id)
  let s := { s with
    tlb := s.tlb.filter (fun t => !(t.vif == v && t.vbase < base + len && base < t.vbase + t.size))
    atomPend := s.atomPend.filter (fun k => !(s.ops.any (fun o => o.id == k.op
      && o.lanes.any (fun a => stale o a && (stagePa a).map lineOf == some k.line))))
    ops := s.ops.map (fun o => { o with lanes := o.lanes.map (fun a => if stale o a then { a with stage := .need } else a) }) }
  ids.foldl (fun s id => match getOp s id with | some o => setOp (startWalks s o).1 (startWalks s o).2 | none => s) s

/-- The old entries of the range are used no more once the command completes (R194). A stroke that has started was read at its start,
by its header's mapping (R480). -/
def execInvalidate (c : CmdHead) (base len : Nat) (s : State) : Out :=
  vfCommand s c (.invalidate c base len) false false fun s v => success (forgetPages s v base len) c

/-- Bits `first` to `first + n - 1` of the dirty bitmap, read and cleared in one step; they go with the completion. -/
def execBmread (c : CmdHead) (first n : Nat) (s : State) : Out :=
  vfCommand s c (.bmread c first n) false (n = 0 || first + n > partField s (cmdVif c) 24 8) fun s v =>
    let a := partField s v 8 8
    let d := 2 * c.pkg
    let mask (i : Nat) : Nat := (List.range 8).foldl (fun m j => if first ≤ 8 * i + j && 8 * i + j < first + n then m + 2 ^ j else m) 0
    let r := (List.range ((first + n - 1) / 8 + 1 - first / 8)).foldl (fun (r : State × Nat) k =>
      let i := first / 8 + k
      let (s, b) := readDie r.1 d (a + i) 1
      (writeDie s d (a + i) (b - (b &&& mask i)), r.2 + (b &&& mask i) * 256 ^ k)) (s, 0)
    completeCmd r.1 c 0 (some (r.2 / 2 ^ (first % 8)))

/-! ### Residency (R375, R376, R403) -/

/-- A schedule entry has no reserved bit set. -/
def schedOk (e : Nat) : Bool := !e.testBit 60 && natBits e 11 0 == 0 && natBits e 95 93 == 0

def execEsload (c : CmdHead) (die image : Nat) (s : State) : Out :=
  let e (i : Nat) : Nat := natBits image (128 * i + 127) (128 * i)
  vfCommand s c (.esload c die image) false (die ≥ 2 || !(List.range 1024).all (fun i => schedOk (e i))) fun s _ =>
    let d := 2 * c.pkg + die
    success { s with evict := (List.range 1024).foldl (fun m i => smSet m 0 (1024 * d + i) (BitVec.ofNat 128 (e i))) s.evict } c

def execPhaseset (c : CmdHead) (die value : Nat) (s : State) : Out :=
  vfCommand s c (.phaseset c die value) false (die ≥ 2 || value ≥ 65536) fun s _ => success (setPhase s (2 * c.pkg + die) value) c

/-! ### Rings, remote descriptors, regions, buffers (R299, R353, R354, R372) -/

/-- A power of two from 4 KiB to 1 MiB. -/
def ringSize (n : Nat) : Bool := (List.range 9).any (fun i => n == 4096 * 2 ^ i)

/-- A ring is configured; one that stopped for its own control block starts again (R303). -/
def execRingcfg (c : CmdHead) (ring base size ctl : Nat) (s : State) : Out :=
  vfCommand s c (.ringcfg c ring base size ctl) false
    (ring ≥ 16 || base % 4096 != 0 || base ≥ 2 ^ 64 || !ringSize size || ctl % 64 != 0 || ctl ≥ 2 ^ 64) fun s v =>
    success (modRing s (16 * v + ring) (fun r => { r with configured := true, base := base, size := size, ctl := ctl, held := false, lost := false })) c

def execRdesc (c : CmdHead) (r : RdescArg) (s : State) : Out :=
  match r with
  | .remote i e =>
    vfCommand s c (.rdesc c r) false (i ≥ 4096 || natBits e.toNat 255 128 != 0 || natBits e.toNat 72 40 != 0) fun s v =>
      success (homeBytes s (partField s v 48 8 + 16 * i) 16 e.toNat) c
  | .region i e =>
    vfCommand s c (.rdesc c r) false (i ≥ 65536 || e.toNat ≥ 2 ^ 148) fun s v =>
      let k := 65536 * v + i
      success (pruneRegions { homeBytes s (regionAddr s v i) 32 e.toNat with regionCache := s.regionCache.filter (fun x => x.2 != k) }) c

/-- A buffer map entry whose fields lie within their limits; only the reserved bits of one that is not VALID are held to them. -/
def bufOk (e : Nat) : Bool :=
  let vb := bytesAt e 0 8
  let ok (p : Nat) : Bool := p % 65536 == 0 && p < 2 ^ 60 && (regionOf p == .hbm || (regionOf p == .vault && !inSaveArea p))
  bytesAt e 14 1 < 4 && bytesAt e 15 1 == 0
    && (!(bytesAt e 14 1).testBit 0
      || (canonical vb && vb % 65536 == 0 && 1 ≤ bytesAt e 8 4 && bytesAt e 8 4 ≤ 65536 && ok (bytesAt e 16 8) && ok (bytesAt e 24 8)))

/-- A `DEVL` that has reached entry `i` is not performed yet. -/
def devlOn (s : State) (v i : Nat) : Bool :=
  s.ops.any (fun o => o.kind == .devl && (getWave s o.w).vif == v && o.lanes.any (fun a => match a.stage with
    | .ready _ _ _ b => b == i + 1
    | _ => false))

/-- The marks in both backings of an entry go. -/
def unmark (s : State) (e : Nat) : State :=
  let len := bytesAt e 8 4 * 65536
  { s with latent := s.latent.filter (fun kv => !inSpan (bytesAt e 16 8) len kv.1 && !inSpan (bytesAt e 24 8) len kv.1) }

def execBufmap (c : CmdHead) (i : Nat) (entry : BitVec 256) (s : State) : Out :=
  vfCommand s c (.bufmap c i entry) (devlOn s (cmdVif c) i) (i ≥ partField s (cmdVif c) 40 2 || !bufOk entry.toNat) fun s v =>
    let a := partField s v 32 8 + 32 * i
    success (homeBytes (unmark (unmark s (homeRead s a 32)) entry.toNat) a 32 entry.toNat) c

/-! ### Halted waves (R444) -/

/-- The halted wave that a WAVECTL names. -/
def namedHalt (s : State) (v lcore slot : Nat) : Option Nat :=
  match (if lcore < 256 && slot < 64 then physCore s v lcore else none) with
  | none => none
  | some core =>
    let w := 64 * core + slot
    match (getWave s w).status with
    | .halted _ _ => if (getWave s w).vif = v then some w else none
    | _ => none

/-- A WAVECTL waits while the interface's waves are being drained, and while the wave's crew is spilled (R159). -/
def wavectl (s : State) (c : CmdHead) (i : Instr) (lcore slot : Nat) (run : State → Nat → State) : Out :=
  match namedHalt s (cmdVif c) lcore slot with
  | none => vfCommand s c i false true fun s _ => s
  | some w => vfCommand s c i ((getIface s (cmdVif c)).sysop.isSome || (getCrew s (getWave s w).crew).spilled) false fun s _ => run s w

/-- A halted partner waits for the compute wave. -/
def unhalt (s : State) (m : Nat) (st : WaveStatus) : State :=
  let un (st : WaveStatus) (y : Wave) : Wave := match y.status with | .halted _ _ => { y with status := st } | _ => y
  let s := modWave s m (un st)
  match (getWave s m).partner with | some q => modWave s q (un .held) | none => s

/-- What a return compares the frame with, for a wave that no handler holds: its lanes as they stand. -/
def dropCauses (x : Wave) : Wave :=
  { (if inTrap x then x else captureLanes x) with faulted := 0, lcause := [], replay := [], pend := [], wsw := setBits x.wsw 10 10 0 }

/-- The wave acts as by `TRET` with its frame at FA. -/
def resumeHalted (s : State) (w : Nat) : State :=
  let m := mainWave s w
  let s := unhalt (withdrawPair s m) m .stopped
  let intrap := inTrap (getWave s m)
  let s := match (getWave s m).partner with
    | some q => modWave s q (fun y => dropCauses (if intrap then { y with wsw := setBits y.wsw 10 10 1 } else y))
    | none => s
  reinject (returnTrap (modWave s m dropCauses) m) m

def execWavectlResume (c : CmdHead) (lcore slot : Nat) (s : State) : Out :=
  wavectl s c (.wavectlResume c lcore slot) lcore slot fun s w => success (resumeHalted s w) c

def execWavectlEnd (c : CmdHead) (lcore slot : Nat) (s : State) : Out :=
  wavectl s c (.wavectlEnd c lcore slot) lcore slot fun s w =>
    let s := if (getWave s w).shadow then withdrawWaits s w else withdrawPair s w
    success (endLanes s w (live (getWave s w))) c

/-- The vector entry of a cause names a handler (R373). -/
def handlerValid (s : State) (w cause : Nat) : Bool :=
  let x := getWave s w
  match (readVirt s x.vif (waveDie w) ((x.tvbase.toNat + 8 * cause) % 2 ^ 64) 8).2 with
  | .ok bs => let e := bytesNat bs; e.testBit 0 && natBits e 2 1 == 0 && canonical (e / 8 * 8)
  | .error _ => false

def execWavectlFrame (c : CmdHead) (lcore slot : Nat) (s : State) : Out :=
  wavectl s c (.wavectlFrame c lcore slot) lcore slot fun s w =>
    let m := mainWave s w
    match (getWave s m).status with
    | .halted 0x3E4 inner => if handlerValid s m inner then success (takeTrap (unhalt s m .stopped) m) c else refuse s c 1
    | _ => refuse s c 1

/-! ### System operations by command (R425) -/

/-- A SYSOP command begins its operation, and completes with it. -/
def sysopCommand (s : State) (c : CmdHead) (i : Instr) (o : SysOp) (reads : Bool) (bad : Bool) : Out :=
  vfCommand s c i false bad fun s v =>
    match sysopCause s v o.kind o.base o.size reads with
    | some 0x3C0 => refuse s c 4
    | some _ => refuse s c 1
    | none =>
      if !reads then completeCmd (giveBack s v driverHold) c 0 (some 0)
      else startOp s v { o with cmd := some c } 8

def execSysopVacate (c : CmdHead) (base cores : Nat) (s : State) : Out :=
  sysopCommand s c (.sysopVacate c base cores) { kind := 0, base := base, size := cores } (cores != 0) (base ≥ 2 ^ 64 || cores ≥ 2 ^ 32)

def execSysopFreeze (c : CmdHead) (base size : Nat) (s : State) : Out :=
  sysopCommand s c (.sysopFreeze c base size) { kind := 1, base := base, size := size } true (base ≥ 2 ^ 64 || size ≥ 2 ^ 32 || !hasFeature s (cmdVif c) 11)

def execSysopThaw (c : CmdHead) (base : Nat) (s : State) : Out :=
  sysopCommand s c (.sysopThaw c base) { kind := 2, base := base } true (base ≥ 2 ^ 64 || !hasFeature s (cmdVif c) 11)

/-! ### Event counters (R404) -/

/-- The unit of a counter: a core by its logical number, or a die of the package. -/
def ctrUnit (s : State) (c : CmdHead) (counter unit : Nat) : Option Nat :=
  if counter < 4 then (if unit < 256 then physCore s (cmdVif c) unit else none)
  else if counter < 8 && unit < 2 then some (2 * c.pkg + unit) else none

def execCtrread (c : CmdHead) (counter unit : Nat) (clear : Bool) (s : State) : Out :=
  match ctrUnit s c counter unit with
  | none => vfCommand s c (.ctrread c counter unit clear) false true fun s _ => s
  | some u => vfCommand s c (.ctrread c counter unit clear) false false fun s _ =>
    let k := 8 * u + counter
    completeCmd (if clear then { s with ctr := smSet s.ctr 0 k 0 } else s) c 0 (some (smGet s.ctr 0 k))

/-! ### The management function's commands (R377 to R379, R445, R447) -/

/-- A partition entry whose fields lie within their limits. -/
def partOk (e : Nat) : Bool :=
  bytesAt e 44 4 < 2 && bytesAt e 112 144 == 0 && bytesAt e 40 2 ≤ 4096 && bytesAt e 94 2 == 0
    && (!(bytesAt e 44 4).testBit 0 || (bytesAt e 104 8 != 0 && bytesAt e 104 8 % 2 ^ 20 == 0))

/-- The entry shares a resource with another ENABLED interface of the package. -/
def partConflict (s : State) (pkg vi e : Nat) : Bool :=
  (bytesAt e 44 4).testBit 0 && (List.range 64).any (fun i => i != vi && enabled s (64 * pkg + i)
    && [(72, 8), (80, 4), (84, 4), (88, 4), (92, 4)].any (fun f => bytesAt e f.1 f.2 &&& partField s (64 * pkg + i) f.1 f.2 != 0))

def execPartset (c : CmdHead) (vi : Nat) (entry : BitVec 2048) (s : State) : Out :=
  mgmtCommand s c (.partset c vi entry) (vi ≥ 64 || !partOk entry.toNat) fun s => (
    if partConflict s c.pkg vi entry.toNat then refuse s c 4
    else success { s with part := smSet s.part 0 (64 * c.pkg + vi) entry } c)

def execLctset (c : CmdHead) (vi i : Nat) (entry : BitVec 16) (s : State) : Out :=
  mgmtCommand s c (.lctset c vi i entry) (vi ≥ 64 || i ≥ 256 || natBits entry.toNat 14 8 != 0) fun s => (
    success { s with lct := smSet s.lct 0 (256 * (64 * c.pkg + vi) + i) entry } c)

/-- A port that is down begins to train; one that works is left alone. -/
def execLinkctlRetrain (c : CmdHead) (port : Nat) (s : State) : Out :=
  let l := 2 * (24 * c.pkg + port)
  mgmtCommand s c (.linkctlRetrain c port) (port ≥ 24) fun s => (success (if (getPort s l).up then s else modPort s l (fun p => { p with training := true })) c)

def execLinkctlDisable (c : CmdHead) (port : Nat) (s : State) : Out :=
  mgmtCommand s c (.linkctlDisable c port) (port ≥ 24) fun s => (success (takeDown s c.pkg port) c)

/-- The Ethernet and CXL ports of a package, and the package of a port. -/
def bootLinks (p : Nat) : List Nat := (List.range 12).map (ethLink p)
def portPkg (port : Nat) : Nat := if port < 24 * Config.packages then port / 24 else (port - 24 * Config.packages) / 12

/-- A port has failed to train: it stays down and is reported (R446, R448). -/
def trainFailed (s : State) (port : Nat) : State :=
  let k := if port < 24 * Config.packages then port % 24 else 24 + (port - 24 * Config.packages) % 12
  logError s (portPkg port) none
    { die := 2 * portPkg port + (if k < 24 then k / 12 else if k < 32 then (k - 24) / 4 else (k - 32) / 2), kind := .port, index := k, cls := .trainingFailure
      addr := k }

/-- A package whose ports have all trained or failed presents FEATCAP and sets READY (R446). -/
def bootDone (s : State) (p : Nat) : State :=
  if !(getPkg s p).booting || (bootLinks p).any s.linkTrain.contains || (List.range 24).any (fun r => (getPort s (2 * (24 * p + r))).training) then s
  else modPkg s p (fun k => { k with booting := false, ready := true })

/-- A training port works, a UALink port with both its links afresh, or stays down and is reported. -/
def execLinkTrainingComplete (port : Nat) (ok : Bool) (s : State) : Out :=
  if port < 24 * Config.packages then
    if !(getPort s (2 * port)).training then .next s
    else if ok then .next (bootDone { s with ports := smSet (smSet s.ports {} (2 * port) {}) {} (2 * port + 1) {} } (portPkg port))
    else .next (bootDone (trainFailed (modPort s (2 * port) (fun p => { p with training := false })) port) (portPkg port))
  else if !s.linkTrain.contains port then .next s
  else
    let s := { s with linkTrain := s.linkTrain.erase port }
    .next (bootDone (if ok then s else trainFailed { s with linkDown := s.linkDown ++ [port] } port) (portPkg port))

def execPowercap (c : CmdHead) (watts : Nat) (s : State) : Out :=
  mgmtCommand s c (.powercap c watts) (watts < 600 || watts > 2600) fun s => (success (modPkg s c.pkg (fun p => { p with cap := watts })) c)

/-- FEATEN of an interface is written and locked; a write after the lock is ignored. -/
def execFeatlock (c : CmdHead) (vi : Nat) (featen : BitVec 256) (s : State) : Out :=
  mgmtCommand s c (.featlock c vi featen) (vi ≥ 64 || featen.toNat ≥ 4096) fun s => (
    success (modIface s (64 * c.pkg + vi) (fun f => if f.featLocked then f else { f with featEn := some featen, featLocked := true })) c)

/-- Every 1 ms: the measured power over 10 ms and the hottest temperature of each die decide the clock, one step of 100 MHz. -/
def execPowerControlTick (pkg watts temp0 temp1 : Nat) (s : State) : Out :=
  if pkg ≥ Config.packages then .next s else
  let t := max temp0 temp1
  let tick (p : Package) : Package :=
    let hot := t > 105 || (p.hot && t ≥ 95)
    let clock := if hot then 8 else if watts > p.cap then max 8 (p.clock - 1) else min 16 (p.clock + 1)
    { p with hot := hot, clock := clock, watts := watts, temp0 := temp0, temp1 := temp1 }
  let s := modPkg s pkg tick
  .next (if pkg = 0 then { s with podTime := (s.podTime + 1000000) % 2 ^ 64 } else s)

/-! ### Reset of an interface (R450) -/

/-- Bytes of a table go to zero. -/
def wipe (s : State) (base len : Nat) : State :=
  if len = 0 then s else
  let s := evictWhere s (fun l => inSpan (base / 128 * 128) (base % 128 + len) (l * 128))
  { s with mem := s.mem.filter (fun kv => !inSpan base len kv.1) }

/-- A wave that belongs to one of the crews, resident or named by its alias. -/
def waveOfCrews (s : State) (cs : List Nat) (w : Nat) : Bool :=
  if w ≥ 2 ^ 24 then cs.contains ((w - 2 ^ 24) / 256) else cs.any (fun ci => (getCrew s ci).slots.contains w)

/-- Crews end where they stand: what they have in flight is dropped. -/
def killCrews (s : State) (cs : List Nat) : State :=
  let ws := cs.flatMap (fun ci => (getCrew s ci).slots)
  let s := ws.foldl withdrawWaits s
  let mine := waveOfCrews s cs
  let ids := (s.ops.filter (fun o => mine o.w)).map (·.id)
  let inBench (o : Nat) : Bool := o % 2 == 0 && cs.any (fun ci =>
    let c := getCrew s ci
    objCore o == c.core && c.benchBase ≤ o / 2 % 16384 * 32 && o / 2 % 16384 * 32 < c.benchBase + c.benchSize)
  let core (k : Core) : Core :=
    { k with chan := k.chan.filterMap (fun (q : Nat × List Command) => let l := q.2.filter (fun d => !mine d.w); if l.isEmpty then none else some (q.1, l))
             engine := k.engine.filter (fun o => !mine o.w), grow := k.grow.filter (fun r => !mine r.w) }
  let s := (cs.map (fun ci => (getCrew s ci).core)).eraseDups.foldl (fun s k => modCore s k core) s
  let s : State := { s with
    ops := s.ops.filter (fun o => !ids.contains o.id), atomPend := s.atomPend.filter (fun x => !ids.contains x.1)
    packets := s.packets.filter (fun p => !(accessPacket p && ids.contains p.index))
    netReqs := s.netReqs.filter (fun r => r.coll != 0 || !ids.contains r.op), entries := s.entries.filter (fun e => !mine e.w)
    gathers := s.gathers.filterMap (fun (q : Nat × List Command) => let l := q.2.filter (fun d => !mine d.w); if l.isEmpty then none else some (q.1, l))
    bars := s.bars.filter (fun kv => !inBench kv.1)
    taskUnits := s.taskUnits.map (fun (u : Nat × TaskUnit) => (u.1, { u.2 with done := u.2.done.filter (fun d => !mine d.2.1) })) }
  let s := { s with taskUnits := s.taskUnits.filter (fun u => u.2 != {}) }
  let s := ws.foldl (fun s w => setWave s w {}) s
  { s with crews := s.crews.filter (fun kv => !cs.contains kv.1) }

/-- The contexts of an interface stop, and their members fault. -/
def killCtx (s : State) (n : Nat) : State :=
  let x := getCtx s n
  let s := if ctxState x = 1 || ctxState x = 3 then (otherCtxs x n).foldl (fun s m => modCtx s m (fun y => { y with aborted := true })) s else s
  let s := modCtx (dropPackets s n) n (fun _ => {})
  { s with groups := s.groups.filter (fun kv => kv.1 / 4 != 16 * ctxDie n + ctxNum n), netReqs := s.netReqs.filter (fun r => r.coll != n + 1) }

/-- The tasks, nodes and batches of an interface go. -/
def killTasks (s : State) (v : Nat) : State :=
  let gone := (ifaceTasks s v).map (fun t => 65536 * (2 * vifPkg v + t.1 / 65536) + t.1 % 65536)
  [2 * vifPkg v, 2 * vifPkg v + 1].foldl (fun s die =>
    let bins := (ifaceNodes s v die).map (·.1)
    let s := { s with tasks := s.tasks.filter (fun kv => !gone.contains kv.1)
                      nodes := s.nodes.filter (fun kv => !(kv.1 / 4096 == die && bins.contains (kv.1 % 4096))) }
    modUnit s die (fun u => setMode { u with
      batches := u.batches.filter (fun b => !bins.contains b.bin), nodeRing := u.nodeRing.filter (fun kv => !bins.contains kv.1)
      loader := u.loader.filter (fun kv => (kv.2.1 - 1) / 16 != v) })) s

/-- The tables of an interface that the device keeps go, and its FEATEN copy; the lock stays until a device reset (R379). -/
def killTables (s : State) (v : Nat) : State :=
  let s := wipe s (partField s v 32 8) (32 * partField s v 40 2)
  let s := wipe s (partField s v 48 8) (if partField s v 48 8 = 0 then 0 else 65536)
  let s := wipe s (partField s v 56 8) (if partField s v 56 8 = 0 then 0 else 2 ^ 21)
  { s with
    rings := s.rings.filter (fun kv => kv.1 / 16 != v), lct := s.lct.filter (fun kv => kv.1 / 256 != v)
    regions := s.regions.filter (fun kv => kv.1 / 65536 != v), regionCache := s.regionCache.filter (fun x => x.2 / 65536 != v)
    tlb := s.tlb.filter (fun t => t.vif != v), walks := s.walks.filter (fun k => k.vif != v)
    cores := (s.cores.map (fun kv => (kv.1, if coreVif s kv.1 == some v then { kv.2 with holder := 0 } else kv.2))).filter (fun kv => kv.2 != {})
    ifaces := smMod s.ifaces {} v (fun f => { haltLog := f.haltLog, errors := f.errors, overflow := f.overflow, featLocked := f.featLocked }) }

/-- The crews of an interface leave their route tags (R401): what they have counted is withdrawn first, and the sets go on without them. -/
def leaveTags (s : State) (cs : List Nat) : State :=
  let s := (cs.flatMap (fun ci => (getCrew s ci).slots)).foldl withdrawWaits s
  cs.foldl (fun s ci => (List.range 8).foldl (fun s n => if (getCrew s ci).bound.testBit n then leaveTag s ci n else s) s) s

/-- The command that an interface's queue has in progress (R450). -/
def cmdHead (i : Instr) : Option CmdHead :=
  match i with
  | .invalidate c .. | .bmread c .. | .esload c .. | .phaseset c .. | .ringcfg c .. | .rdesc c .. | .bufmap c .. | .wavectlResume c .. | .wavectlEnd c ..
  | .wavectlFrame c .. | .sysopVacate c .. | .sysopFreeze c .. | .sysopThaw c .. | .ctrread c .. | .regionModeSwitch c .. => some c
  | _ => none

def queueOf' (vif : Nat) : Nat := 65 * vifPkg vif + vif % 64 + 1

def commandOn (s : State) (vif : Nat) : Option CmdHead :=
  ((getIface s vif).sysop.bind (·.cmd)) <|> ((getQueue s (queueOf' vif)).held.head?.bind cmdHead)

def execInterfaceReset (vif : Nat) (s : State) : Out :=
  if vif ≥ Config.interfaces * Config.packages then .next s else
  let cmd := commandOn s vif
  let cs := (s.crews.filter (fun kv => kv.2.vif == vif)).map (·.1)
  let s := killCrews (leaveTags s cs) cs
  let s := modPkg s (vifPkg vif) (fun p => { p with launches := p.launches.filter (fun l => l.vif != vif) })
  let s := (ifaceCtxs s vif).foldl killCtx s
  let s := killTables (killTasks s vif) vif
  let s := match cmd with | some c => completeCmd s c 5 none | none => s
  .next { s with cmdqs := s.cmdqs.filter (fun kv => kv.1 != queueOf' vif) }

/-! ### Reset of a package (R446) -/

/-- The package of the unit whose cache, level and unit, a line's key names. -/
def cachePkg (k : Nat) : Nat := let u := k / 2 ^ 53; if u < 131072 then u / 256 else if u < 262144 then (u - 131072) / 64 else (u - 262144) / 2

/-- The package of a barrier object. -/
def objPkg (o : Nat) : Nat := if o % 2 = 0 then corePkg (objCore o) else homePkg (o / 2 * 32)

/-- Memory that stands in the package. -/
def packageMemory (pkg pa : Nat) : Bool := homePkg pa == pkg && (regionOf pa == .hbm || regionOf pa == .vault)

/-- The waves, the crews and all that they have in flight. -/
def resetWork (s : State) (p : Nat) : State :=
  let here (w : Nat) : Bool := if w ≥ 2 ^ 24 then vifPkg (getCrew s ((w - 2 ^ 24) / 256)).vif == p else w / 16384 == p
  let ids := (s.ops.filter (fun o => here o.w)).map (·.id)
  { s with
    wave := if s.cur / 16384 = p then {} else s.wave, waves := s.waves.filter (fun kv => kv.1 / 16384 != p)
    crews := s.crews.filter (fun kv => vifPkg kv.2.vif != p), cores := s.cores.filter (fun kv => corePkg kv.1 != p)
    ops := s.ops.filter (fun o => !here o.w), atomPend := s.atomPend.filter (fun x => !ids.contains x.1)
    packets := s.packets.filter (fun p => !(accessPacket p && ids.contains p.index))
    netReqs := (s.netReqs.filter (fun r => !(ids.contains r.op && r.coll == 0) && !(r.coll != 0 && (r.coll - 1) / 32 == p))).map (fun r =>
      if r.target == p && !otherPod r && r.stage == 1 then { r with stage := 5 } else r)
    gathers := s.gathers.filter (fun kv => kv.1 / 64 != p), entries := s.entries.filter (fun e => !here e.w)
    bars := s.bars.filter (fun kv => objPkg kv.1 != p), tags := s.tags.filter (fun kv => kv.1 / 16 != p) }

/-- The caches and what keeps them coherent, the TLBs and the walkers. -/
def resetCaches (s : State) (p : Nat) : State :=
  let home (l : Nat) : Bool := homePkg (l * 128) == p
  { s with
    cache := s.cache.filter (fun kv => cachePkg kv.1 != p), farDirty := s.farDirty.filter (fun kv => kv.1 / 2 != p)
    snoop := s.snoop.filter (fun kv => !home kv.1), backInv := s.backInv.filter (fun b => !home b.line && b.holder != p)
    dieInval := s.dieInval.filter (fun x => x.1 / 2 != p), sharers := s.sharers.filter (fun kv => !home kv.1)
    grain := s.grain.filter (fun kv => homePkg (kv.1 * 512) != p), tlb := s.tlb.filter (fun t => vifPkg t.vif != p)
    walks := s.walks.filter (fun k => k.die / 2 != p), latent := s.latent.filter (fun kv => homePkg kv.1 != p)
    phase := s.phase.filter (fun kv => kv.1 / 2 != p), evict := s.evict.filter (fun kv => kv.1 / 2048 != p)
    ctr := s.ctr.filter (fun kv => (if kv.1 % 8 < 4 then kv.1 / 2048 else kv.1 / 16) != p) }

/-- The tables, the front end, the fabric and the network. -/
def resetTables (s : State) (p : Nat) : State :=
  { s with
    tasks := s.tasks.filter (fun kv => kv.1 / 131072 != p), nodes := s.nodes.filter (fun kv => kv.1 / 8192 != p)
    taskUnits := s.taskUnits.filter (fun kv => kv.1 / 2 != p), rings := s.rings.filter (fun kv => kv.1 / 1024 != p)
    pkgs := s.pkgs.filter (fun kv => kv.1 != p), ifaces := s.ifaces.filter (fun kv => vifPkg kv.1 != p)
    part := s.part.filter (fun kv => vifPkg kv.1 != p), lct := s.lct.filter (fun kv => kv.1 / 16384 != p)
    regions := s.regions.filter (fun kv => kv.1 / 4194304 != p), regionCache := s.regionCache.filter (fun x => x.1 / 2 != p)
    ctxs := s.ctxs.filter (fun kv => kv.1 / 32 != p), held := s.held.filter (fun h => h.die / 2 != p)
    packets := s.packets.filter (fun k => k.src / 2 != p && k.dst / 2 != p && k.hub / 2 != p)
    groups := s.groups.filter (fun kv => kv.1 / 128 != p), ports := s.ports.filter (fun kv => kv.1 / 48 != p)
    bulks := s.bulks.filter (fun b => b.src / 2 != p && b.dst / 2 != p), calendar := s.calendar.filter (fun c => c.1 != p)
    atomCache := s.atomCache.filter (fun a => a.1 / 2 != p), congest := s.congest.filter (fun kv => kv.1 / 8192 != p)
    hdm := s.hdm.filter (fun kv => kv.1 / 32 != p), cmdqs := s.cmdqs.filter (fun kv => kv.1 / 65 != p)
    linkTrain := s.linkTrain.filter (fun k => !(bootLinks p).contains k), linkDown := s.linkDown.filter (fun k => !(bootLinks p).contains k) }

/-- What a reset of the package leaves, before it boots. -/
def resetPackage (s : State) (p : Nat) : State := resetTables (resetCaches (resetWork s p) p) p

/-- The boot: a bad image sets BOOTERR and leaves READY clear, with no port trained; with a good one every port begins to train, and READY is
set behind the last of them. What the check of the image finds is the step's own (log entry 19). -/
def bootPackage (s : State) (p : Nat) (good : Bool) : State :=
  let s := modPkg s p (fun k => { k with ready := false, bootErr := !good, booting := good })
  let s := (List.range 24).foldl (fun s r =>
    modPort s (2 * (24 * p + r)) (fun t => { t with up := false, training := good })) s
  if good then { s with linkTrain := s.linkTrain ++ bootLinks p } else { s with linkDown := s.linkDown ++ bootLinks p }

/-- The package's memory and benches hold nothing that was written. -/
def emptyMemory (s : State) (p : Nat) : State :=
  { s with
    mem := s.mem.filter (fun kv => !packageMemory p kv.1), bench := s.bench.filter (fun kv => kv.1 / 2 ^ 27 != p)
    poison := s.poison.filter (fun kv => !packageMemory p (kv.1 * 32)), benchPoison := s.benchPoison.filter (fun kv => kv.1 / 2 ^ 22 != p) }

/-- The dirty bytes that the package's caches hold reach their homes, so that a reset leaves stored fields unchanged (R5, R368). -/
def writeBack (s : State) (p : Nat) : State :=
  let at' (s : State) (lv : Nat) (f : State → Nat → Nat → State) : State :=
    s.cache.foldl (fun s kv =>
      if kv.1 / 2 ^ 53 / 131072 = lv ∧ cachePkg kv.1 = p then f s (kv.1 / 2 ^ 53 % 131072) (kv.1 % 2 ^ 53) else s) s
  at' (at' (at' s 0 evictL1) 1 evictCC) 2 evictL2

/-- The remote descriptors of the package's interfaces take their Reset value (R353). -/
def clearDescriptors (s : State) (p : Nat) : State :=
  (s.part.filter (fun kv => vifPkg kv.1 == p)).foldl (fun s kv =>
    wipe s (partField s kv.1 48 8) (if partField s kv.1 48 8 = 0 then 0 else 65536)) s

def execColdReset (pkg : Nat) (imageGood : Bool) (s : State) : Out :=
  if pkg ≥ Config.packages then .next s else .next (bootPackage (emptyMemory (resetPackage (clearDescriptors s pkg) pkg) pkg) pkg imageGood)

def execDeviceReset (pkg : Nat) (imageGood : Bool) (s : State) : Out :=
  if pkg ≥ Config.packages then .next s else .next (bootPackage (resetPackage (clearDescriptors (writeBack s pkg) pkg) pkg) pkg imageGood)

end Sys2Proof.Machine
end

