-- ==== Sys2Proof/Machine/Dispatch.lean ====
section
/-! DEFINITION. The dispatch: one arm for each row of the opcode table, each one call of the row's meaning. -/

namespace Sys2Proof.Machine

def exec (i : Instr) (s : State) : Host.Outcome State Fault Refusal :=
  match i with
  | .mov32 f => Sys2Proof.Machine.execMov32 f s
  | .mov64 f => Sys2Proof.Machine.execMov64 f s
  | .movi32 f => Sys2Proof.Machine.execMovi32 f s
  | .movi96 f => Sys2Proof.Machine.execMovi96 f s
  | .sel64 f => Sys2Proof.Machine.execSel64 f s
  | .sel96 f => Sys2Proof.Machine.execSel96 f s
  | .lea64 f => Sys2Proof.Machine.execLea64 f s
  | .lea96 f => Sys2Proof.Machine.execLea96 f s
  | .isetp64 f => Sys2Proof.Machine.execIsetp64 f s
  | .isetp96 f => Sys2Proof.Machine.execIsetp96 f s
  | .fsetp64 f => Sys2Proof.Machine.execFsetp64 f s
  | .fsetp96 f => Sys2Proof.Machine.execFsetp96 f s
  | .bfe64 f => Sys2Proof.Machine.execBfe64 f s
  | .bfi64 f => Sys2Proof.Machine.execBfi64 f s
  | .iadd32 f => Sys2Proof.Machine.execIadd32 f s
  | .iadd32i f => Sys2Proof.Machine.execIadd32i f s
  | .iadd64 f => Sys2Proof.Machine.execIadd64 f s
  | .iadd96 f => Sys2Proof.Machine.execIadd96 f s
  | .isub32 f => Sys2Proof.Machine.execIsub32 f s
  | .isub64 f => Sys2Proof.Machine.execIsub64 f s
  | .imul32 f => Sys2Proof.Machine.execImul32 f s
  | .imul32i f => Sys2Proof.Machine.execImul32i f s
  | .imul64 f => Sys2Proof.Machine.execImul64 f s
  | .imul96 f => Sys2Proof.Machine.execImul96 f s
  | .imad64 f => Sys2Proof.Machine.execImad64 f s
  | .imad96 f => Sys2Proof.Machine.execImad96 f s
  | .imulh64 f => Sys2Proof.Machine.execImulh64 f s
  | .idiv64 f => Sys2Proof.Machine.execIdiv64 f s
  | .irem64 f => Sys2Proof.Machine.execIrem64 f s
  | .iabs32 f => Sys2Proof.Machine.execIabs32 f s
  | .iabs64 f => Sys2Proof.Machine.execIabs64 f s
  | .imin32 f => Sys2Proof.Machine.execImin32 f s
  | .imin64 f => Sys2Proof.Machine.execImin64 f s
  | .imax32 f => Sys2Proof.Machine.execImax32 f s
  | .imax64 f => Sys2Proof.Machine.execImax64 f s
  | .shl32 f => Sys2Proof.Machine.execShl32 f s
  | .shl32i f => Sys2Proof.Machine.execShl32i f s
  | .shl64 f => Sys2Proof.Machine.execShl64 f s
  | .shr32 f => Sys2Proof.Machine.execShr32 f s
  | .shr32i f => Sys2Proof.Machine.execShr32i f s
  | .shr64 f => Sys2Proof.Machine.execShr64 f s
  | .sar32 f => Sys2Proof.Machine.execSar32 f s
  | .sar32i f => Sys2Proof.Machine.execSar32i f s
  | .sar64 f => Sys2Proof.Machine.execSar64 f s
  | .rot32 f => Sys2Proof.Machine.execRot32 f s
  | .rot32i f => Sys2Proof.Machine.execRot32i f s
  | .rot64 f => Sys2Proof.Machine.execRot64 f s
  | .popc32 f => Sys2Proof.Machine.execPopc32 f s
  | .popc64 f => Sys2Proof.Machine.execPopc64 f s
  | .clz32 f => Sys2Proof.Machine.execClz32 f s
  | .clz64 f => Sys2Proof.Machine.execClz64 f s
  | .and32 f => Sys2Proof.Machine.execAnd32 f s
  | .and32i f => Sys2Proof.Machine.execAnd32i f s
  | .and64 f => Sys2Proof.Machine.execAnd64 f s
  | .and96 f => Sys2Proof.Machine.execAnd96 f s
  | .or32 f => Sys2Proof.Machine.execOr32 f s
  | .or32i f => Sys2Proof.Machine.execOr32i f s
  | .or64 f => Sys2Proof.Machine.execOr64 f s
  | .or96 f => Sys2Proof.Machine.execOr96 f s
  | .xor32 f => Sys2Proof.Machine.execXor32 f s
  | .xor32i f => Sys2Proof.Machine.execXor32i f s
  | .xor64 f => Sys2Proof.Machine.execXor64 f s
  | .xor96 f => Sys2Proof.Machine.execXor96 f s
  | .not32 f => Sys2Proof.Machine.execNot32 f s
  | .not64 f => Sys2Proof.Machine.execNot64 f s
  | .brev32 f => Sys2Proof.Machine.execBrev32 f s
  | .brev64 f => Sys2Proof.Machine.execBrev64 f s
  | .fadd32 f => Sys2Proof.Machine.execFadd32 f s
  | .fadd64 f => Sys2Proof.Machine.execFadd64 f s
  | .fadd96 f => Sys2Proof.Machine.execFadd96 f s
  | .fmul32 f => Sys2Proof.Machine.execFmul32 f s
  | .fmul64 f => Sys2Proof.Machine.execFmul64 f s
  | .fmul96 f => Sys2Proof.Machine.execFmul96 f s
  | .ffma64 f => Sys2Proof.Machine.execFfma64 f s
  | .ffma96 f => Sys2Proof.Machine.execFfma96 f s
  | .fmin32 f => Sys2Proof.Machine.execFmin32 f s
  | .fmin64 f => Sys2Proof.Machine.execFmin64 f s
  | .fmin96 f => Sys2Proof.Machine.execFmin96 f s
  | .fmax32 f => Sys2Proof.Machine.execFmax32 f s
  | .fmax64 f => Sys2Proof.Machine.execFmax64 f s
  | .fmax96 f => Sys2Proof.Machine.execFmax96 f s
  | .frnd64 f => Sys2Proof.Machine.execFrnd64 f s
  | .hfma264 f => Sys2Proof.Machine.execHfma264 f s
  | .hfma296 f => Sys2Proof.Machine.execHfma296 f s
  | .cvt64 f => Sys2Proof.Machine.execCvt64 f s
  | .frcp64 f => Sys2Proof.Machine.execFrcp64 f s
  | .fsqrt64 f => Sys2Proof.Machine.execFsqrt64 f s
  | .frsq64 f => Sys2Proof.Machine.execFrsq64 f s
  | .fexp264 f => Sys2Proof.Machine.execFexp264 f s
  | .flog264 f => Sys2Proof.Machine.execFlog264 f s
  | .fsinpi64 f => Sys2Proof.Machine.execFsinpi64 f s
  | .fcospi64 f => Sys2Proof.Machine.execFcospi64 f s
  | .ftanh64 f => Sys2Proof.Machine.execFtanh64 f s
  | .quant64 f => Sys2Proof.Machine.execQuant64 f s
  | .deq64 f => Sys2Proof.Machine.execDeq64 f s
  | .requant64 f => Sys2Proof.Machine.execRequant64 f s
  | .cvt864 f => Sys2Proof.Machine.execCvt864 f s
  | .scale64 f => Sys2Proof.Machine.execScale64 f s
  | .grow32 f => Sys2Proof.Machine.execGrow32 f s
  | .grow64 f => Sys2Proof.Machine.execGrow64 f s
  | .shrink32 f => Sys2Proof.Machine.execShrink32 f s
  | .shrink64 f => Sys2Proof.Machine.execShrink64 f s
  | .laneid32 f => Sys2Proof.Machine.execLaneid32 f s
  | .part32 f => Sys2Proof.Machine.execPart32 f s
  | .part64 f => Sys2Proof.Machine.execPart64 f s
  | .pand32 f => Sys2Proof.Machine.execPand32 f s
  | .pand64 f => Sys2Proof.Machine.execPand64 f s
  | .por32 f => Sys2Proof.Machine.execPor32 f s
  | .por64 f => Sys2Proof.Machine.execPor64 f s
  | .pxor32 f => Sys2Proof.Machine.execPxor32 f s
  | .pxor64 f => Sys2Proof.Machine.execPxor64 f s
  | .pnot32 f => Sys2Proof.Machine.execPnot32 f s
  | .pnot64 f => Sys2Proof.Machine.execPnot64 f s
  | .join32 f => Sys2Proof.Machine.execJoin32 f s
  | .join64 f => Sys2Proof.Machine.execJoin64 f s
  | .leave32 f => Sys2Proof.Machine.execLeave32 f s
  | .leave64 f => Sys2Proof.Machine.execLeave64 f s
  | .waitm32 f => Sys2Proof.Machine.execWaitm32 f s
  | .waitm64 f => Sys2Proof.Machine.execWaitm64 f s
  | .bra32 f => Sys2Proof.Machine.execBra32 f s
  | .bra96 f => Sys2Proof.Machine.execBra96 f s
  | .call32 f => Sys2Proof.Machine.execCall32 f s
  | .call96 f => Sys2Proof.Machine.execCall96 f s
  | .shfl64 f => Sys2Proof.Machine.execShfl64 f s
  | .push64 f => Sys2Proof.Machine.execPush64 f s
  | .vote64 f => Sys2Proof.Machine.execVote64 f s
  | .reduce64 f => Sys2Proof.Machine.execReduce64 f s
  | .scan64 f => Sys2Proof.Machine.execScan64 f s
  | .brx64 f => Sys2Proof.Machine.execBrx64 f s
  | .nop32 f => Sys2Proof.Machine.execNop32 f s
  | .ret32 f => Sys2Proof.Machine.execRet32 f s
  | .tret32 f => Sys2Proof.Machine.execTret32 f s
  | .bkpt32 f => Sys2Proof.Machine.execBkpt32 f s
  | .trap32 f => Sys2Proof.Machine.execTrap32 f s
  | .exit32 f => Sys2Proof.Machine.execExit32 f s
  | .ld64 f => Sys2Proof.Machine.execLd64 f s
  | .ld96 f => Sys2Proof.Machine.execLd96 f s
  | .st64 f => Sys2Proof.Machine.execSt64 f s
  | .st96 f => Sys2Proof.Machine.execSt96 f s
  | .atom64 f => Sys2Proof.Machine.execAtom64 f s
  | .atom96 f => Sys2Proof.Machine.execAtom96 f s
  | .red64 f => Sys2Proof.Machine.execRed64 f s
  | .red96 f => Sys2Proof.Machine.execRed96 f s
  | .waita64 f => Sys2Proof.Machine.execWaita64 f s
  | .poll64 f => Sys2Proof.Machine.execPoll64 f s
  | .pref64 f => Sys2Proof.Machine.execPref64 f s
  | .pref96 f => Sys2Proof.Machine.execPref96 f s
  | .cwb64 f => Sys2Proof.Machine.execCwb64 f s
  | .cinv64 f => Sys2Proof.Machine.execCinv64 f s
  | .devl64 f => Sys2Proof.Machine.execDevl64 f s
  | .rput64 f => Sys2Proof.Machine.execRput64 f s
  | .rput96 f => Sys2Proof.Machine.execRput96 f s
  | .rget64 f => Sys2Proof.Machine.execRget64 f s
  | .rget96 f => Sys2Proof.Machine.execRget96 f s
  | .ratom64 f => Sys2Proof.Machine.execRatom64 f s
  | .ratom96 f => Sys2Proof.Machine.execRatom96 f s
  | .ord64 f => Sys2Proof.Machine.execOrd64 f s
  | .rel64 f => Sys2Proof.Machine.execRel64 f s
  | .acq64 f => Sys2Proof.Machine.execAcq64 f s
  | .fence32 f => Sys2Proof.Machine.execFence32 f s
  | .fence64 f => Sys2Proof.Machine.execFence64 f s
  | .wait64 f => Sys2Proof.Machine.execWait64 f s
  | .bari64 f => Sys2Proof.Machine.execBari64 f s
  | .waitb64 f => Sys2Proof.Machine.execWaitb64 f s
  | .waitbTag64 f => Sys2Proof.Machine.execWaitbTag64 f s
  | .bart64 f => Sys2Proof.Machine.execBart64 f s
  | .badd64 f => Sys2Proof.Machine.execBadd64 f s
  | .csrr32 f => Sys2Proof.Machine.execCsrr32 f s
  | .csrr64 f => Sys2Proof.Machine.execCsrr64 f s
  | .csrw32 f => Sys2Proof.Machine.execCsrw32 f s
  | .csrw64 f => Sys2Proof.Machine.execCsrw64 f s
  | .vacate64 f => Sys2Proof.Machine.execVacate64 f s
  | .freeze64 f => Sys2Proof.Machine.execFreeze64 f s
  | .thaw64 f => Sys2Proof.Machine.execThaw64 f s
  | .rsv64 f => Sys2Proof.Machine.execRsv64 f s
  | .rls64 f => Sys2Proof.Machine.execRls64 f s
  | .cvdecl64 f => Sys2Proof.Machine.execCvdecl64 f s
  | .sign32 f => Sys2Proof.Machine.execSign32 f s
  | .sign64 f => Sys2Proof.Machine.execSign64 f s
  | .mma64 f => Sys2Proof.Machine.execMma64 f s
  | .mdrain64 f => Sys2Proof.Machine.execMdrain64 f s
  | .mbyp64 f => Sys2Proof.Machine.execMbyp64 f s
  | .rstat64 f => Sys2Proof.Machine.execRstat64 f s
  | .lstream64 f => Sys2Proof.Machine.execLstream64 f s
  | .lsmerge64 f => Sys2Proof.Machine.execLsmerge64 f s
  | .lsgrad64 f => Sys2Proof.Machine.execLsgrad64 f s
  | .cpy64 f => Sys2Proof.Machine.execCpy64 f s
  | .plane64 f => Sys2Proof.Machine.execPlane64 f s
  | .gather64 f => Sys2Proof.Machine.execGather64 f s
  | .pool64 f => Sys2Proof.Machine.execPool64 f s
  | .collStart64 f => Sys2Proof.Machine.execCollStart64 f s
  | .collStop64 f => Sys2Proof.Machine.execCollStop64 f s
  | .collStatus64 f => Sys2Proof.Machine.execCollStatus64 f s
  | .spawn64 f => Sys2Proof.Machine.execSpawn64 f s
  | .tdone64 f => Sys2Proof.Machine.execTdone64 f s
  | .phase32 f => Sys2Proof.Machine.execPhase32 f s
  | .phase64 f => Sys2Proof.Machine.execPhase64 f s
  | .issueArbitration core => Sys2Proof.Machine.execIssueArbitration core s
  | .progressOverride core => Sys2Proof.Machine.execProgressOverride core s
  | .continuationReady w n => Sys2Proof.Machine.execContinuationReady w n s
  | .deferredFaultFound op => Sys2Proof.Machine.execDeferredFaultFound op s
  | .trapDelivery w => Sys2Proof.Machine.execTrapDelivery w s
  | .loadDataReturn op => Sys2Proof.Machine.execLoadDataReturn op s
  | .storePerformed op => Sys2Proof.Machine.execStorePerformed op s
  | .atomResultReturn op => Sys2Proof.Machine.execAtomResultReturn op s
  | .pageWalkComplete walk => Sys2Proof.Machine.execPageWalkComplete walk s
  | .activeMessage op => Sys2Proof.Machine.execActiveMessage op s
  | .otherDieRead die line => Sys2Proof.Machine.execOtherDieRead die line s
  | .otherDieWrite die line => Sys2Proof.Machine.execOtherDieWrite die line s
  | .l2Eviction level unit line => Sys2Proof.Machine.execL2Eviction level unit line s
  | .backInvalidation line holder => Sys2Proof.Machine.execBackInvalidation line holder s
  | .backInvalidationAnswer line holder => Sys2Proof.Machine.execBackInvalidationAnswer line holder s
  | .bisnp pkg line => Sys2Proof.Machine.execBisnp pkg line s
  | .regionModeSwitch c base len => Sys2Proof.Machine.execRegionModeSwitch c base len s
  | .fenceComplete op => Sys2Proof.Machine.execFenceComplete op s
  | .devlPerformed op => Sys2Proof.Machine.execDevlPerformed op s
  | .waitaWake w n => Sys2Proof.Machine.execWaitaWake w n s
  | .waitaTimeout w n => Sys2Proof.Machine.execWaitaTimeout w n s
  | .waitaReread w n => Sys2Proof.Machine.execWaitaReread w n s
  | .uncorrectableError space addr => Sys2Proof.Machine.execUncorrectableError space addr s
  | .correctedError die unit addr => Sys2Proof.Machine.execCorrectedError die unit addr s
  | .allocatorPass core => Sys2Proof.Machine.execAllocatorPass core s
  | .growSpill core => Sys2Proof.Machine.execGrowSpill core s
  | .spillRestore core crew => Sys2Proof.Machine.execSpillRestore core crew s
  | .waveSlotRelease w => Sys2Proof.Machine.execWaveSlotRelease w s
  | .engineEntryPush e => Sys2Proof.Machine.execEngineEntryPush e s
  | .copyCommandStart core ch => Sys2Proof.Machine.execCopyCommandStart core ch s
  | .copyFlitDelivery core ch => Sys2Proof.Machine.execCopyFlitDelivery core ch s
  | .copyBlockVerified core ch => Sys2Proof.Machine.execCopyBlockVerified core ch s
  | .chanTagFail core ch => Sys2Proof.Machine.execChanTagFail core ch s
  | .copyBlockRefetch core ch => Sys2Proof.Machine.execCopyBlockRefetch core ch s
  | .copyComplete core ch => Sys2Proof.Machine.execCopyComplete core ch s
  | .gatherPoolComplete cluster n => Sys2Proof.Machine.execGatherPoolComplete cluster n s
  | .matrixOpComplete core => Sys2Proof.Machine.execMatrixOpComplete core s
  | .launch ring => Sys2Proof.Machine.execLaunch ring s
  | .tasks ring => Sys2Proof.Machine.execTasks ring s
  | .nodes ring => Sys2Proof.Machine.execNodes ring s
  | .event ring => Sys2Proof.Machine.execEvent ring s
  | .waitv ring => Sys2Proof.Machine.execWaitv ring s
  | .eventWrite ring => Sys2Proof.Machine.execEventWrite ring s
  | .waitvSatisfied ring => Sys2Proof.Machine.execWaitvSatisfied ring s
  | .ringRestart ring tail => Sys2Proof.Machine.execRingRestart ring tail s
  | .crewPlacement die => Sys2Proof.Machine.execCrewPlacement die s
  | .taskCompletionApply die => Sys2Proof.Machine.execTaskCompletionApply die s
  | .taskLaunchFetch pkg => Sys2Proof.Machine.execTaskLaunchFetch pkg s
  | .batchTimerExpiry die bin => Sys2Proof.Machine.execBatchTimerExpiry die bin s
  | .batchLaunch die => Sys2Proof.Machine.execBatchLaunch die s
  | .send ctx => Sys2Proof.Machine.execSend ctx s
  | .recv ctx => Sys2Proof.Machine.execRecv ctx s
  | .rscat ctx => Sys2Proof.Machine.execRscat ctx s
  | .agath ctx => Sys2Proof.Machine.execAgath ctx s
  | .mcast ctx => Sys2Proof.Machine.execMcast ctx s
  | .signal ctx => Sys2Proof.Machine.execSignal ctx s
  | .loop ctx => Sys2Proof.Machine.execLoop ctx s
  | .halt ctx => Sys2Proof.Machine.execHalt ctx s
  | .collBadCommand ctx => Sys2Proof.Machine.execCollBadCommand ctx s
  | .collReservedCommand ctx => Sys2Proof.Machine.execCollReservedCommand ctx s
  | .wordComplete ctx => Sys2Proof.Machine.execWordComplete ctx s
  | .collTimeout ctx => Sys2Proof.Machine.execCollTimeout ctx s
  | .abortPacket ctx => Sys2Proof.Machine.execAbortPacket ctx s
  | .freezeNotice ctx => Sys2Proof.Machine.execFreezeNotice ctx s
  | .thawNotice ctx => Sys2Proof.Machine.execThawNotice ctx s
  | .fwd pkt => Sys2Proof.Machine.execFwd pkt s
  | .addF32 pkt => Sys2Proof.Machine.execAddF32 pkt s
  | .addBf16 pkt => Sys2Proof.Machine.execAddBf16 pkt s
  | .routeMcast pkt => Sys2Proof.Machine.execRouteMcast pkt s
  | .deliver pkt => Sys2Proof.Machine.execDeliver pkt s
  | .routeSignal pkt => Sys2Proof.Machine.execRouteSignal pkt s
  | .routeErrorNotice pkt => Sys2Proof.Machine.execRouteErrorNotice pkt s
  | .resendRequest pkt => Sys2Proof.Machine.execResendRequest pkt s
  | .flitReceive port crcGood => Sys2Proof.Machine.execFlitReceive port crcGood s
  | .ack port => Sys2Proof.Machine.execAck port s
  | .nak port => Sys2Proof.Machine.execNak port s
  | .ackTimer port => Sys2Proof.Machine.execAckTimer port s
  | .nakRepeatTimer port => Sys2Proof.Machine.execNakRepeatTimer port s
  | .replayTimer port => Sys2Proof.Machine.execReplayTimer port s
  | .portDown port => Sys2Proof.Machine.execPortDown port s
  | .dropNotice pkt => Sys2Proof.Machine.execDropNotice pkt s
  | .dropGatherTimer n => Sys2Proof.Machine.execDropGatherTimer n s
  | .reservationRequest n slot => Sys2Proof.Machine.execReservationRequest n slot s
  | .reservationGrant n => Sys2Proof.Machine.execReservationGrant n s
  | .reservedWindowStart n => Sys2Proof.Machine.execReservedWindowStart n s
  | .remoteAccessRequest op => Sys2Proof.Machine.execRemoteAccessRequest op s
  | .remoteAccessResponse op => Sys2Proof.Machine.execRemoteAccessResponse op s
  | .netRequest req => Sys2Proof.Machine.execNetRequest req s
  | .netResponse req rttNs => Sys2Proof.Machine.execNetResponse req rttNs s
  | .staleNotice req => Sys2Proof.Machine.execStaleNotice req s
  | .netRetryTimer req => Sys2Proof.Machine.execNetRetryTimer req s
  | .busyResendTimer req => Sys2Proof.Machine.execBusyResendTimer req s
  | .responseAck req => Sys2Proof.Machine.execResponseAck req s
  | .atomicCacheExpiry die n => Sys2Proof.Machine.execAtomicCacheExpiry die n s
  | .regionContextFill die region => Sys2Proof.Machine.execRegionContextFill die region s
  | .dcdExtentAdded pkg port base len => Sys2Proof.Machine.execDcdExtentAdded pkg port base len s
  | .cxlResponseTimeout op => Sys2Proof.Machine.execCxlResponseTimeout op s
  | .barrierCountingCycle obj => Sys2Proof.Machine.execBarrierCountingCycle obj s
  | .barrierAutoRecomplete obj => Sys2Proof.Machine.execBarrierAutoRecomplete obj s
  | .routeTagRelease die tag => Sys2Proof.Machine.execRouteTagRelease die tag s
  | .drainEngineTimeout vif => Sys2Proof.Machine.execDrainEngineTimeout vif s
  | .systemOpComplete vif => Sys2Proof.Machine.execSystemOpComplete vif s
  | .invalidate c base len => Sys2Proof.Machine.execInvalidate c base len s
  | .bmread c first n => Sys2Proof.Machine.execBmread c first n s
  | .esload c die image => Sys2Proof.Machine.execEsload c die image s
  | .phaseset c die value => Sys2Proof.Machine.execPhaseset c die value s
  | .ringcfg c ring base size ctl => Sys2Proof.Machine.execRingcfg c ring base size ctl s
  | .rdesc c r => Sys2Proof.Machine.execRdesc c r s
  | .bufmap c n entry => Sys2Proof.Machine.execBufmap c n entry s
  | .wavectlResume c lcore slot => Sys2Proof.Machine.execWavectlResume c lcore slot s
  | .wavectlEnd c lcore slot => Sys2Proof.Machine.execWavectlEnd c lcore slot s
  | .wavectlFrame c lcore slot => Sys2Proof.Machine.execWavectlFrame c lcore slot s
  | .sysopVacate c base cores => Sys2Proof.Machine.execSysopVacate c base cores s
  | .sysopFreeze c base size => Sys2Proof.Machine.execSysopFreeze c base size s
  | .sysopThaw c base => Sys2Proof.Machine.execSysopThaw c base s
  | .ctrread c counter unit clear => Sys2Proof.Machine.execCtrread c counter unit clear s
  | .partset c vi entry => Sys2Proof.Machine.execPartset c vi entry s
  | .lctset c vi n entry => Sys2Proof.Machine.execLctset c vi n entry s
  | .linkctlRetrain c port => Sys2Proof.Machine.execLinkctlRetrain c port s
  | .linkctlDisable c port => Sys2Proof.Machine.execLinkctlDisable c port s
  | .linkTrainingComplete port ok => Sys2Proof.Machine.execLinkTrainingComplete port ok s
  | .powercap c watts => Sys2Proof.Machine.execPowercap c watts s
  | .featlock c vi featen => Sys2Proof.Machine.execFeatlock c vi featen s
  | .coldReset pkg imageGood => Sys2Proof.Machine.execColdReset pkg imageGood s
  | .deviceReset pkg imageGood => Sys2Proof.Machine.execDeviceReset pkg imageGood s
  | .interfaceReset vif => Sys2Proof.Machine.execInterfaceReset vif s
  | .powerControlTick pkg watts temp0 temp1 => Sys2Proof.Machine.execPowerControlTick pkg watts temp0 temp1 s
  | .coreFailure core => Sys2Proof.Machine.execCoreFailure core s
  | .dcdExtentRelease pkg port base len => Sys2Proof.Machine.execDcdExtentRelease pkg port base len s
  | .busyAnswer req => Sys2Proof.Machine.execBusyAnswer req s
  | .unknownOpcode ring => Sys2Proof.Machine.execUnknownOpcode ring s
  | .straddle ring => Sys2Proof.Machine.execStraddle ring s

end Sys2Proof.Machine
end

