-- ==== Sys2Proof/Machine/Queue.lean ====
section
/-! DEFINITION. A command that waits in its queue is tried again until it runs (R441). -/

namespace Sys2Proof.Machine

/-- The command that waits first in a queue runs, if it need not wait any more; those behind it move up. -/
def heldCommand (s : State) (k : Nat) : Option State :=
  match (getQueue s k).held with
  | [] => none
  | i :: rest =>
    match exec i (modQueue s k (fun q => { q with held := [], again := true })) with
    | .next t => if (getQueue t k).held.isEmpty then some (modQueue t k (fun q => { q with held := rest, again := false })) else none
    | _ => none

/-- The first waiting command that can run. -/
def retryHeld (s : State) : Option State :=
  s.cmdqs.foldl (fun r kv => match r with | some t => some t | none => heldCommand s kv.1) none

end Sys2Proof.Machine
end

