-- ==== Sys2Proof/Machine/Sched.lean ====
section
/-! DEFINITION. The step that the machine takes when no instruction is due and no step is asked for: the first of its own
pending steps, in an order whose beginning moves on so that none waits for ever, timers last (log entry 8). -/

namespace Sys2Proof.Machine

/-- The wave that issues next: the first of `turns` that has an instruction due, else the current wave, else the lowest. -/
def dueWave (s : State) : Option Nat :=
  match s.turns.find? (fun w => issuing (getWave s w)) with
  | some w => some w
  | none => if issuing s.wave then some s.cur else (s.waves.find? (fun kv => issuing kv.2)).map (·.1)

/-- Turns that have come or that no wave can take are dropped. -/
def takeTurn (s : State) (w : Nat) : State :=
  focus { s with turns := (s.turns.dropWhile (fun v => !issuing (getWave s v))).tail } w

/-- The first step of a list that changes the machine or stops it. -/
def firstEvent (s : State) : List (State → Out) → Option Out
  | [] => none
  | f :: rest =>
    match f s with
    | .next t => if t = s then firstEvent s rest else some (.next { t with rotor := s.rotor + 1 })
    | o => some o

/-- Waves and cores in use. -/
def waveNumbers (s : State) : List Nat := ((allWaves s).filter (fun kv => kv.2.status != .absent)).map (·.1)
def coreNumbers (s : State) : List Nat := ((waveNumbers s).map waveCore).eraseDups

/-- Steps of the waves and of what they have in flight (R243, R408, R195, R203, R204, R391, R400, R263). -/
def memoryEvents (s : State) : List (State → Out) :=
  (waveNumbers s).map (fun w => execTrapDelivery w)
  ++ (waveNumbers s).map (fun w s => .next (reinject s w))
  ++ s.ops.flatMap (fun o => [execDeferredFaultFound o.id, execLoadDataReturn o.id, execStorePerformed o.id, execAtomResultReturn o.id,
      execFenceComplete o.id, execDevlPerformed o.id, execActiveMessage o.id, execRemoteAccessRequest o.id, execRemoteAccessResponse o.id])
  ++ s.walks.map (fun k => execPageWalkComplete k.id)
  ++ s.dieInval.map (fun x => execOtherDieWrite x.1 x.2)
  ++ s.backInv.map (fun b => execBackInvalidationAnswer b.line b.holder)
  ++ s.bars.flatMap (fun kv => [execBarrierCountingCycle kv.1, execBarrierAutoRecomplete kv.1])
  ++ s.tags.map (fun kv => execRouteTagRelease (kv.1 / 8) (kv.1 % 8))
  ++ (allWaves s).flatMap (fun kv => (List.range kv.2.waits.length).flatMap (fun i => [execWaitaWake kv.1 i, execWaitaReread kv.1 i]))

/-- Steps of the cores' engines and allocators (R157 to R160, R169, R281, R308, R310, R316), of system operations and of command queues. -/
def coreEvents (s : State) : List (State → Out) :=
  (List.range s.entries.length).map (fun e => execEngineEntryPush e)
  ++ (waveNumbers s).map (fun w => execWaveSlotRelease w)
  ++ (coreNumbers s).flatMap (fun c => [execMatrixOpComplete c, execAllocatorPass c, execGrowSpill c]
      ++ ((crewsOn s c).filter (fun kv => kv.2.spilled)).map (fun kv => execSpillRestore c kv.1))
  ++ s.cores.flatMap (fun kv => kv.2.chan.flatMap (fun q => [execCopyCommandStart kv.1 q.1, execCopyFlitDelivery kv.1 q.1,
      execCopyBlockVerified kv.1 q.1, execCopyBlockRefetch kv.1 q.1, execCopyComplete kv.1 q.1]))
  ++ s.gathers.flatMap (fun kv => (List.range kv.2.length).map (fun i => execGatherPoolComplete kv.1 i))
  ++ s.ifaces.map (fun kv => execSystemOpComplete kv.1)
  ++ s.cmdqs.map (fun kv => badCommand kv.1)

/-- Steps of the collective engines, the fabric and the network (R337 to R361). -/
def fabricEvents (s : State) : List (State → Out) :=
  s.ctxs.flatMap (fun kv => [execAbortPacket kv.1, execFreezeNotice kv.1, execThawNotice kv.1, execWordComplete kv.1, execSend kv.1,
      execRecv kv.1, execRscat kv.1, execAgath kv.1, execMcast kv.1, execSignal kv.1, execLoop kv.1, execHalt kv.1, execCollBadCommand kv.1,
      execCollReservedCommand kv.1])
  ++ s.packets.flatMap (fun p => [execDeliver p.id, execRouteSignal p.id, execRouteMcast p.id, execAddF32 p.id, execAddBf16 p.id,
      execFwd p.id, execRouteErrorNotice p.id, execDropNotice p.id])
  ++ s.ports.flatMap (fun kv => [execFlitReceive kv.1 true, execAck kv.1, execNak kv.1, execPortDown kv.1])
  ++ (List.range s.bulks.length).flatMap (fun i => [execReservationGrant i] ++ (match s.bulks[i]? with
      | some b => [execReservationRequest i (grantFor s (b.dst / 2) b.bytes).1]
      | none => []))
  ++ s.netReqs.flatMap (fun r => [execNetResponse r.id (freeN s 3).2, execStaleNotice r.id, execNetRequest r.id, execBusyAnswer r.id,
      execRegionContextFill (netDie s r) (regionKey s r)])
  ++ s.atomCache.map (fun c => execResponseAck c.2.1)

/-- Steps of the front end, the task units, the dispatchers and the arbiters (R26, R299 to R326). -/
def frontEvents (s : State) : List (State → Out) :=
  let pkgs := (s.part.map (fun kv => vifPkg kv.1)).eraseDups
  s.rings.flatMap (fun kv => [execEventWrite kv.1, execWaitvSatisfied kv.1, execLaunch kv.1, execTasks kv.1, execNodes kv.1, execEvent kv.1,
      execWaitv kv.1, execUnknownOpcode kv.1, execStraddle kv.1])
  ++ s.taskUnits.flatMap (fun kv => [execTaskCompletionApply kv.1, execBatchLaunch kv.1])
  ++ pkgs.flatMap (fun p => [execTaskLaunchFetch p, execCrewPlacement (2 * p), execCrewPlacement (2 * p + 1)])
  ++ (waveNumbers s).flatMap (fun w => (List.range (getWave s w).conts.length).map (fun i => execContinuationReady w i))
  ++ (coreNumbers s).flatMap (fun c => [execProgressOverride c, execIssueArbitration c])

/-- Timers pass when nothing else is left to do. -/
def timerEvents (s : State) : List (State → Out) :=
  (allWaves s).flatMap (fun kv => (List.range kv.2.waits.length).map (fun i => execWaitaTimeout kv.1 i))
  ++ s.taskUnits.flatMap (fun kv => kv.2.batches.map (fun b => execBatchTimerExpiry kv.1 b.bin))
  ++ s.ports.flatMap (fun kv => [execAckTimer kv.1, execNakRepeatTimer kv.1] ++ (if kv.2.wire.isEmpty then [execReplayTimer kv.1] else []))
  ++ s.ports.map (fun kv => execLinkTrainingComplete (kv.1 / 2) true) ++ s.linkTrain.map (fun k => execLinkTrainingComplete k true)
  ++ (s.ops.filter (fun o => o.lanes.any (deadLane s o))).map (fun o => execCxlResponseTimeout o.id)
  ++ (List.range s.bulks.length).flatMap (fun i => [execDropGatherTimer i, execReservedWindowStart i])
  ++ s.netReqs.flatMap (fun r => [execBusyResendTimer r.id, execNetRetryTimer r.id])
  ++ s.atomCache.map (fun c => execAtomicCacheExpiry c.1 0)
  ++ s.ifaces.map (fun kv => execDrainEngineTimeout kv.1)
  ++ s.ctxs.map (fun kv => execCollTimeout kv.1)

/-- The steps that may come next, but for timers, from the one whose turn it is. -/
def ownEvents (s : State) : List (State → Out) :=
  let l := memoryEvents s ++ coreEvents s ++ fabricEvents s ++ frontEvents s
  l.drop (s.rotor % l.length) ++ l.take (s.rotor % l.length)

/-- The machine's own next step; with nothing pending the machine idles. -/
def eventStep (s : State) : Out := (firstEvent s (ownEvents s ++ timerEvents s)).getD (.next s)

end Sys2Proof.Machine
end

