-- ==== Sys2Proof/Machine/Step.lean ====
section
/-! DEFINITION. One step of the machine, and the state in which a given instruction is the next to run. -/

namespace Sys2Proof.Machine

/-- An instruction of a disabled feature: 0x004, or the lower cause that its fields meet (R92, R379). -/
def runDisabled (i : Instr) (s : State) : Host.Outcome State Fault Refusal :=
  match exec i s with
  | .next t => if raisedLower s t then .next t else .next (raiseDecode s 0x004 (encode i))
  | _ => .next (raiseDecode s 0x004 (encode i))

/-- The current wave issues the instruction due on its path. -/
def issueStep (s : State) : Host.Outcome State Fault Refusal :=
  match nextInstr s with
  | .ok (i, _) => if disabled s i then runDisabled i s else exec i s
  | .error e => .next (raiseDecode s (decodeCause e) (codeWords s (waveDie s.cur) (curPath s.wave)))

/-- One step: the first step of the agenda; else the instruction due; else a command that has waited, or a step of the machine's own. -/
def step (s : State) : Host.Outcome State Fault Refusal :=
  match s.agenda with
  | i :: rest => if i.isIsa then .next { s with agenda := rest } else exec i { s with agenda := rest }
  | [] =>
    match dueWave s with
    | some w => issueStep (takeTurn s w)
    | none => match retryHeld s with
      | some t => .next t
      | none => eventStep s

/-- The physical address of the page in which `withFetchWord` places an instruction: the second 4 KiB of the die's memory. -/
def probePage (s : State) : Nat := waveDie s.cur * 2 ^ 50 + 4096

/-- `s` with an instruction placed where the current wave fetches next: its bytes in memory, no cached line over them, and
the wave issuing a stroke of 24 instructions on path A with every lane live and 32 granules. -/
def State.withFetchWord (s : State) (nbits w : Nat) : State :=
  let bytes := bytesOfWords (tableParcels nbits w)
  let page := probePage s
  let put (m : Memory) (b : Byte × Nat) : Memory := m.write (page + 8 + b.2) b.1
  { s with
    agenda := [], turns := []
    mem := bytes.zipIdx.foldl put s.mem
    cache := s.cache.filter (fun kv => kv.1 % 2 ^ 53 != lineOf (page + 8))
    wave := { s.wave with
      status := .running, gran := 32, turnB := false, pathB := {}
      k := smSet s.wave.k 0 0 (BitVec.allOnes 32)
      pathA := { on := true, lanes := BitVec.allOnes 32, pc := 0x1008, head := 0x1000, idx := 0, count := 24, fall := 0x2000, page := page } } }

end Sys2Proof.Machine
end

