-- ==== Sys2Proof/Safety.lean ====
section
/-! DEFINITION. What counts as a safe run, and the words in which claims say what an instruction left alone. -/

namespace Sys2Proof

/-- `k` steps from `s` reach a next state each time. -/
def runsSafely (k : Nat) (s : Machine.State) : Prop := ∃ t, Sys2Proof.core.run k s = .next t

/-- The state's memories are in canonical form. -/
def memoriesWf (s : Machine.State) : Prop := s.mem.wf = true ∧ s.bench.wf = true

namespace Machine

/-- A state without its waves: equal for two states when everything but waves is equal, every byte of memory and of the
benches, every cache line, crew, core, table and counter among it. -/
def eraseWaves (s : State) : State := { s with wave := {}, waves := [] }

/-- Two states agree on everything but their waves. -/
def SameElse (s t : State) : Prop := eraseWaves s = eraseWaves t

/-- A wave without what issuing an instruction moves: where its lanes and paths stand, whether it has stopped, and the record of
why. -/
def eraseIssue (x : Wave) : Wave :=
  { x with lane := [], pathA := {}, pathB := {}, turnB := false, cycle := 0, ordp := 0, status := .running, stepped := false
           pend := [], faulted := 0, lcause := [], active := 0, late := [] }

/-- Two waves agree on every register, counter, queue, mask, wait and continuation, and every lane on its return stack and its
mask wait. -/
def SameRegs (x y : Wave) : Prop :=
  eraseIssue x = eraseIssue y ∧
  ∀ l, (getLane x l).stack = (getLane y l).stack ∧ (getLane x l).park = (getLane y l).park ∧ (getLane x l).tile = (getLane y l).tile

/-- Nothing is about to stop the current wave: no cause stands undelivered with its pair, and path B's stroke has started (R407). -/
def Unstopped (u : State) : Prop := u.wave.pathB.bad = none ∧ (getWave u (mainWave u u.cur)).pend = []

/-- State `u` is what the instruction's own effect left; in `t` the instruction has retired. Nothing but the waves' issue moved;
unless a step trap was due (R126), a cause stood undelivered, or path B's stroke could not start (R407), `t` is `u` with the current
wave's path moved on by `advance`. ORDP is as `advance` leaves it, but where a read of the cycle has faulted, whose slot the stop puts
back (R482). -/
def Retired (i : Instr) (s u t : State) : Prop :=
  SameElse u t ∧ (∀ w, SameRegs (getWave u w) (getWave t w)) ∧
  (u.wave.late = [] → t.wave.ordp = (advance u.wave (instrBytes i)).ordp) ∧
  (stepping s.wave = false → Unstopped u → t = { u with wave := advance u.wave (instrBytes i) })

/-- From `v` only the waves' issue moved to `t`, and where nothing was about to stop the wave, `quiet`, nothing moved. -/
def IssueEnds (v t : State) (quiet : Prop) : Prop :=
  SameElse v t ∧ (∀ w, SameRegs (getWave v w) (getWave t w)) ∧ (v.wave.late = [] → t.wave.ordp = v.wave.ordp) ∧ (quiet → t = v)

/-- The stroke of the current wave of `u` ended at its instruction, which begins a continuation that waits for `c` and keeps its
path's slot as said (R28, R127). -/
def HeldAt (u t : State) (c : Cond) (keep : Option Nat) : Prop :=
  IssueEnds { u with wave := holdPath u.wave c keep } t (Unstopped u)

/-- The instruction has retired and its stroke ended behind it; the path goes on where `c` allows (R157, R425). -/
def HeldBehind (i : Instr) (s u t : State) (c : Cond) : Prop :=
  IssueEnds { u with wave := holdAfter u.wave (instrBytes i) c } t (stepping s.wave = false ∧ Unstopped u)

/-- A cause has been raised for lanes of the current wave of `u`, and nothing else moved: the cause stands undelivered with the
wave that takes the pair's traps, and a compute wave has stopped (R406, R410). -/
def Raised (u t : State) (cause : Nat) (lanes : Lanes) : Prop :=
  SameElse u t ∧ (∀ w, SameRegs (getWave u w) (getWave t w)) ∧
  (∃ p ∈ (getWave t (mainWave u u.cur)).pend, p.cause = cause ∧ p.lanes = lanes) ∧
  (u.wave.shadow = false → t.wave.status = .stopped)

/-- The lanes of the current wave's issuing path stand at the instruction due, inside its stroke, or at its header (R407). -/
def AtInstr (u t : State) : Prop :=
  u.wave.shadow = false → u.wave.pathA.lanes &&& u.wave.pathB.lanes = 0 →
  ∀ l < 32, (curPath u.wave).lanes.getLsbD l = true →
    (getLane t.wave l).pc = (curPath u.wave).pc ∧ (getLane t.wave l).head = (curPath u.wave).head ∧ (getLane t.wave l).mid = ((curPath u.wave).pc != (curPath u.wave).head)

/-- The current wave has an instruction due on its issuing path. -/
def Due (s : State) : Prop := (curPath s.wave).on = true

/-- The current wave is resident, able to issue, and has an instruction due on its issuing path. -/
def Issuing (s : State) : Prop := s.wave.status = .running ∧ Due s

/-- The lanes that execute an instruction with guard `g`. -/
def execLanes (s : State) (g : BitVec 5) : Lanes := guardLanes s.wave g (activeLanes s.wave (curPath s.wave))

end Machine

end Sys2Proof
end

