-- ==== Sys2Proof/Certificates/Slice0/Obligations.lean ====
section
/-! DEFINITION. Statements for the provers: `def Obligations.<Name> : Prop`. Each docstring names the rules of spec/ it
formalises. A table such as `aluRow` lists, constructor by constructor, what the manual's tables give an instruction: its guard,
its operands, and the value of its destination. -/

open Sys2Proof Sys2Proof.Machine

namespace Sys2Proof.Claims

/-! ### Words of the manual's own examples -/

/-- Parcels and the instruction that the manual says they encode: the worked encodings of 03, 05 to 07, 10, 13, 15 to 17 and 19 to
21. -/
def wordsA : List (List Word × Instr) :=
  [ ([0x4C101021, 0x10000300], .iadd64 ⟨false, 0x13, 4, 4, 0x10, 0, 0, 0, 0, 3, 0, 0⟩),
    ([0x3C240C21, 0x05000028], .iadd64 ⟨false, 15, 9, 3, 5, 0, 0, 0, 0, 0, 0, 0x28⟩),
    ([0x3C181435, 0x03001700], .idiv64 ⟨false, 15, 6, 5, 3, 0, 0, 1, 1, 3, 0, 0⟩),
    ([0x3C102054], .fmul32 ⟨false, 15, 4, 8, false⟩),
    ([0x3C300CD1, 0x09000101], .scale64 ⟨false, 15, 12, 3, 9, 0, 0, 0, 0, 1, 0, 1⟩),
    ([0x3C001094], .grow32 ⟨false, 15, 0, 8⟩),
    ([0x3C0400B0], .join32 ⟨false, 15, 1, 0, false⟩),
    ([0xBC0400B8], .waitm32 ⟨true, 15, 1, 0, false⟩),
    ([0x3C000888], .part32 ⟨false, 15, 0, 4⟩),
    ([0x3C14021C], .laneid32 ⟨false, 15, 5, 0, true⟩),
    ([0x3C8C08E9, 0x00002803], .vote64 ⟨false, 15, 0x23, 2, 0, 0, 0, 2, 2, 0, 0, 3⟩),
    ([0x3C3010ED, 0x00000008], .reduce64 ⟨false, 15, 12, 4, 0, 0, 0, 0, 0, 0, 0, 8⟩),
    ([0xBC0001E4], .ret32 ⟨true, 15, 0⟩),
    ([0xBC0001E8], .tret32 ⟨true, 15, 0⟩),
    ([0xBC0001FC], .exit32 ⟨true, 15, 0⟩) ]

def wordsB : List (List Word × Instr) :=
  [ ([0x3C181101, 0x02040100], .ld64 ⟨false, 15, 6, 4, 2, 0x40, 0, 4, 0, 0⟩),
    ([0xBC0C0905, 0x08000110], .st64 ⟨true, 15, 3, 2, 8, 0, 0, 4, 1, 0⟩),
    ([0x04340909, 0x00040120], .atom64 ⟨false, 1, 13, 2, 0, 0x40, 0, 4, 2, 0⟩),
    ([0x0428090D, 0x0018012C], .red64 ⟨false, 1, 10, 2, 0, 0x180, 0, 4, 2, 0xC⟩),
    ([0xBC200911, 0x000C012C], .waita64 ⟨true, 15, 8, 2, 0, 0x0C0, 0, 4, 2, 0xC⟩),
    ([0x84002121, 0x00000020], .cinv64 ⟨true, 1, 0, 8, 0, 0, 0, 0, 2, 0⟩),
    ([0x3C000141, 0x0000002A], .ord64 ⟨false, 15, 0, 0, 0, 0, 0, 0, 0, 0, 0, 0x2A⟩),
    ([0xBC0059F4], .fence32 ⟨true, 15, 0x2C⟩),
    ([0xBC000151, 0xFFF003C3], .wait64 ⟨true, 15, 0, 0, 0xFF, 0xF0, 0, 0, 0, 3, 3, 3⟩),
    ([0x3C000155, 0x030C0344], .bari64 ⟨false, 15, 0, 0, 3, 12, 0, 0, 0, 3, 1, 4⟩),
    ([0x3C200159, 0x03001300], .waitb64 ⟨false, 15, 8, 0, 3, 0, 0, 1, 0, 3, 0, 0⟩),
    ([0x3C18008C], .csrr32 ⟨false, 15, 6, 0⟩),
    ([0xBC180090], .csrw32 ⟨true, 15, 6, 0⟩) ]

def wordsC : List (List Word × Instr) :=
  [ ([0x3C202975, 0x04001700], .vacate64 ⟨false, 15, 8, 10, 4, 0, 0, 1, 1, 3, 0, 0⟩),
    ([0x3C202979, 0x0C001500], .freeze64 ⟨false, 15, 8, 10, 12, 0, 0, 1, 1, 1, 0, 0⟩),
    ([0x3C20297D, 0x00001400], .thaw64 ⟨false, 15, 8, 10, 0, 0, 0, 1, 1, 0, 0, 0⟩),
    ([0x3C0029D1, 0x030C0740], .collStart64 ⟨false, 15, 0, 10, 3, 12, 0, 0, 1, 3, 1, 0⟩),
    ([0x3C0001D9, 0x05000100], .tdone64 ⟨false, 15, 0, 0, 5, 0, 0, 0, 0, 1, 0, 0⟩),
    ([0x3E028191, 0xA1602A92], .mma64 ⟨false, 15, 0x80, 0xA0, 0xA1, 0x60, 0, 2, 2, 2, 2, 0x12⟩),
    ([0x3C0000BC], .sign32 ⟨false, 15, 0, 0, false⟩),
    ([0xBE000395, 0x00002010, 0x00030000, 0x80000014, 0, 0],
      .mdrain64 ⟨⟨true, 15, 0x80, 0, 0, 0, 0, 2, 0, 0, 0, 0x10⟩, 0x00030000, 0x80000014, 0, 0⟩),
    ([0xBE0283A1, 0xA1A22A92, 0x8000000E, 0x0220C101, 0x3F800000, 0x8000000F],
      .lstream64 ⟨⟨true, 15, 0x80, 0xA0, 0xA1, 0xA2, 0, 2, 2, 2, 2, 0x12⟩, 0x8000000E, 0x0220C101, 0x3F800000, 0x8000000F⟩),
    ([0xBE8A8DA5, 0x00002800], .lsmerge64 ⟨true, 15, 0xA2, 0xA3, 0, 0, 0, 2, 2, 0, 0, 0⟩),
    ([0xBC0063C1, 0x1C000509, 0x00001900, 0, 0, 0],
      .cpy64 ⟨⟨true, 15, 0, 24, 28, 0, 0, 0, 1, 1, 0, 9⟩, 0x00001900, 0, 0, 0⟩) ]

def words : List (List Word × Instr) := wordsA ++ wordsB ++ wordsC

end Sys2Proof.Claims

/-- The decoder reads the manual's worked encodings as the manual says. -/
def Obligations.WorkedEncodingsDecode : Prop :=
  ∀ e ∈ Claims.words, (decode e.1).toOption = some (e.2, [])

/-- Every well-formed instruction of a program, with every operand at every value its encoding admits, is what its own encoding
decodes to, whatever parcels follow (R71, R72, R80 to R83, R89). -/
def Obligations.EncodingRoundTrip : Prop :=
  ∀ i : Instr, i.isIsa = true → i.wf = true → ∀ rest : List Word, decode (encode i ++ rest) = .ok (i, rest)

/-- What the decoder reads is a well-formed instruction of a program, and the parcels it read are exactly that instruction's
encoding: no bit of an accepted encoding is left out, and no two accepted encodings give one instruction. -/
def Obligations.DecodedWordsAreTheEncoding : Prop :=
  ∀ (l : List Word) (i : Instr) (rest : List Word), decode l = .ok (i, rest) →
    i.isIsa = true ∧ i.wf = true ∧ encode i ++ rest = l

/-- A step with nothing on the agenda, a wave due, and a well-formed instruction at its path, is that instruction's own effect in
the state in which that wave has the turn (R71, R91). -/
def Obligations.StepRunsTheDecodedInstruction : Prop :=
  ∀ (s : State) (w : Nat) (i : Instr) (rest : List Word),
    s.agenda = [] → dueWave s = some w →
    decode (codeWords (takeTurn s w) (waveDie (takeTurn s w).cur) (curPath (takeTurn s w).wave)) = .ok (i, rest) →
    disabled (takeTurn s w) i = false → step s = exec i (takeTurn s w)

/-- A unit that is no instruction, and an instruction of a feature that the interface has disabled, raise their cause and have no
effect: 0x001, 0x002, 0x003 and 0x004 by R91, the disabled feature 0x004 by R379. A unit's reserved fields are judged when it is read,
before its feature (0x002 before 0x004), which is the model's choice of the order in step 3 (log entry 23); of an instruction of a
disabled feature that itself raises a precise cause below 0x004, that cause stands and not 0x004 (R92). -/
def Sys2Proof.Claims.IllegalWordsRaiseTheirCause : Prop :=
  ∀ (s : State) (w : Nat), s.agenda = [] → dueWave s = some w → (takeTurn s w).wave.status = .running →
    let u := takeTurn s w
    let l := codeWords u (waveDie u.cur) (curPath u.wave)
    let act := activeLanes u.wave (curPath u.wave)
    (∀ e, decode l = .error e → ∃ t, step s = .next t ∧
      Raised u t (match e with | .illegalOpcode => 0x001 | .reservedOpcode => 0x004 | .reservedField => 0x002 | .header => 0x003 | .short => 0x003) act) ∧
    (∀ i rest, decode l = .ok (i, rest) → disabled u i = true → ∃ v, exec i u = .next v ∧
      (raisedLower u v = false → ∃ t, step s = .next t ∧ Raised u t 0x004 act) ∧
      (raisedLower u v = true → step s = .next v ∧ ∃ p ∈ (getWave v (mainWave u u.cur)).pend, p.cause < 0x004))

/-- A precise fault has no effect of its instruction: in the state that it leaves, no register, counter or byte of memory has
moved from `u`, its cause stands for the pair's trap, the wave has stopped, and the lanes of its path stand at the
instruction (R406, R407). -/
def Sys2Proof.Claims.PreciseFaultStopsAtTheInstruction : Prop :=
  ∀ (i : Instr) (s u : State) (cause : Nat) (lanes : Lanes) (own : List (Nat × Nat)) (addr : Nat),
    u.cur = s.cur → u.wave.status = .running → Due u →
    Raised u (commit i s (.fault u cause lanes own addr)) cause lanes ∧ AtInstr u (commit i s (.fault u cause lanes own addr))

/-- What the end of a stroke leaves in ORDP (R127): a slot that no waiting continuation keeps is clear, whichever path's it is; the one
that a single continuation keeps shows while its path does not issue. -/
def Sys2Proof.Claims.SlotsAtEnd (x y : Wave) : Prop :=
  (∀ b, (∀ c ∈ x.conts, (c.path == 1) = b → c.slot = none) → slotOf y b = 0) ∧
  (∀ b v, (x.conts.filter (fun c => c.slot.isSome && (c.path == 1) == b)).map (·.slot) = [some v] → (pathOf y b).on = false →
    slotOf y b = v % 256)

/-- How a path goes on behind an instruction of `n` bytes (R73, R168, R127): to the next instruction while its stroke has one; at
the stroke's end its lanes stand at the fall-through header and the ORDP slots are clear, but for those that continuations keep; a
path that no lane is left on ends; the other path keeps its place, and takes the turn where it is issuing. A path that holds at its
instruction ends its stroke there: its lanes stand at the instruction, as a continuation that waits for its condition (R28). A path that
parks leaves every active lane waiting at the fall-through header, off the path (R261, R393). -/
def Sys2Proof.Claims.PathGoesOnBehindTheInstruction : Prop :=
  (∀ (x : Wave) (c : Cond) (keep : Option Nat), (curPath x).on = true →
    let y := holdPath x c keep
    let p := curPath x
    y.conts = x.conts ++ [⟨p.lanes, p.pc, p.head, keep, c, if x.turnB then 1 else 0, false⟩] ∧ Claims.SlotsAtEnd y y ∧
    pathOf y x.turnB = {} ∧ pathOf y (!x.turnB) = pathOf x (!x.turnB) ∧
    ∀ l < 32, getLane y l = if p.lanes.getLsbD l then atInstr p.pc p.head (getLane x l) else getLane x l) ∧
  (∀ (x : Wave) (a : Await),
    let y := parkPath x a
    let p := curPath x
    let m := activeLanes x p
    y.waits = x.waits ++ [⟨m, if x.turnB then 1 else 0, p.pc, p.head, p.fall, a, x.cycle⟩] ∧
    pathOf y x.turnB = { p with lanes := p.lanes &&& ~~~m } ∧ pathOf y (!x.turnB) = pathOf x (!x.turnB) ∧ y.ordp = x.ordp ∧
    ∀ l < 32, getLane y l = if m.getLsbD l then atHeader p.fall (getLane x l) else getLane x l) ∧
  ∀ (x : Wave) (n : Nat), (curPath x).on = true →
    let y := advance x n
    let p := curPath x
    pathOf y (!x.turnB) = pathOf x (!x.turnB) ∧
    ((pathOf x (!x.turnB)).on = true → y.turnB = !x.turnB) ∧
    (p.lanes ≠ 0 → p.idx + 1 < p.count →
      pathOf y x.turnB = { p with pc := p.pc + BitVec.ofNat 64 n, idx := p.idx + 1 } ∧ y.ordp = x.ordp ∧ y.lane = x.lane) ∧
    (p.lanes ≠ 0 → p.count ≤ p.idx + 1 → pathOf y x.turnB = {} ∧ Claims.SlotsAtEnd x y ∧
      ∀ l < 32, getLane y l = if p.lanes.getLsbD l then atHeader p.fall (getLane x l) else getLane x l) ∧
    (p.lanes = 0 → pathOf y x.turnB = {} ∧ Claims.SlotsAtEnd x y ∧ y.lane = x.lane)

/-- A wave that steps (R126, R420): STEP is set and no handler runs. It issues path A alone. An instruction that retires is followed by the
trap 0x3E1 for its path's lanes, with STEPPED set; they stand behind it. One that ends the stroke without retiring, because it is held or
parks, raises nothing, and neither does one that faults raise anything but its own fault. -/
def Sys2Proof.Claims.SteppedInstructionTraps : Prop :=
  (∀ (x : Wave) (gs : List Group) (a : Group), stepping x = true → bestGroup gs = some a → choosePaths x gs = some (a, none)) ∧
  (∀ (i : Instr) (s u : State), u.cur = s.cur → u.wave.status = .running → stepping s.wave = true → s.wave.pathB.on = false →
    let m := mainWave u u.cur
    let act := activeLanes s.wave (curPath s.wave)
    (let t := commit i s (.done u)
     let p := curPath u.wave
     Raised { u with wave := advance u.wave (instrBytes i) } t 0x3E1 act ∧ (getWave t s.cur).stepped = true ∧
      (u.wave.shadow = false → p.on = true → u.wave.pathA.lanes &&& u.wave.pathB.lanes = 0 → ∀ l < 32, p.lanes.getLsbD l = true →
        (getLane t.wave l).pc = if p.idx + 1 < p.count then p.pc + BitVec.ofNat 64 (instrBytes i) else p.fall)) ∧
    (∀ c keep, let t := commit i s (.hold u c keep);
      (getWave t m).pend = (getWave u m).pend ∧ (getWave t s.cur).stepped = u.wave.stepped) ∧
    (let t := commit i s (.park u);
      (getWave t m).pend = (getWave u m).pend ∧ (getWave t s.cur).stepped = u.wave.stepped) ∧
    (∀ cause lanes own addr, let t := commit i s (.fault u cause lanes own addr);
      (∀ p ∈ (getWave t m).pend, p ∈ (getWave u m).pend ∨ p.cause = cause) ∧ (getWave t s.cur).stepped = u.wave.stepped)) ∧
  (∀ (f : F32Z) (s : State), Issuing s → stepping s.wave = true → s.wave.pathB.on = false →
    ∃ t, exec (.nop32 f) s = .next t ∧ Raised { s with wave := advance s.wave 4 } t 0x3E1 (activeLanes s.wave (curPath s.wave)) ∧
      (getWave t s.cur).stepped = true)

/-- What writing a destination does (R36, R85, R88): a vector register, or a register pair, takes the value of each executing lane and
keeps every other lane's; a scalar takes its value once when a lane executes; no other register, and nothing else of the wave,
changes, but that a poisoned granule of the vector registers loses its poison where the instruction writes all eight of its lanes (R253). -/
def Obligations.DestinationIsWrittenAndNothingElse : Prop :=
  ∀ (x : Wave) (ex : Lanes) (o : Opnd) (f : Nat → Nat),
    let y := writeOpnd x ex o f
    { y with v := [], s := [], poison := [] } = { x with v := [], s := [], poison := [] } ∧
    (o.cls = 1 → y.poison = x.poison) ∧
    (o.cls = 0 → ∀ e, e ∈ y.poison ↔ e ∈ x.poison ∧ ¬ ((e.1 / 4 = o.idx ∨ (o.wide = true ∧ e.1 / 4 = o.idx + 1)) ∧ e.1 < 1024 ∧
      ∀ l < 8, ex.getLsbD (8 * (e.1 % 4) + l) = true)) ∧
    (o.cls = 0 → (∀ i, sGet y i = sGet x i) ∧ ∀ r, ∀ l < 32, vGet y r l =
      if ex.getLsbD l = true ∧ r = o.idx then f l % 2 ^ 32
      else if ex.getLsbD l = true ∧ o.wide = true ∧ r = o.idx + 1 then f l / 2 ^ 32 % 2 ^ 32
      else vGet x r l) ∧
    (o.cls = 1 → (∀ r l, vGet y r l = vGet x r l) ∧ ∀ i, sGet y i =
      if ex ≠ 0 ∧ i = o.idx then f 0 % 2 ^ 32
      else if ex ≠ 0 ∧ o.wide = true ∧ i = o.idx + 1 then f 0 / 2 ^ 32 % 2 ^ 32
      else sGet x i)

namespace Sys2Proof.Claims

/-! ### Integer and logic instructions (R139 to R145) -/

/-- A register instruction without flags as the tables of R136 and R139 to R145 give it: guard; D, A, B and C; width and number of
its elements; and the value of each element of D from the elements of the old D, A, B and C. -/
structure AluRow where
  g : BitVec 5
  d : Opnd
  a : Opnd
  b : Opnd
  c : Opnd
  n : Nat
  cnt : Nat
  f : Nat → Nat → Nat → Nat → Nat

/-- Exact integer arithmetic on elements of `n` bits, unsigned or signed, then saturated or wrapped (R139, R106). -/
def exactInt (n : Nat) (uns sat : Bool) (op : Int → Int → Int → Int) (a b c : Nat) : Nat :=
  let e (v : Nat) : Int := if uns then (v : Int) else (BitVec.ofNat n v).toInt
  let lo : Int := if uns then 0 else -(2 ^ (n - 1) : Nat)
  let hi : Int := if uns then (2 ^ n - 1 : Nat) else (2 ^ (n - 1) - 1 : Nat)
  let x := op (e a) (e b) (e c)
  (BitVec.ofInt n (if sat then max lo (min hi x) else x)).toNat

/-- The bits of an element below `n`, reversed. -/
def reversed (n a : Nat) : Nat := (BitVec.ofNat n a).reverse.toNat

/-- The number of its set bits, and of the zeros above its highest set bit. -/
def onesIn (n a : Nat) : Nat := (List.range n).countP a.testBit
def zerosAbove (n a : Nat) : Nat := ((List.range n).reverse.takeWhile (fun i => !a.testBit i)).length

/-- An F64R row of W elements: `op` on the elements. -/
def rowW (f : F64R) (b c : Opnd) (op : Nat → Nat → Nat → Nat → Nat → Nat) : AluRow :=
  ⟨f.g, intD f, intA f, b, c, elemWidth (fW f), elemCount (fW f), op (elemWidth (fW f))⟩

/-- Its integer form. -/
def rowI (f : F64R) (b c : Opnd) (op : Nat → Int → Int → Int → Int) : AluRow :=
  rowW f b c (fun n _ x y z => exactInt n (fUns f) (fSat f) (op n) x y z)

/-- Its one-element form of 32 or 64 bits. -/
def rowV (f : F64R) (b c : Opnd) (op : Nat → Nat → Nat → Nat → Nat → Nat) : AluRow :=
  ⟨f.g, intD f, intA f, b, c, if fWide f then 64 else 32, 1, op (elemWidth (fW f))⟩

/-- The 32-bit forms: D is its own first source (R136), or the immediate is A. -/
def rowA (f : F32A) (op : Nat → Nat → Nat) : AluRow := ⟨f.g, vOpnd f.d, vOpnd f.a, noOpnd, noOpnd, 32, 1, fun d a _ _ => op d a⟩
def rowL (f : F32I) (signed : Bool) (op : Nat → Nat → Nat) : AluRow :=
  ⟨f.g, vOpnd f.d, { cls := 3, imm := imm9 signed f.imm }, noOpnd, noOpnd, 32, 1, fun d a _ _ => op d a⟩

/-- 32-bit two's complement without saturation. -/
def int32 (uns : Bool) (op : Int → Int → Int → Int) (a b : Nat) : Nat := exactInt 32 uns false op a b 0

def shl (n a b : Nat) : Nat := (BitVec.ofNat n a <<< (b % n)).toNat
def shr (n a b : Nat) : Nat := (BitVec.ofNat n a >>> (b % n)).toNat
def sar (n a b : Nat) : Nat := ((BitVec.ofNat n a).sshiftRight (b % n)).toNat
def rot (n a b : Nat) : Nat := ((BitVec.ofNat n a).rotateLeft (b % n)).toNat

/-- BFE and BFI (R142): the field at `pos` of `len` bits, cut at the width; empty where `len` is 0 or `pos` lies outside. -/
def bfeOf (n : Nat) (uns : Bool) (a b c : Nat) : Nat :=
  let pos := b % 256
  let len := min (c % 256) (n - pos)
  if c % 256 = 0 ∨ pos ≥ n then 0
  else if uns then a >>> pos % 2 ^ len else (BitVec.ofInt n (BitVec.ofNat len (a >>> pos)).toInt).toNat
def bfiOf (n d a b c : Nat) : Nat :=
  let pos := b % 256
  let len := min (c % 256) (n - pos)
  if c % 256 = 0 ∨ pos ≥ n then d
  else (List.range n).foldl (fun r i => if (if pos ≤ i ∧ i < pos + len then a.testBit (i - pos) else d.testBit i) then r + 2 ^ i else r) 0

/-- LEA (R143): A plus B's 32 bits, extended, shifted by the scale. -/
def leaOf (n : Nat) (uns : Bool) (sc a b : Nat) : Nat :=
  (BitVec.ofInt n ((a : Int) + (if uns then ((b % 2 ^ 32 : Nat) : Int) else (BitVec.ofNat 32 b).toInt) * (2 ^ sc : Nat))).toNat

/-- Each integer, logic, field and move instruction's row. -/
def aluRow (i : Instr) : Option AluRow :=
  let one (f : F64R) (x : BitVec 8) (cls : BitVec 2) : Opnd := opnd cls x false (immInt (fUns f) 32 x)
  match i with
  | .iadd32 f => some (rowA f (int32 false (fun a b _ => a + b)))
  | .iadd32i f => some (rowL f true (int32 false (fun a b _ => a + b)))
  | .iadd64 f => some (rowI f (intB f) (intC f) (fun _ a b _ => a + b))
  | .iadd96 f => some (rowI f.r (litOpnd f) (intC f.r) (fun _ a b _ => a + b))
  | .isub32 f => some (rowA f (int32 false (fun a b _ => a - b)))
  | .isub64 f => some (rowI f (intB f) (intC f) (fun _ a b _ => a - b))
  | .imul32 f => some (rowA f (int32 false (fun a b _ => a * b)))
  | .imul32i f => some (rowL f true (int32 false (fun a b _ => a * b)))
  | .imul64 f => some (rowI f (intB f) (intC f) (fun _ a b _ => a * b))
  | .imul96 f => some (rowI f.r (litOpnd f) (intC f.r) (fun _ a b _ => a * b))
  | .imad64 f => some (rowI f (intB f) (intC f) (fun _ a b c => a * b + c))
  | .imad96 f => some (rowI f.r (litOpnd f) (intC f.r) (fun _ a b c => a * b + c))
  | .imulh64 f => some (rowI f (intB f) (intC f) (fun n a b _ => a * b / (2 ^ n : Nat)))
  | .iabs32 f => some (rowA f (fun _ a => int32 false (fun a _ _ => (a.natAbs : Int)) a 0))
  | .iabs64 f => some (rowI f (intB f) (intC f) (fun _ a _ _ => (a.natAbs : Int)))
  | .imin32 f => some (rowA f (int32 f.x (fun a b _ => min a b)))
  | .imin64 f => some (rowI f (intB f) (intC f) (fun _ a b _ => min a b))
  | .imax32 f => some (rowA f (int32 f.x (fun a b _ => max a b)))
  | .imax64 f => some (rowI f (intB f) (intC f) (fun _ a b _ => max a b))
  | .popc32 f => some (rowA f (fun _ a => onesIn 32 a))
  | .popc64 f => some (rowW f (intB f) noOpnd (fun n _ a _ _ => onesIn n a))
  | .clz32 f => some (rowA f (fun _ a => zerosAbove 32 a))
  | .clz64 f => some (rowW f (intB f) noOpnd (fun n _ a _ _ => zerosAbove n a))
  | .and32 f => some (rowA f (fun d a => d &&& a))
  | .and32i f => some (rowL f false (fun d a => d &&& a))
  | .and64 f => some (rowW f (intB f) noOpnd (fun _ _ a b _ => a &&& b))
  | .and96 f => some (rowW f.r (litOpnd f) noOpnd (fun _ _ a b _ => a &&& b))
  | .or32 f => some (rowA f (fun d a => d ||| a))
  | .or32i f => some (rowL f false (fun d a => d ||| a))
  | .or64 f => some (rowW f (intB f) noOpnd (fun _ _ a b _ => a ||| b))
  | .or96 f => some (rowW f.r (litOpnd f) noOpnd (fun _ _ a b _ => a ||| b))
  | .xor32 f => some (rowA f (fun d a => d ^^^ a))
  | .xor32i f => some (rowL f false (fun d a => d ^^^ a))
  | .xor64 f => some (rowW f (intB f) noOpnd (fun _ _ a b _ => a ^^^ b))
  | .xor96 f => some (rowW f.r (litOpnd f) noOpnd (fun _ _ a b _ => a ^^^ b))
  | .not32 f => some (rowA f (fun _ a => 2 ^ 32 - 1 - a))
  | .not64 f => some (rowW f (intB f) noOpnd (fun n _ a _ _ => 2 ^ n - 1 - a))
  | .brev32 f => some (rowA f (fun _ a => reversed 32 a))
  | .brev64 f => some (rowW f (intB f) noOpnd (fun n _ a _ _ => reversed n a))
  | .shl32 f => some (rowA f (shl 32))
  | .shl32i f => some (rowL f false (shl 32))
  | .shl64 f => some (rowW f (shiftB f) noOpnd (fun n _ a b _ => shl n a b))
  | .shr32 f => some (rowA f (shr 32))
  | .shr32i f => some (rowL f false (shr 32))
  | .shr64 f => some (rowW f (shiftB f) noOpnd (fun n _ a b _ => shr n a b))
  | .sar32 f => some (rowA f (sar 32))
  | .sar32i f => some (rowL f false (sar 32))
  | .sar64 f => some (rowW f (shiftB f) noOpnd (fun n _ a b _ => sar n a b))
  | .rot32 f => some (rowA f (rot 32))
  | .rot32i f => some (rowL f false (rot 32))
  | .rot64 f => some (rowW f (shiftB f) noOpnd (fun n _ a b _ => rot n a b))
  | .bfe64 f => some (rowV f (one f f.b f.cb) (one f f.c f.cc) (fun n _ a b c => bfeOf n (fUns f) a b c))
  | .bfi64 f => some (rowV f (one f f.b f.cb) (one f f.c f.cc) (fun n d a b c => bfiOf n d a b c))
  | .lea64 f => some (rowV f (one f f.b f.cb) noOpnd (fun n _ a b _ => leaOf n (fUns f) (leaShift f) a b))
  | .lea96 f => some (rowV f.r { cls := 3, imm := f.lit.toNat } noOpnd (fun n _ a b _ => leaOf n (fUns f.r) (leaShift f.r) a b))
  | .mov32 f => some (rowA f (fun _ a => a))
  | .movi32 f => some (rowL f true (fun _ a => a))
  | .movi96 f => some ⟨f.r.g, intD f.r, litOpnd f, noOpnd, noOpnd, if fWide f.r then 64 else 32, 1, fun _ a _ _ => a⟩
  | _ => none

end Sys2Proof.Claims

/-- Every integer, logic, field and move instruction of `Claims.aluRow` completes: in each executing lane each element of D takes the
value that its row gives from the elements that D, A, B and C held, and nothing else changes but where the path stands (R139 to
R144). -/
def Obligations.IntegerInstructionsComplete : Prop :=
  ∀ (i : Instr) (r : Claims.AluRow) (s : State), Claims.aluRow i = some r → i.wf = true → Due s →
    topReg [r.d, r.a, r.b, r.c] ≤ 8 * s.wave.gran →
    ∃ (v : Nat → Nat) (t : State), exec i s = .next t ∧
      Retired i s { s with wave := writeOpnd s.wave (execLanes s r.g) r.d v } t ∧
      ∀ l, ∀ e < r.cnt, elemOf (v l) r.n e =
        r.f (elemOf (readOpnd s.wave r.d l) r.n e) (elemOf (readOpnd s.wave r.a l) r.n e) (elemOf (readOpnd s.wave r.b l) r.n e)
          (elemOf (readOpnd s.wave r.c l) r.n e) % 2 ^ r.n

/-- A vector register at or beyond the wave's allocation is 0x008, before any effect (R85, R160): stated of every instruction of
`Claims.aluRow`. -/
def Sys2Proof.Claims.UnallocatedRegisterFaults : Prop :=
  ∀ (i : Instr) (r : Claims.AluRow) (s : State), Claims.aluRow i = some r → Issuing s →
    8 * s.wave.gran < topReg [r.d, r.a, r.b, r.c] →
    ∃ t, exec i s = .next t ∧ Raised s t 0x008 (activeLanes s.wave (curPath s.wave))

namespace Sys2Proof.Claims

/-- The quotient and the remainder of R140: truncated toward zero; a zero divisor gives all ones and the dividend. -/
def divOf (n : Nat) (uns wantRem : Bool) (a b : Nat) : Nat :=
  let e (v : Nat) : Int := if uns then ((v % 2 ^ n : Nat) : Int) else (BitVec.ofNat n v).toInt
  if b % 2 ^ n = 0 then (if wantRem then a % 2 ^ n else 2 ^ n - 1)
  else (BitVec.ofInt n (if wantRem then (e a).tmod (e b) else (e a).tdiv (e b))).toNat

/-- IDIV or IREM. -/
def divInstr (wantRem : Bool) (f : F64R) : Instr := if wantRem then .irem64 f else .idiv64 f

/-- The source of MOV stands in B where B is an immediate, else in A (R144). -/
def movClass (f : F64R) : BitVec 2 := if f.cb == 3 then f.cb else f.ca
def movField (f : F64R) : BitVec 8 := if f.cb == 3 then f.b else f.a
def movOpnd (f : F64R) : Opnd := opnd (movClass f) (movField f) (fWide f) (immInt false (if fWide f then 64 else 32) (movField f))

/-- What lane `l` reads of the source of a MOV: a vector register, a scalar or an immediate; a predicate register's bit as 0 or 1; a
mask whole (R144). -/
def movValue (f : F64R) (x : Wave) (l : Nat) : Nat :=
  match opKind (movClass f) (movField f) with
  | some .p => if (pGet x ((movField f).toNat % 32)).getLsbD l then 1 else 0
  | some .k => (kGet x ((movField f).toNat % 32)).toNat
  | _ => readOpnd x (movOpnd f) l

/-- SEL (R145): its form F64R and its operand B. -/
def selRow (i : Instr) : Option (F64R × Opnd) :=
  match i with
  | .sel64 f => some (f, opnd f.cb f.b (fWide f) (immInt false (if fWide f then 64 else 32) f.b))
  | .sel96 f => some (f.r, litOpnd f)
  | _ => none

/-- The comparisons of R107 on integers. -/
def cmpInt (code : Nat) (a b : Int) : Bool :=
  match code with
  | 0 => decide (a = b) | 1 => decide (a ≠ b) | 2 => decide (a < b) | 3 => decide (a ≤ b) | 4 => decide (b < a) | _ => decide (b ≤ a)

/-- A value of 32 or 64 bits as ISETP compares it. -/
def cmpExt (f : F64R) (v : Nat) : Int :=
  let n := if fnBits f.fn 3 3 == 1 then 64 else 32
  if fnBits f.fn 4 4 == 1 then ((v % 2 ^ n : Nat) : Int) else (BitVec.ofNat n v).toInt

/-- Operand B of a 64-bit predicate instruction as a mask. -/
def predB (f : F64R) (x : Wave) : Lanes :=
  if f.cb == 3 then (if f.b == 0 then 0 else BitVec.allOnes 32) else pGet x (f.b.toNat % 32)

/-- The instructions that write a predicate register and raise no flag (R146, R170): guard, destination, vector registers named, and
each lane's bit. -/
def predRow (i : Instr) (x : Wave) : Option (BitVec 5 × Nat × Nat × (Nat → Bool)) :=
  let r32 (f : F32A) (op : Bool → Bool → Bool) : Option (BitVec 5 × Nat × Nat × (Nat → Bool)) :=
    some (f.g, f.d.toNat, 0, fun l => op ((pGet x f.d.toNat).getLsbD l) ((pGet x f.a.toNat).getLsbD l))
  let r64 (f : F64R) (op : Bool → Bool → Bool) : Option (BitVec 5 × Nat × Nat × (Nat → Bool)) :=
    some (f.g, f.d.toNat % 32, 0, fun l =>
      op ((pGet x (f.a.toNat % 32)).getLsbD l ^^ f.fn.getLsbD 1) ((predB f x).getLsbD l ^^ f.fn.getLsbD 0))
  let cmp (f : F64R) (b : Opnd) : Option (BitVec 5 × Nat × Nat × (Nat → Bool)) :=
    let a := opnd f.ca f.a (fnBits f.fn 3 3 == 1) 0
    some (f.g, f.d.toNat % 32, topReg [a, b], fun l => cmpInt (fnBits f.fn 2 0) (cmpExt f (readOpnd x a l)) (cmpExt f (readOpnd x b l)))
  match i with
  | .pand32 f => r32 f (fun d a => d && a)
  | .por32 f => r32 f (fun d a => d || a)
  | .pxor32 f => r32 f (fun d a => d ^^ a)
  | .pnot32 f => r32 f (fun _ a => !a)
  | .pand64 f => r64 f (fun a b => a && b)
  | .por64 f => r64 f (fun a b => a || b)
  | .pxor64 f => r64 f (fun a b => a ^^ b)
  | .pnot64 f => r64 f (fun a _ => !a)
  | .isetp64 f => cmp f (opnd f.cb f.b (fnBits f.fn 3 3 == 1) (immInt (fnBits f.fn 4 4 == 1) (if fnBits f.fn 3 3 == 1 then 64 else 32) f.b))
  | .isetp96 f => cmp f.r { cls := 3, imm := litInt (fnBits f.r.fn 4 4 == 1) (fnBits f.r.fn 3 3) f.lit }
  | _ => none

/-- A predicate register after lanes `ex` wrote `b` to it: the other lanes keep theirs (R146). -/
def PredWritten (ex old new : Lanes) (b : Nat → Bool) : Prop :=
  ∀ l < 32, new.getLsbD l = if ex.getLsbD l then b l else old.getLsbD l

end Sys2Proof.Claims

/-- IDIV and IREM complete where no executing lane of a TRAP form divides by zero: D takes the quotient or the remainder of R140. -/
def Sys2Proof.Claims.DivisionCompletes : Prop :=
  (∀ (wantRem : Bool) (f : F64R), (Claims.divInstr wantRem f).wf = true → fW f ≤ 1 ∧ fnBits f.fn 1 1 = 0) ∧
  ∀ (wantRem : Bool) (f : F64R) (s : State), Due s → topReg [intD f, intA f, intB f] ≤ 8 * s.wave.gran →
    (fnBits f.fn 0 0 = 1 → ∀ l < 32, (execLanes s f.g).getLsbD l = true → readOpnd s.wave (intB f) l % 2 ^ elemWidth (fW f) ≠ 0) →
    ∃ (v : Nat → Nat) (t : State), exec (Claims.divInstr wantRem f) s = .next t ∧
      Retired (Claims.divInstr wantRem f) s { s with wave := writeOpnd s.wave (execLanes s f.g) (intD f) v } t ∧
      ∀ l, v l = Claims.divOf (elemWidth (fW f)) (fUns f) wantRem (readOpnd s.wave (intA f) l) (readOpnd s.wave (intB f) l)

/-- With TRAP, a zero divisor in an executing lane is 0x015: the lanes that divide by zero fault, and nothing is written (R140). -/
def Sys2Proof.Claims.DivisionByZeroTraps : Prop :=
  ∀ (wantRem : Bool) (f : F64R) (s : State), Issuing s → topReg [intD f, intA f, intB f] ≤ 8 * s.wave.gran →
    fnBits f.fn 0 0 = 1 →
    (∃ l < 32, (execLanes s f.g).getLsbD l = true ∧ readOpnd s.wave (intB f) l % 2 ^ elemWidth (fW f) = 0) →
    ∃ (t : State) (m : Lanes), exec (Claims.divInstr wantRem f) s = .next t ∧ Raised s t 0x015 m ∧
      ∀ l < 32, m.getLsbD l = ((execLanes s f.g).getLsbD l && decide (readOpnd s.wave (intB f) l % 2 ^ elemWidth (fW f) = 0))

/-- SEL takes A in the lanes where the predicate register C holds, B in the others (R145); that an 8-bit immediate of SEL is sign-extended
is the model's choice, which R134 and R145 do not state (log entry 31). MOV to a vector register or a scalar takes
its source; to a predicate register, whether the source is not zero; to a mask other than k0, where a lane executes, the source's 32 bits,
and then the waits on masks are evaluated; to k0 it is 0x002 (R144, R24, R88). -/
def Sys2Proof.Claims.MovesAndSelectionComplete : Prop :=
  (∀ (i : Instr) (f : F64R) (b : Opnd) (s : State), Claims.selRow i = some (f, b) → Due s →
    topReg [intD f, intA f, b] ≤ 8 * s.wave.gran →
    ∃ (v : Nat → Nat) (t : State), exec i s = .next t ∧ Retired i s { s with wave := writeOpnd s.wave (execLanes s f.g) (intD f) v } t ∧
      ∀ l, v l = if (pGet s.wave (f.c.toNat % 32)).getLsbD l then readOpnd s.wave (intA f) l else readOpnd s.wave b l) ∧
  (∀ (f : F64R) (s : State), (Instr.mov64 f).wf = true → topReg [intD f, Claims.movOpnd f] ≤ 8 * s.wave.gran →
    let i := Instr.mov64 f
    let ex := execLanes s f.g
    (opKind f.cd f.d = some .v ∨ opKind f.cd f.d = some .s → Due s →
      ∃ (v : Nat → Nat) (t : State), exec i s = .next t ∧ Retired i s { s with wave := writeOpnd s.wave ex (intD f) v } t ∧
        ∀ l < 32, v l = Claims.movValue f s.wave l) ∧
    (opKind f.cd f.d = some .p → Due s →
      ∃ (m : Lanes) (t : State), exec i s = .next t ∧ Retired i s { s with wave := pPut s.wave (f.d.toNat % 32) m } t ∧
        Claims.PredWritten ex (pGet s.wave (f.d.toNat % 32)) m (fun l => decide (Claims.movValue f s.wave l ≠ 0))) ∧
    (opKind f.cd f.d = some .k → f.d.toNat % 32 ≠ 0 → ex ≠ 0 → Due s →
      ∃ (m : Lanes) (t : State), exec i s = .next t ∧ Retired i s { s with wave := evalMasks (kPut s.wave (f.d.toNat % 32) m) } t ∧
        (opKind (Claims.movClass f) (Claims.movField f) = some .k → m = kGet s.wave ((Claims.movField f).toNat % 32)) ∧
        (opKind (Claims.movClass f) (Claims.movField f) = some .s → m.toNat = sGet s.wave (Claims.movField f).toNat) ∧
        (Claims.movClass f = 3 → m.toNat = (Claims.movField f).toNat)) ∧
    (opKind f.cd f.d = some .k → f.d.toNat % 32 ≠ 0 → ex = 0 → Due s → ∃ t, exec i s = .next t ∧ Retired i s s t) ∧
    (opKind f.cd f.d = some .k → f.d.toNat % 32 = 0 → Issuing s →
      ∃ t, exec i s = .next t ∧ Raised s t 0x002 (activeLanes s.wave (curPath s.wave))))

/-- The predicate instructions and ISETP complete: each executing lane's bit of the destination takes its value, every other lane
keeps its bit, and no flag is raised (R146, R170, R35). -/
def Sys2Proof.Claims.PredicateInstructionsComplete : Prop :=
  ∀ (i : Instr) (s : State) (g : BitVec 5) (d top : Nat) (b : Nat → Bool), Claims.predRow i s.wave = some (g, d, top, b) → Due s →
    top ≤ 8 * s.wave.gran →
    ∃ (m : Lanes) (t : State), exec i s = .next t ∧ Retired i s { s with wave := pPut s.wave d m } t ∧
      Claims.PredWritten (execLanes s g) (pGet s.wave d) m b

namespace Sys2Proof.Claims

/-! ### Floating instructions (R146 to R156) -/

/-- A floating instruction as R147 to R156 give it: guard; D, A, B and C; and, from what D, A, B and C hold in a lane, the value of D
and the flags that the lane raises. -/
structure FltRow where
  g : BitVec 5
  d : Opnd
  a : Opnd
  b : Opnd
  c : Opnd
  f : Nat → Nat → Nat → Nat → Nat × Nat

/-- A row of F64R in the format of FMT, under the mode of RND, A and C negated as FN says (R108, R134). -/
def fltRowOf (f : F64R) (b : Opnd) (op : FKind → RMode → FVal → FVal → FVal → Nat × Nat) : FltRow :=
  let k := fltKind f
  ⟨f.g, fltD f, fltA f, b, fltC f, fun _ x y z => op k (rmode f.rnd.toNat) (negIf (fNA f) (unpack k x)) (unpack k y) (negIf (fNC f) (unpack k z))⟩

/-- A 32-bit row: D op A in FP32, to nearest even (R136). -/
def fltRow32 (f : F32A) (op : FVal → FVal → Nat × Nat) : FltRow :=
  ⟨f.g, vOpnd f.d, vOpnd f.a, noOpnd, noOpnd, fun d a _ _ => op (unpack .fp32 d) (unpack .fp32 a)⟩

/-- HFMA2 on one half (R149). -/
def halfFma (f : F64R) (n x y z : Nat) : Nat × Nat :=
  let k := halfKind f
  let h (v : Nat) : FVal := unpack k (v / 65536 ^ n % 65536)
  ffma k (rmode f.rnd.toNat) (negIf (fNA f) (h x)) (h y) (negIf (fNC f) (h z))

def halfRow (f : F64R) (b : Opnd) : FltRow :=
  ⟨f.g, opnd f.cd f.d false 0, opnd f.ca f.a false 0, b, halfOpnd f f.cc f.c, fun _ x y z =>
    ((halfFma f 0 x y z).1 + 65536 * (halfFma f 1 x y z).1, (halfFma f 0 x y z).2 ||| (halfFma f 1 x y z).2)⟩

/-- A row of the narrow formats: registers of 32 bits, D wide where said. -/
def narrowRow (f : F64R) (wideD : Bool) (b : Opnd) (op : Nat → Nat → Nat → Nat × Nat) : FltRow :=
  ⟨f.g, opnd f.cd f.d wideD 0, opnd f.ca f.a false 0, b, noOpnd, fun d a b _ => op d a b⟩

/-- The eight elements of REQUANT (R154): dequantised under one descriptor, quantised under the other. -/
def requantElem (q r : Nat × Nat) (a i : Nat) : Nat × Nat := quantise (q4nValue (a / 16 ^ i % 16) q.2 q.1) r.1 r.2

/-- Each floating and narrow-format instruction's row, in a wave `x` (the descriptors of Q4N stand in scalars). -/
def fltRow (i : Instr) (x : Wave) : Option FltRow :=
  let lit (f : F96R) : Opnd := fltLit (fltKind f.r) f.lit
  let flag2 (f : F64R) : Opnd := opnd f.cb f.b false (immFlt .fp32 f.b)
  match i with
  | .fadd32 f => some (fltRow32 f (fun d a => fadd .fp32 .rne d a))
  | .fmul32 f => some (fltRow32 f (fun d a => fmul .fp32 .rne d a))
  | .fmin32 f => some (fltRow32 f (fun d a => fminmax .fp32 false d a))
  | .fmax32 f => some (fltRow32 f (fun d a => fminmax .fp32 true d a))
  | .fadd64 f => some (fltRowOf f (fltB f) (fun k m a b _ => fadd k m a b))
  | .fadd96 f => some (fltRowOf f.r (lit f) (fun k m a b _ => fadd k m a b))
  | .fmul64 f => some (fltRowOf f (fltB f) (fun k m a b _ => fmul k m a b))
  | .fmul96 f => some (fltRowOf f.r (lit f) (fun k m a b _ => fmul k m a b))
  | .ffma64 f => some (fltRowOf f (fltB f) (fun k m a b c => ffma k m a b c))
  | .ffma96 f => some (fltRowOf f.r (lit f) (fun k m a b c => ffma k m a b c))
  | .fmin64 f => some (fltRowOf f (fltB f) (fun k _ a b _ => fminmax k false a b))
  | .fmin96 f => some (fltRowOf f.r (lit f) (fun k _ a b _ => fminmax k false a b))
  | .fmax64 f => some (fltRowOf f (fltB f) (fun k _ a b _ => fminmax k true a b))
  | .fmax96 f => some (fltRowOf f.r (lit f) (fun k _ a b _ => fminmax k true a b))
  | .frnd64 f => some (fltRowOf f noOpnd (fun k m a _ _ => frnd k m a))
  | .frcp64 f => some (fltRowOf f noOpnd (fun k m a _ _ => frcp k m a))
  | .fsqrt64 f => some (fltRowOf f noOpnd (fun k m a _ _ => fsqrt k m a))
  | .frsq64 f => some (fltRowOf f noOpnd (fun k m a _ _ => frsq k m a))
  | .fexp264 f => some (fltRowOf f noOpnd (fun k m a _ _ => fexp2 k m a))
  | .flog264 f => some (fltRowOf f noOpnd (fun k m a _ _ => flog2 k m a))
  | .fsinpi64 f => some (fltRowOf f noOpnd (fun k m a _ _ => fsincospi k m false a))
  | .fcospi64 f => some (fltRowOf f noOpnd (fun k m a _ _ => fsincospi k m true a))
  | .ftanh64 f => some (fltRowOf f noOpnd (fun k m a _ _ => ftanh k m a))
  | .hfma264 f => some (halfRow f (halfOpnd f f.cb f.b))
  | .hfma296 f => some (halfRow f.r { cls := 3, imm := f.lit.toNat })
  | .cvt64 f => some ⟨f.g, opnd f.cd f.d (wideCode (f.c.toNat / 16)) 0, opnd f.ca f.a (wideCode (f.c.toNat % 16)) 0, noOpnd, noOpnd,
      fun _ a _ _ => convert (f.c.toNat / 16) (f.c.toNat % 16) (rmode f.rnd.toNat) (f.fn.getLsbD 5) a⟩
  | .quant64 f => some (narrowRow f false noOpnd (fun d a _ =>
      if f.fn.getLsbD 3 then chooseScale (unpack .fp32 a) (descr x f.b).1
      else (putField d (4 * fnBits f.fn 2 0) 4 (quantise (unpack .fp32 a) (descr x f.b).1 (descr x f.b).2).1,
            (quantise (unpack .fp32 a) (descr x f.b).1 (descr x f.b).2).2)))
  | .deq64 f => some (narrowRow f false noOpnd (fun _ a _ =>
      roundVal (match fnBits f.fn 4 3 with | 0 => .fp32 | 1 => .bf16 | _ => .fp16) (rmode f.rnd.toNat)
        (q4nValue (a / 16 ^ fnBits f.fn 2 0 % 16) (descr x f.b).2 (descr x f.b).1)))
  | .requant64 f => some (narrowRow f false noOpnd (fun _ a _ =>
      (((List.range 8).map (fun i => (requantElem (descr x f.b) (descr x f.c) a i).1 * 16 ^ i)).sum,
        (List.range 8).foldl (fun fl i => fl ||| (requantElem (descr x f.b) (descr x f.c) a i).2) 0)))
  | .cvt864 f =>
    let k : FKind := if f.fn.getLsbD 0 then .e5m2 else .e4m3
    let h := fnBits f.fn 1 1
    let byte (a i : Nat) : Nat × Nat := roundVal .fp32 .rne (unpack k (a / 256 ^ (2 * h + i) % 256))
    some (narrowRow f (f.fn.getLsbD 2) (flag2 f) (fun d a b =>
      if f.fn.getLsbD 2 then ((byte a 0).1 + 2 ^ 32 * (byte a 1).1, (byte a 0).2 ||| (byte a 1).2)
      else (putField d (16 * h) 16 ((roundVal k (rmode f.rnd.toNat) (unpack .fp32 a)).1 + 256 * (roundVal k (rmode f.rnd.toNat) (unpack .fp32 b)).1),
            (roundVal k (rmode f.rnd.toNat) (unpack .fp32 a)).2 ||| (roundVal k (rmode f.rnd.toNat) (unpack .fp32 b)).2)))
  | .scale64 f =>
    let k : FKind := match fnBits f.fn 3 2 with | 0 => .e4m3 | 1 => .e5m2 | 2 => .bf16 | _ => .fp16
    some (narrowRow f false (flag2 f) (fun d a b =>
      (putField d (k.width * fnBits f.fn 1 0) k.width (fmul k (rmode f.rnd.toNat) (unpack .fp32 a) (unpack .fp32 b)).1,
        (fmul k (rmode f.rnd.toNat) (unpack .fp32 a) (unpack .fp32 b)).2)))
  | _ => none

/-- What lane `l` of a wave gets from a row, and the flags that the executing lanes raise together. -/
def FltRow.lane (r : FltRow) (x : Wave) (l : Nat) : Nat × Nat :=
  r.f (readOpnd x r.d l) (readOpnd x r.a l) (readOpnd x r.b l) (readOpnd x r.c l)
def FltRow.flags (r : FltRow) (x : Wave) (ex : Lanes) : Nat := (lanesOf ex).foldl (fun fl l => fl ||| (r.lane x l).2) 0

/-- The wave with the sticky flags of FCSR set (R45). -/
def withFlags (x : Wave) (fl : Nat) : Wave := { x with fcsr := x.fcsr ||| BitVec.ofNat 32 (fl % 32) }

/-- No flag of `fl` is enabled as a trap in FCSR[12:8] (R46). -/
def NoTrap (x : Wave) (fl : Nat) : Prop := ∀ i < 5, fl.testBit i = true → x.fcsr.getLsbD (8 + i) = false

/-- FSETP (R146): its form, its operand B. -/
def fsetpRow (i : Instr) : Option (F64R × Opnd) :=
  match i with
  | .fsetp64 f => some (f, opnd f.cb f.b (setpKind f = .fp64) (immFlt (setpKind f) f.b))
  | .fsetp96 f => some (f.r, fltLit (setpKind f.r) f.lit)
  | _ => none

/-- The truth and the flags of FSETP in lane `l`. -/
def setpLane (f : F64R) (b : Opnd) (x : Wave) (l : Nat) : Bool × Nat :=
  let k := setpKind f
  fsetp (fnBits f.fn 2 0) (unpack k (readOpnd x (opnd f.ca f.a (k = .fp64) 0) l % 2 ^ k.width)) (unpack k (readOpnd x b l % 2 ^ k.width))

def setpFlags (f : F64R) (b : Opnd) (x : Wave) (ex : Lanes) : Nat := (lanesOf ex).foldl (fun fl l => fl ||| (setpLane f b x l).2) 0

end Sys2Proof.Claims

/-- A floating or narrow-format instruction that raises no enabled exception completes: D takes each executing lane's value, the
sticky flags of FCSR take the flags of all executing lanes, and nothing else changes (R45, R46, R147 to R156). That QUANT with FUNC 1
raises IV on a signalling NaN is the model's inference from R44 and R152 (log entry 31), and that CVT saturates every pair of integer
formats, one that does not narrow among them, is its choice (log entry 68). -/
def Obligations.FloatingInstructionsComplete : Prop :=
  ∀ (i : Instr) (s : State) (r : Claims.FltRow), Claims.fltRow i s.wave = some r → Due s →
    topReg [r.d, r.a, r.b, r.c] ≤ 8 * s.wave.gran → Claims.NoTrap s.wave (r.flags s.wave (execLanes s r.g)) →
    ∃ t, exec i s = .next t ∧
      let y := Claims.withFlags s.wave (r.flags s.wave (execLanes s r.g))
      Retired i s { s with wave := writeOpnd y (execLanes s r.g) r.d (fun l => (r.lane s.wave l).1) } t

/-- Flag `n` is the lowest of `fl` that FCSR enables as a trap (R46). -/
def Sys2Proof.Claims.LowestTrap (x : Wave) (fl n : Nat) : Prop :=
  n < 5 ∧ fl.testBit n = true ∧ x.fcsr.getLsbD (8 + n) = true ∧ ∀ j < n, fl.testBit j = true → x.fcsr.getLsbD (8 + j) = false

/-- A floating instruction, FSETP among them, that raises an enabled exception faults precisely with the cause of the lowest enabled
flag, 0x010 to 0x014: the sticky flags are set and no destination is written (R46). -/
def Sys2Proof.Claims.EnabledFloatingExceptionTraps : Prop :=
  (∀ (i : Instr) (s : State) (r : Claims.FltRow) (n : Nat), Claims.fltRow i s.wave = some r → Issuing s →
    let fl := r.flags s.wave (execLanes s r.g)
    topReg [r.d, r.a, r.b, r.c] ≤ 8 * s.wave.gran → Claims.LowestTrap s.wave fl n →
    ∃ t m, exec i s = .next t ∧ Raised { s with wave := Claims.withFlags s.wave fl } t (0x010 + n) m) ∧
  (∀ (i : Instr) (f : F64R) (b : Opnd) (s : State) (n : Nat), Claims.fsetpRow i = some (f, b) → Issuing s →
    let fl := Claims.setpFlags f b s.wave (execLanes s f.g)
    topReg [opnd f.ca f.a (setpKind f = .fp64) 0, b] ≤ 8 * s.wave.gran → Claims.LowestTrap s.wave fl n →
    ∃ t m, exec i s = .next t ∧ Raised { s with wave := Claims.withFlags s.wave fl } t (0x010 + n) m)

/-- FSETP that raises no enabled exception completes: the bits of the executing lanes take the truth of the comparison, the others
keep theirs, and the sticky flags take the flags raised (R107, R146). -/
def Sys2Proof.Claims.FloatingComparisonCompletes : Prop :=
  ∀ (i : Instr) (f : F64R) (b : Opnd) (s : State), Claims.fsetpRow i = some (f, b) → Due s →
    topReg [opnd f.ca f.a (setpKind f = .fp64) 0, b] ≤ 8 * s.wave.gran →
    Claims.NoTrap s.wave (Claims.setpFlags f b s.wave (execLanes s f.g)) →
    ∃ (m : Lanes) (t : State), exec i s = .next t ∧
      Retired i s { s with wave := pPut (Claims.withFlags s.wave (Claims.setpFlags f b s.wave (execLanes s f.g))) (f.d.toNat % 32) m } t ∧
      Claims.PredWritten (execLanes s f.g) (pGet s.wave (f.d.toNat % 32)) m (fun l => (Claims.setpLane f b s.wave l).1)

/-- Rounding leaves a number that the format holds exactly as it is, in every mode, and raises no flag (R41 to R44): for every bit
pattern of a finite value of every format. -/
def Obligations.RepresentableNumbersRoundToThemselves : Prop :=
  ∀ (k : FKind) (m : RMode) (x : Nat) (neg : Bool) (n : Nat) (e : Int), x < 2 ^ k.width → unpack k x = .fin neg n e →
    roundVal k m (unpack k x) = (x, 0)

namespace Sys2Proof.Claims

/-! ### Lane masks, partitions and cross-lane instructions (R171 to R181) -/

/-- Lanes `l` and `m` lie in one tile of `w` lanes (R175). -/
def sameTile (w l m : Nat) : Prop := l / w * w ≤ m ∧ m < l / w * w + w

/-- `y` is `x` after its lanes' waits on masks were evaluated (R173): each live lane whose mask, or whose tile's part of it, is empty is
parked no more; nothing else changed; while a handler runs nothing is evaluated (R415). -/
def MasksEvaluated (x y : Wave) : Prop :=
  { y with lane := [] } = { x with lane := [] } ∧ ∀ l < 32,
    let z := getLane x l
    let ends : Prop := inTrap x = false ∧ (live x).getLsbD l = true ∧ z.park ≠ 15 ∧
      ∀ m < 32, (kGet x z.park).getLsbD m = true → z.tile = true ∧ ¬ sameTile (tileWidth x) l m
    (ends → getLane y l = { z with park := 15, tile := false }) ∧ (¬ ends → getLane y l = z)

/-- JOIN and LEAVE (R171): guard, mask, and the mask's new value for executing lanes `ex`. -/
def maskRow (i : Instr) (x : Wave) (ex : Lanes) : Option (BitVec 5 × Nat × Lanes) :=
  match i with
  | .join32 f => some (f.g, f.d.toNat, kGet x f.d.toNat ||| ex)
  | .leave32 f => some (f.g, f.d.toNat, kGet x f.d.toNat &&& ~~~ex)
  | .join64 f => some (f.g, f.d.toNat % 32, kGet x (f.d.toNat % 32) ||| (if f.fn == 1 then maskB x f &&& kGet x 0 else ex))
  | .leave64 f => some (f.g, f.d.toNat % 32, kGet x (f.d.toNat % 32) &&& ~~~(if f.fn == 1 then maskB x f else ex))
  | _ => none

def maskGuard (i : Instr) : BitVec 5 :=
  match i with
  | .join32 f => f.g | .leave32 f => f.g | .join64 f => f.g | .leave64 f => f.g
  | _ => 0

/-- WAITM (R172): guard, mask, TILE. -/
def waitmRow (i : Instr) : Option (BitVec 5 × Nat × Bool) :=
  match i with
  | .waitm32 f => some (f.g, f.d.toNat, f.x)
  | .waitm64 f => some (f.g, f.d.toNat % 32, f.fn == 4)
  | _ => none

/-- PART (R175): guard and width. -/
def partRow (i : Instr) (x : Wave) : Option (BitVec 5 × Nat) :=
  match i with
  | .part32 f => some (f.g, f.imm.toNat)
  | .part64 f => some (f.g, if f.cb == 3 then f.b.toNat else sGet x f.b.toNat)
  | _ => none

/-- The executing lanes of the tile of lane `l` (R175). -/
def mates (x : Wave) (ex : Lanes) (l : Nat) : List Nat :=
  (List.range 32).filter (fun m => ex.getLsbD m && decide (l / tileWidth x * tileWidth x ≤ m) && decide (m < l / tileWidth x * tileWidth x + tileWidth x))

/-- The truth of lane `l`'s source of VOTE: a vector register that is not zero, or a predicate's bit (R178). -/
def voteTruth (f : F64R) (x : Wave) (l : Nat) : Bool :=
  if f.ca == 0 then decide (vGet x f.a.toNat l ≠ 0) else (pGet x (f.a.toNat % 32)).getLsbD l

/-- The lane that SHFL reads for lane `l` (R179): the one that the mode names if it lies in the tile and executes, else itself. -/
def shflSource (f : F64R) (x : Wave) (ex : Lanes) (l : Nat) : Nat :=
  let w := tileWidth x
  let base := l / w * w
  let n := readOpnd x (opnd f.cb f.b false f.b.toNat) l
  let r : Option Nat := match fnBits f.fn 1 0 with
    | 0 => if n % w < w then some (n % w) else none
    | 1 => if n ≤ l % w ∧ l % w - n < w then some (l % w - n) else none
    | 2 => if l % w + n < w then some (l % w + n) else none
    | _ => if (l % w) ^^^ (n % w) < w then some ((l % w) ^^^ (n % w)) else none
  match r with
  | some r => if ex.getLsbD (base + r) then base + r else l
  | none => l

/-- The lane whose value PUSH leaves in lane `l` (R180): the highest executing lane that sends to it. -/
def pushSource (f : F64R) (x : Wave) (ex : Lanes) (l : Nat) : Option Nat :=
  let w := tileWidth x
  (lanesOf ex).reverse.find? (fun m => m / w * w + readOpnd x (opnd f.cb f.b false f.b.toNat) m % w == l)

/-- REDUCE and SCAN (R64, R65, R181): lane `l`'s value and flags from its tile's contributing lanes. -/
def treeLane (scan : Bool) (f : F64R) (x : Wave) (ex : Lanes) (l : Nat) : Nat × Nat :=
  let wide := f.fn.getLsbD 4
  let w := tileWidth x
  let op := treeOp (fnBits f.fn 3 0) wide f.rnd.toNat
  let leaf (m : Nat) : Option Nat := if ex.getLsbD m then some (readOpnd x (opnd f.ca f.a wide 0) m) else none
  ((if scan then scanFrom op.1 leaf (w.log2 + 1) (if f.fn.getLsbD 5 then l % w else l % w + 1) (l / w * w) none
    else treeNode op.1 leaf w.log2 (l / w * w)).getD (op.2, 0))

def treeFlags (scan : Bool) (f : F64R) (x : Wave) (ex : Lanes) : Nat := (lanesOf ex).foldl (fun fl l => fl ||| (treeLane scan f x ex l).2) 0

end Sys2Proof.Claims

/-- JOIN and LEAVE, in both sizes, complete: `join32`, `join64`, `leave32` and `leave64` write their mask and evaluate the waits on
masks; with no lane executing they only go on; a destination k0 is 0x002. What the evaluation does: a live lane whose wait is over is
parked no more, and nothing else changes (R171, R173, R24, R88). -/
def Sys2Proof.Claims.MaskInstructionsComplete : Prop :=
  (∀ x : Wave, Claims.MasksEvaluated x (evalMasks x)) ∧
  ∀ (i : Instr) (s : State) (g : BitVec 5) (k : Nat) (m : Lanes),
    Claims.maskRow i s.wave (execLanes s (Claims.maskGuard i)) = some (g, k, m) →
    (k ≠ 0 → execLanes s g ≠ 0 → Due s → ∃ t, exec i s = .next t ∧ Retired i s { s with wave := evalMasks (kPut s.wave k m) } t) ∧
    (k ≠ 0 → execLanes s g = 0 → Due s → ∃ t, exec i s = .next t ∧ Retired i s s t) ∧
    (k = 0 → Issuing s → ∃ t, exec i s = .next t ∧ Raised s t 0x002 (activeLanes s.wave (curPath s.wave)))

/-- WAITM completes, in both sizes: `waitm32` and `waitm64` take the executing lanes out of their mask and park them on it with the
fall-through header as PC; those lanes leave the path, and the waits on masks are evaluated, so that a lane whose mask is then empty does
not stay parked; no other lane, register or mask changes. With no lane executing it only goes on. In a handler, and on k0, it is 0x002
(R172, R173, R415, R24). -/
def Sys2Proof.Claims.WaitmParksItsLanes : Prop :=
  ∀ (i : Instr) (s : State) (g : BitVec 5) (k : Nat) (tile : Bool), Claims.waitmRow i = some (g, k, tile) →
    let ex := execLanes s g
    (k ≠ 0 → inTrap s.wave = false → Due s → ex ≠ 0 →
      ∃ (y : Wave) (t : State), exec i s = .next t ∧ Retired i s { s with wave := evalMasks (leavePath y ex) } t ∧
        { y with k := [], lane := [] } = { s.wave with k := [], lane := [] } ∧
        (∀ j, kGet y j = if j = k then kGet s.wave k &&& ~~~ex else kGet s.wave j) ∧
        ∀ l < 32, getLane y l =
          if ex.getLsbD l then { atHeader (curPath s.wave).fall (getLane s.wave l) with park := k, tile := tile } else getLane s.wave l) ∧
    (k ≠ 0 → inTrap s.wave = false → Due s → ex = 0 → ∃ t, exec i s = .next t ∧ Retired i s s t) ∧
    (k = 0 ∨ inTrap s.wave = true → Issuing s → ∃ t, exec i s = .next t ∧ Raised s t 0x002 (activeLanes s.wave (curPath s.wave)))

/-- PART and LANEID complete: `part32` and `part64` set LANEPART to the code of their width where an active lane executes them, and the
waits on masks are evaluated; with no lane executing they only go on, and a width other than 2, 4, 8, 16 or 32 is 0x002 (R175, R124);
`laneid32` gives each executing lane its number, or its number within its tile (R176). -/
def Sys2Proof.Claims.PartitionInstructionsComplete : Prop :=
  (∀ (i : Instr) (s : State) (g : BitVec 5) (w : Nat), Claims.partRow i s.wave = some (g, w) →
    (∀ c, partCode w = some c → execLanes s g ≠ 0 → Due s → ∃ t, exec i s = .next t ∧
      Retired i s { s with wave := evalMasks { s.wave with wsw := setBits s.wave.wsw 14 12 c } } t ∧
      lanePart t.wave = c ∧ tileWidth t.wave = w) ∧
    (partCode w ≠ none → execLanes s g = 0 → Due s → ∃ t, exec i s = .next t ∧ Retired i s s t) ∧
    (partCode w = none → Issuing s → ∃ t, exec i s = .next t ∧ Raised s t 0x002 (activeLanes s.wave (curPath s.wave)))) ∧
  (∀ (f : F32A) (s : State), Due s → f.d.toNat + 1 ≤ 8 * s.wave.gran →
    ∃ (v : Nat → Nat) (t : State), exec (.laneid32 f) s = .next t ∧
      Retired (.laneid32 f) s { s with wave := writeOpnd s.wave (execLanes s f.g) (vOpnd f.d) v } t ∧
      ∀ l, v l = if f.x then l % tileWidth s.wave else l)

/-- VOTE completes in every mode (`vote64`, R178): any, all and uniform over the executing lanes of each tile into a predicate register;
the ballot into a mask, behind which the waits on masks are evaluated, or into a scalar, or each tile's part of it into a vector register.
With no lane executing a ballot into a mask only goes on, and a ballot into k0 is 0x002 (R24). -/
def Obligations.VoteCompletes : Prop :=
  (∀ f : F64R, (Instr.vote64 f).wf = true → fnBits f.fn 5 2 = 0 ∧ (fnBits f.fn 1 0 = 2 → opKind f.ca f.a = some .v) ∧
    (fnBits f.fn 1 0 = 3 → opKind f.cd f.d = some .s ∨ opKind f.cd f.d = some .k → opKind f.ca f.a = some .p)) ∧
  decode [0x3C8C08E9, 0x00002803] = .ok (.vote64 ⟨false, 15, 0x23, 2, 0, 0, 0, 2, 2, 0, 0, 3⟩, []) ∧
  ∀ (f : F64R) (s : State), Due s → topReg [opnd f.ca f.a false 0, opnd f.cd f.d false 0] ≤ 8 * s.wave.gran →
    let i := Instr.vote64 f
    let x := s.wave
    let ex := execLanes s f.g
    let k := f.d.toNat % 32
    (∀ mode < 3, fnBits f.fn 1 0 = mode → opKind f.cd f.d = some .p →
      ∃ (m : Lanes) (t : State), exec i s = .next t ∧ Retired i s { s with wave := pPut x k m } t ∧
        Claims.PredWritten ex (pGet x k) m (fun l =>
          match mode with
          | 0 => (Claims.mates x ex l).any (Claims.voteTruth f x)
          | 1 => (Claims.mates x ex l).all (Claims.voteTruth f x)
          | _ => (Claims.mates x ex l).all (fun j => decide (vGet x f.a.toNat j = vGet x f.a.toNat l)))) ∧
    (fnBits f.fn 1 0 = 3 → opKind f.cd f.d = some .k → k ≠ 0 → ex ≠ 0 →
      ∃ (m : Lanes) (t : State), exec i s = .next t ∧ Retired i s { s with wave := evalMasks (kPut x k m) } t ∧
        ∀ l < 32, m.getLsbD l = (ex.getLsbD l && Claims.voteTruth f x l)) ∧
    (fnBits f.fn 1 0 = 3 → opKind f.cd f.d = some .k → k ≠ 0 → ex = 0 → ∃ t, exec i s = .next t ∧ Retired i s s t) ∧
    (opKind f.cd f.d = some .k → k = 0 → Issuing s → ∃ t, exec i s = .next t ∧ Raised s t 0x002 (activeLanes x (curPath x))) ∧
    (fnBits f.fn 1 0 = 3 → opKind f.cd f.d = some .v ∨ opKind f.cd f.d = some .s →
      ∃ (v : Nat → Lanes) (t : State), exec i s = .next t ∧
        Retired i s { s with wave := writeOpnd x ex (opnd f.cd f.d false 0) (fun l => (v l).toNat) } t ∧
        ∀ l < 32, ∀ j < 32, (v l).getLsbD j = (ex.getLsbD j && Claims.voteTruth f x j &&
          (opKind f.cd f.d == some .s ||
            decide (l / tileWidth x * tileWidth x ≤ j) && decide (j < l / tileWidth x * tileWidth x + tileWidth x))))

/-- SHFL and PUSH complete (`shfl64`, `push64`): they move values between the executing lanes of a tile, and nothing else changes (R179,
R180). -/
def Obligations.ShuffleAndPushComplete : Prop :=
  (∀ f : F64R, ((Instr.shfl64 f).wf = true → fnBits f.fn 5 4 = 0 ∧ fnBits f.fn 2 2 = 0) ∧ ((Instr.push64 f).wf = true → f.fn = 0 ∨ f.fn = 8)) ∧
  decode [0x3C1C18E1, 0x01000303] = .ok (.shfl64 ⟨false, 15, 7, 6, 1, 0, 0, 0, 0, 3, 0, 3⟩, []) ∧
  ∀ (f : F64R) (s : State), Due s →
    let wide := f.fn.getLsbD 3
    let a := opnd f.ca f.a wide 0
    let d := opnd f.cd f.d wide 0
    let ex := execLanes s f.g
    topReg [a, opnd f.cb f.b false f.b.toNat, d] ≤ 8 * s.wave.gran →
    (∃ (v : Nat → Nat) (t : State), exec (.shfl64 f) s = .next t ∧ Retired (.shfl64 f) s { s with wave := writeOpnd s.wave ex d v } t ∧
      ∀ l < 32, v l = readOpnd s.wave a (Claims.shflSource f s.wave ex l)) ∧
    (∃ (v : Nat → Nat) (t : State), exec (.push64 f) s = .next t ∧ Retired (.push64 f) s { s with wave := writeOpnd s.wave ex d v } t ∧
      ∀ l < 32, v l = match Claims.pushSource f s.wave ex l with | some m => readOpnd s.wave a m | none => readOpnd s.wave d l)

/-- REDUCE and SCAN (`reduce64`, `scan64`) that raise no enabled exception complete: each executing lane takes its tile's tree or scan, and
the sticky flags take what the executing lanes' trees raised; an enabled exception faults precisely instead, with the cause of the lowest
enabled flag (R64, R65, R181, R46). -/
def Sys2Proof.Claims.ReductionsComplete : Prop :=
  ∀ (scan : Bool) (f : F64R) (s : State), Due s →
    let i := if scan then Instr.scan64 f else Instr.reduce64 f
    let d := opnd f.cd f.d (f.fn.getLsbD 4) 0
    let ex := execLanes s f.g
    let fl := Claims.treeFlags scan f s.wave ex
    topReg [opnd f.ca f.a (f.fn.getLsbD 4) 0, d] ≤ 8 * s.wave.gran →
    (Claims.NoTrap s.wave fl → ∃ t, exec i s = .next t ∧
      Retired i s { s with wave := writeOpnd (Claims.withFlags s.wave fl) ex d (fun l => (Claims.treeLane scan f s.wave ex l).1) } t) ∧
    (∀ n, Claims.LowestTrap s.wave fl n → Issuing s → ∃ t m, exec i s = .next t ∧
      Raised { s with wave := Claims.withFlags s.wave fl } t (0x010 + n) m)

namespace Sys2Proof.Claims

/-! ### Control flow and traps (R163 to R169, R182 to R185, R406 to R422) -/

/-- BRA and CALL (R165, R166): guard, the distance in bytes, whether it calls. -/
def braRow (i : Instr) : Option (BitVec 5 × Int × Bool) :=
  match i with
  | .bra32 f => some (f.g, 8 * f.off.toInt, false)
  | .bra96 f => some (f.r.g, f.lit.toInt, false)
  | .call32 f => some (f.g, 8 * f.off.toInt, true)
  | .call96 f => some (f.r.g, f.lit.toInt, true)
  | _ => none

/-- A PC of 57 bits, sign-extended. -/
def pc57 (x : Int) : DWord := (BitVec.ofInt 57 x).signExtend 64

/-- `y` is wave `x` after lanes `ex` were sent to the headers that `target` gives, with the return stacks that `stack` gives; nothing
else of it changed. -/
def Branched (x y : Wave) (ex : Lanes) (target : Nat → DWord) (stack : List DWord → List DWord) : Prop :=
  { y with lane := [] } = { x with lane := [] } ∧
  ∀ l < 32, getLane y l = if ex.getLsbD l then { atHeader (target l) (getLane x l) with stack := stack (getLane x l).stack } else getLane x l

/-- The lanes that a call or a return cannot serve: a full stack of 16, an empty stack. -/
def stackLanes (s : State) (ex : Lanes) (calls : Bool) : Lanes :=
  maskOf ((lanesOf ex).filter (fun l => if calls then decide ((getLane s.wave l).stack.length ≥ 16) else (getLane s.wave l).stack.isEmpty))

end Sys2Proof.Claims

/-- BRA and CALL complete, in both sizes (`bra32`, `bra96`, `call32`, `call96`): every executing lane goes to the header at its distance
from the instruction and leaves the path, a call pushes the stroke's fall-through header, nothing else changes, and the rest of the path
goes on; a lane whose return stack holds 16 entries makes CALL fault precisely with 0x018, and no lane branches (R165, R166, R168). -/
def Sys2Proof.Claims.BranchesAndCallsComplete : Prop :=
  ∀ (i : Instr) (s : State) (g : BitVec 5) (d : Int) (calls : Bool), Claims.braRow i = some (g, d, calls) →
    let ex := execLanes s g
    (Due s → (calls = true → Claims.stackLanes s ex true = 0) →
      ∃ (y : Wave) (t : State), exec i s = .next t ∧ Retired i s { s with wave := leavePath y ex } t ∧
        Claims.Branched s.wave y ex (fun _ => Claims.pc57 ((curPath s.wave).pc.toNat + d))
          (fun st => if calls then (curPath s.wave).fall :: st else st)) ∧
    (Issuing s → calls = true → Claims.stackLanes s ex true ≠ 0 →
      ∃ t, exec i s = .next t ∧ Raised s t 0x018 (Claims.stackLanes s ex true))

/-- BRX and RET complete: `brx64` sends each executing lane to the header that its own pair A holds, and its link form writes the
fall-through header to D; `ret32` sends it to the top entry of its return stack, which it pops, and faults precisely with 0x019 where an
executing lane's stack is empty. The lanes leave the path, and nothing else changes (R166, R167, R168). -/
def Sys2Proof.Claims.IndirectBranchesComplete : Prop :=
  (∀ (f : F64R) (s : State), Due s →
    topReg (if f.fn == 1 then [opnd f.ca f.a true 0, opnd f.cd f.d true 0] else [opnd f.ca f.a true 0]) ≤ 8 * s.wave.gran →
    let ex := execLanes s f.g
    let x := if f.fn == 1 then writeOpnd s.wave ex (opnd f.cd f.d true 0) (fun _ => (curPath s.wave).fall.toNat) else s.wave
    ∃ (y : Wave) (t : State), exec (.brx64 f) s = .next t ∧ Retired (.brx64 f) s { s with wave := leavePath y ex } t ∧
      Claims.Branched x y ex (fun l => Claims.pc57 (readOpnd s.wave (opnd f.ca f.a true 0) l)) (fun st => st)) ∧
  (∀ (f : F32Z) (s : State),
    let ex := execLanes s f.g
    (Due s → Claims.stackLanes s ex false = 0 →
      ∃ (y : Wave) (t : State), exec (.ret32 f) s = .next t ∧ Retired (.ret32 f) s { s with wave := leavePath y ex } t ∧
        Claims.Branched s.wave y ex (fun l => (getLane s.wave l).stack.headD 0) (fun st => st.tail)) ∧
    (Issuing s → Claims.stackLanes s ex false ≠ 0 →
      ∃ t, exec (.ret32 f) s = .next t ∧ Raised s t 0x019 (Claims.stackLanes s ex false)))

/-- NOP and EXIT complete: `nop32`, and an `exit32` that no lane executes, only go on; `exit32` takes its executing lanes out of every
mask, k0 among them, leaves none of them parked on a mask, and writes no register; while a live lane is left, nothing but masks, lanes,
paths, waits and the crew's route tags changes, and when none is left the wave has ended (R169, R31). -/
def Sys2Proof.Claims.NopAndExitComplete : Prop :=
  (∀ (f : F32Z) (s : State), Due s → ∃ t, exec (.nop32 f) s = .next t ∧ Retired (.nop32 f) s s t) ∧
  (∀ (f : F32Z) (s : State), Due s → execLanes s f.g = 0 → ∃ t, exec (.exit32 f) s = .next t ∧ Retired (.exit32 f) s s t) ∧
  (∀ (f : F32Z) (s : State), Due s → execLanes s f.g ≠ 0 →
    let ex := execLanes s f.g
    let x := s.wave
    ∃ u t, exec (.exit32 f) s = .next t ∧ Retired (.exit32 f) s u t ∧
      (∀ k < 12, kGet u.wave k = kGet x k &&& ~~~ex) ∧ u.wave.v = x.v ∧ u.wave.s = x.s ∧ u.wave.p = x.p ∧
      (∀ l < 32, ex.getLsbD l = true → (getLane u.wave l).park = 15) ∧
      (live x &&& ~~~ex = 0 → u.wave.status = .ended) ∧
      (live x &&& ~~~ex ≠ 0 → SameElse { u with tags := [] } { s with tags := [] } ∧ u.wave.status = x.status ∧
        { u.wave with k := [], lane := [], pathA := {}, pathB := {}, conts := [], waits := [] } =
          { x with k := [], lane := [], pathA := {}, pathB := {}, conts := [], waits := [] }))

/-- TRAP #n that a lane executes completes, so that the lanes' PC lies behind it, and raises 0x080 + n for those lanes; BKPT that a lane
executes faults precisely with 0x3E0; with no lane executing both only go on (R182, R183). -/
def Obligations.TrapInstructionsRaiseTheirCause : Prop :=
  (∀ f : F32Z, (Instr.trap32 f).wf = true → f.fn.toNat ≤ 127) ∧ decode [0xBC000BF0] = .ok (.trap32 ⟨true, 15, 5⟩, []) ∧
  ∀ (f : F32Z) (s : State), Issuing s →
    (execLanes s f.g ≠ 0 → ∃ t, exec (.trap32 f) s = .next t ∧
      Raised { s with wave := advance s.wave 4 } t (0x080 + f.fn.toNat % 128) (execLanes s f.g)) ∧
    (execLanes s f.g ≠ 0 → ∃ t, exec (.bkpt32 f) s = .next t ∧ Raised s t 0x3E0 (execLanes s f.g)) ∧
    (execLanes s f.g = 0 → (∃ t, exec (.trap32 f) s = .next t ∧ Retired (.trap32 f) s s t) ∧
      ∃ t, exec (.bkpt32 f) s = .next t ∧ Retired (.bkpt32 f) s s t)

/-- The wave of a pair that met a cause (R410). -/
def Sys2Proof.Claims.raiser (s : State) (w : Nat) (p : Pending) : Wave :=
  if p.shadow then (match (getWave s w).partner with | some q => getWave s q | none => getWave s w) else getWave s w

/-- The stores of a frame (R410): each field is stored in order at the place that its address translates to, as a relaxed store of the
wave at thread scope; `t` is the state after the last. -/
def Sys2Proof.Claims.FrameStored (s : State) (w fa : Nat) (fs : List (Nat × Nat × Nat)) (t : State) : Prop :=
  ∀ (pre post : List (Nat × Nat × Nat)) (o n v : Nat), fs = pre ++ (o, n, v) :: post →
    ∃ (a b : State) (tr : Xlat), storeFields s w fa pre = (a, .ok ()) ∧
      translate a (getWave a w).vif (waveDie w) ((fa + o) % 2 ^ 64) 1 false = (b, .ok tr) ∧
      storeFields (writeBytes (recordWrite b (getWave a w).vif ((fa + o) % 2 ^ 64) tr.pte) (threadOf w 0)
        (storePoint (waveCore w) 0 tr.mode tr.pa false) tr.mode tr.pa n v true) w fa post = (t, .ok ())

/-- The fields of a frame's header and of its compute wave's lane records (R411, R412). -/
def Sys2Proof.Claims.FrameHolds (x : Wave) (p : Pending) (fs : List (Nat × Nat × Nat)) : Prop :=
  (0, 2, p.cause) ∈ fs ∧ (3, 1, p.path) ∈ fs ∧ (4, 4, p.lanes.toNat) ∈ fs ∧ (8, 4, x.wsw.toNat) ∈ fs ∧ (12, 4, x.ordp.toNat) ∈ fs ∧
  (24, 8, p.addr) ∈ fs ∧ (∀ i < 8, (32 + 4 * i, 4, sGet x i) ∈ fs) ∧
  ∀ l < 32, ∀ i < 4, (0x100 + 32 * l + 8 * i, 8, laneRecord x l / 2 ^ (64 * i) % 2 ^ 64) ∈ fs

/-- Taking a trap (R408, R410, R411, R414): the lanes of the delivered cause are all those of the raising wave that met it; for a stopped
wave with a cause to deliver, no handler running, a vector entry that is valid and a frame that can be written, the event enters the
handler: each field of the frame is stored at its place, and what is not a wave is as these stores and the withdrawal of the pair's waits
leave it; every live lane stands at the handler's header, s0 and s1 hold the frame's address, s2 the cause, s3 its lanes, INTRAP is set,
STEP, BOFF, LANEPART and ORDP are zero, no cause stands, and the wave runs. -/
def Sys2Proof.Claims.TrapDeliveryEntersTheHandler : Prop :=
  ∀ (s : State) (w : Nat) (p0 : Pending),
    let x := getWave s w
    let p := gatherCause s w p0
    let r := readVirt s x.vif (waveDie w) ((x.tvbase.toNat + 8 * p0.cause) % 2 ^ 64) 8
    (p.cause = p0.cause ∧ p.rank = p0.rank ∧ p.shadow = p0.shadow ∧ p.path = p0.path ∧ ∀ l < 32, (p.lanes.getLsbD l = true ↔
      p0.lanes.getLsbD l = true ∨ smGet (Claims.raiser s w p0).lcause 0 l = p0.cause ∨
        ∃ q ∈ x.pend, q.cause = p0.cause ∧ q.shadow = p0.shadow ∧ q.lanes.getLsbD l = true)) ∧
    (trapDue s w = true → choosePending x.pend = some p0 → inTrap x = false →
    ∀ (bs : List Byte) (s2 s3 : State), r = (s2, .ok bs) →
      (bytesNat bs).testBit 0 = true → natBits (bytesNat bs) 2 1 = 0 → canonical (bytesNat bs / 8 * 8) = true →
      let fields := frameFields (withdrawPair s2 w) w p
      storeFields s2 w (frameAddr s2 w) fields = (s3, .ok ()) →
      ∃ t, exec (.trapDelivery w) s = .next t ∧
        Claims.FrameHolds (getWave (withdrawPair s2 w) w) p fields ∧ Claims.FrameStored s2 w (frameAddr s2 w) fields s3 ∧
        SameElse (withdrawPair s3 w) t ∧
        boff (getWave t w) = 0 ∧
        (getWave t w).status = .running ∧ (getWave t w).pend = [] ∧ inTrap (getWave t w) = true ∧ stepOn (getWave t w) = false ∧
        lanePart (getWave t w) = 0 ∧ (getWave t w).ordp = 0 ∧
        sPair64 (getWave t w) 0 = frameAddr s2 w ∧ sGet (getWave t w) 2 = p0.cause % 2 ^ 32 ∧ sGet (getWave t w) 3 = p.lanes.toNat ∧
        ∀ l < 32, (live (getWave t w)).getLsbD l = true →
          (getLane (getWave t w) l).pc = BitVec.ofNat 64 (bytesNat bs / 8 * 8) ∧ (getLane (getWave t w) l).mid = false)

/-- A cause that comes while a handler runs, a vector entry that is not valid, and a frame that cannot be written halt the wave for the
driver, with 0x3E2 and the cause, 0x3E4 and the cause, and 0x3E3 and the cause of the frame's own access; a wave that halts keeps its registers,
waits and continuations (R422). -/
def Sys2Proof.Claims.UndeliverableTrapHaltsTheWave : Prop :=
  ∀ (s : State) (w : Nat) (p : Pending), trapDue s w = true → choosePending (getWave s w).pend = some p →
    (∀ (t : State) (bs : List Byte) (s2 : State), inTrap (getWave s w) = false →
      readVirt s (getWave s w).vif (waveDie w) (((getWave s w).tvbase.toNat + 8 * p.cause) % 2 ^ 64) 8 = (s2, .ok bs) →
      (((bytesNat bs).testBit 0 = false ∨ natBits (bytesNat bs) 2 1 ≠ 0 ∨ canonical (bytesNat bs / 8 * 8) = false) →
        exec (.trapDelivery w) s = .next (haltWave s2 w 0x3E4 p.cause)) ∧
      (∀ c, (bytesNat bs).testBit 0 = true → natBits (bytesNat bs) 2 1 = 0 → canonical (bytesNat bs / 8 * 8) = true →
        storeFields s2 w (frameAddr s2 w) (frameFields (withdrawPair s2 w) w (gatherCause s w p)) = (t, .error c) →
        exec (.trapDelivery w) s = .next (haltWave t w 0x3E3 c))) ∧
    (inTrap (getWave s w) = true → exec (.trapDelivery w) s = .next (haltWave s w 0x3E2 p.cause)) ∧
    (∀ (s2 : State) (c : Nat), inTrap (getWave s w) = false →
      readVirt s (getWave s w).vif (waveDie w) (((getWave s w).tvbase.toNat + 8 * p.cause) % 2 ^ 64) 8 = (s2, .error c) →
      exec (.trapDelivery w) s = .next (haltWave s2 w 0x3E4 p.cause)) ∧
    (∀ (t : State) (c n : Nat), (getWave t w).status = .stopped → (getWave t w).partner = none →
      (getWave (haltWave t w c n) w).status = .halted c n ∧ SameRegs (getWave t w) (getWave (haltWave t w c n) w))

/-- TRET (`tret32`) outside a handler is 0x006 for the lanes that execute it; in a handler it completes by returning: once the wave's own
stores before it are performed it restores what the frame holds, and the entries of the frame are issued again (R417 to R419); where one of
those stores leaves a cause to deliver, the wave stops for it first. With no lane executing it only goes on. -/
def Sys2Proof.Claims.TrapReturn : Prop :=
  ∀ (f : F32Z) (s : State), Issuing s →
    (execLanes s f.g ≠ 0 → inTrap s.wave = true →
      let u := settleOwn s s.cur
      (u.wave.pend = [] → exec (.tret32 f) s = .next (reinject (returnTrap u u.cur) u.cur)) ∧
      (u.wave.pend ≠ [] → exec (.tret32 f) s = .next (modWave u u.cur (stopAs false .stopped)))) ∧
    (execLanes s f.g ≠ 0 → inTrap s.wave = false → ∃ t, exec (.tret32 f) s = .next t ∧ Raised s t 0x006 (execLanes s f.g)) ∧
    (execLanes s f.g = 0 → ∃ t, exec (.tret32 f) s = .next t ∧ Retired (.tret32 f) s s t)

/-- What a return restores (R417, R185): from a frame whose header, records and entries can be read and are valid, for a wave without a
shadow, s0 to s7, WSW[23:16] and LANEPART as saved, ORDP, and each lane's PC, HEAD, MID and return stack; a lane whose PC the handler
changed leaves the masks k1 to k11, and one whose live bit it cleared has ended (of a lane captured dead the model ignores the live bit, log
entry 54); INTRAP clears, and the entries wait to be issued again. A header that cannot be read, or that is invalid, halts the wave with
0x3E3. -/
def Sys2Proof.Claims.TrapReturnRestoresTheFrame : Prop :=
  ∀ (s : State) (w : Nat), (getWave s w).partner = none →
    (∀ (s1 : State) (c : Nat), loadFields s w (frameAddr s w) headerFields = (s1, .error c) → returnTrap s w = haltWave s1 w 0x3E3 c) ∧
    (∀ (s1 : State) (hl : List Nat), loadFields s w (frameAddr s w) headerFields = (s1, .ok hl) →
      (let h := wordsNat hl
       bytesAt h 0 2 ≥ 1024 ∨ bytesAt h 2 1 ≥ 8 ∨ bytesAt h 3 1 > 1 ∨ bytesAt h 16 4 > 48 ∨ bytesAt h 92 164 ≠ 0) →
      returnTrap s w = haltWave s1 w 0x3E3 0) ∧
    (∀ (s1 s2 s3 : State) (hl : List Nat) (rs : List (Nat × Nat × List Nat)) (reps : List Replay),
      loadFields s w (frameAddr s w) headerFields = (s1, .ok hl) →
      (let h := wordsNat hl
       bytesAt h 0 2 < 1024 ∧ bytesAt h 2 1 < 8 ∧ bytesAt h 3 1 ≤ 1 ∧ bytesAt h 16 4 ≤ 48 ∧ bytesAt h 92 164 = 0) →
      readRecords s1 w (frameAddr s w) (List.range 32) = (s2, .ok rs) →
      readReplays s2 w (frameAddr s w) 0 (bytesAt (wordsNat hl) 16 4) = (s3, .ok reps) →
      (∀ i < 8, sGet (getWave (returnTrap s w) w) i = bytesAt (wordsNat hl) (32 + 4 * i) 4 % 2 ^ 32) ∧
      natBits (getWave (returnTrap s w) w).wsw.toNat 23 16 = natBits (bytesAt (wordsNat hl) 8 4) 23 16 ∧
      lanePart (getWave (returnTrap s w) w) = natBits (bytesAt (wordsNat hl) 8 4) 14 12 ∧
      (getWave (returnTrap s w) w).ordp = BitVec.ofNat 32 (bytesAt (wordsNat hl) 12 4) &&& 0xF7F7 ∧
      (getWave (returnTrap s w) w).reinject = reps ∧
      (∀ r ∈ rs, let z := getLane (getWave (returnTrap s w) w) r.1
        z.pc = Claims.pc57 (bytesAt r.2.1 0 8) ∧ z.head = Claims.pc57 (bytesAt r.2.1 8 8) ∧ z.mid = r.2.1.testBit 131 ∧
        z.stack = (r.2.2.map (fun a : Nat => Claims.pc57 (a : Int))).reverse ∧
        (smGet (getWave s3 w).capPc 0 r.1 ≠ Claims.pc57 (bytesAt r.2.1 0 8) →
          z.park = 15 ∧ ∀ k, 1 ≤ k → k < 12 → (kGet (getWave (returnTrap s w) w) k).getLsbD r.1 = false) ∧
        ((getWave s3 w).capLive.getLsbD r.1 = true → r.2.1.testBit 128 = false → (live (getWave (returnTrap s w) w)).getLsbD r.1 = false)) ∧
      ((getWave (returnTrap s w) w).status ≠ .ended → inTrap (getWave (returnTrap s w) w) = false))

namespace Sys2Proof.Claims

/-! ### Memory instructions at issue (R238 to R252, R256 to R259, R264, R265) -/

/-- The address of lane `l` (R241): in spaces `.b` and `.v` 32-bit sums of a scalar, an index and the offset; elsewhere 64-bit sums of
a scalar pair, the sign-extended index and the offset. -/
def laneAddress (x : Wave) (m : F64M) (off : BitVec 64) (l : Nat) : Nat :=
  let idx : BitVec 32 := if m.cb = 0 then BitVec.ofNat 32 (vGet x m.b.toNat l) else if m.cb = 1 then BitVec.ofNat 32 (sGet x m.b.toNat) else 0
  if m.sp = 1 ∨ m.sp = 2 then (BitVec.ofNat 32 (sGet x m.a.toNat) + idx + off.setWidth 32).toNat
  else (BitVec.ofNat 64 (sPair64 x m.a.toNat) + idx.signExtend 64 + off).toNat

/-- What the tables give a per-lane memory instruction: its fields and offset; its operation and count (1 LD, 2 ST); the bytes of D's
registers, and those read as data; the bytes an access touches; the orders it takes, its default scope; that it uses no address. -/
structure MemRow where
  m : F64M
  off : BitVec 64
  kind : OpKind'
  counter : Nat
  vbytes : Nat
  dbytes : Nat
  n : Nat
  orders : List Nat
  scope : Nat
  all : Bool

def memRow (i : Instr) : Option MemRow :=
  let o64 (m : F64M) : BitVec 64 := m.off.signExtend 64
  let o96 (f : F96M) : BitVec 64 := f.lit.signExtend 64
  let sz (m : F64M) : Nat := szBytes m.sz.toNat
  let at' (m : F64M) : Nat := if m.fn4 = 9 then 2 * sz m else sz m
  let ld (m : F64M) (o : BitVec 64) : MemRow := ⟨m, o, .load, 1, sz m, 0, sz m, [0, 1, 4], 0, false⟩
  let st (m : F64M) (o : BitVec 64) : MemRow := ⟨m, o, .store, 2, sz m, sz m, sz m, [0, 2, 4], 0, false⟩
  let atom (m : F64M) (o : BitVec 64) : MemRow := ⟨m, o, .atom, 1, at' m, at' m, sz m, [0, 1, 2, 3, 4], 5, false⟩
  let red (m : F64M) (o : BitVec 64) : MemRow := ⟨m, o, .red, 2, at' m, at' m, sz m, [0, 2, 4], 5, false⟩
  match i with
  | .ld64 m => some (ld m (o64 m))
  | .ld96 f => some (ld f.m (o96 f))
  | .st64 m => some (st m (o64 m))
  | .st96 f => some (st f.m (o96 f))
  | .atom64 m => some (atom m (o64 m))
  | .atom96 f => some (atom f.m (o96 f))
  | .red64 m => some (red m (o64 m))
  | .red96 f => some (red f.m (o96 f))
  | .cwb64 m => some ⟨m, o64 m, .cwb, 2, 0, 0, 1, [0], 4, m.fn4 = 1⟩
  | .cinv64 m => some ⟨m, o64 m, .cinv, 2, 0, 0, 1, [0], 4, m.fn4 = 1⟩
  | _ => none

/-- Order and scope at issue: those of the path's slot where one is pending, else relaxed and the default scope, crew scope on the
bench (R244 to R246). -/
def issueOrder (s : State) (dflt : Nat) : Nat :=
  let v := slotOf s.wave s.wave.turnB
  if v ≥ 128 then v % 8 else dflt
def issueScope (s : State) (bench : Bool) (dflt : Nat) : Nat :=
  let v := slotOf s.wave s.wave.turnB
  if v ≥ 128 then v / 16 % 8 else if bench then 2 else dflt

/-- The instruction takes that order, and the bench no scope beyond the crew's. -/
def orderTaken (s : State) (r : MemRow) : Prop :=
  issueOrder s 0 ∈ r.orders ∧ (r.m.sp = 1 → issueScope s true r.scope ≤ 2)

/-- The causes that an address of lane meets at issue (R242, R224, R397), in rising order: outside the bench or the vaults, not
canonical, misaligned, beyond a sync line's value, over a barrier object with waves parked. -/
def addrCause (s : State) (r : MemRow) (a : Nat) : Option Nat :=
  let c := getCrew s s.wave.crew
  let order := issueOrder s 0
  let writes := r.kind == .store || r.kind == .atom || r.kind == .red
  let outside : Bool := (r.m.sp == 1 && a + r.n > c.benchSize)
    || (r.m.sp == 2 && (match vaultAddr s s.wave.vif a with | .error _ => true | .ok _ => false))
  let far : Bool := (r.m.sp == 0 && !canonical a) || (r.m.sp == 3 && !canonical (xTarget a).2)
  let sync : Bool := (r.kind == .load || writes) && order != 0 && issueScope s (r.m.sp == 1) r.scope ≥ 3
  ([(outside, 0x101), (far, 0x104), (a % r.n != 0, 0x107), (sync && a % 64 + r.n > 8, 0x10A),
    (r.m.sp == 1 && writes && clobbers s (waveCore s.cur) (c.benchBase + a) r.n, 0x200)].find? (·.1)).map (·.2)

/-- A state without what an operation's entry moves: the operations in flight and their numbers, the walks and the counter of
joined walks, and of the issuing wave the LD and ST counts and ORDP. -/
def eraseEntry (s : State) : State :=
  { s with ops := [], walks := [], nextId := 0, ctr := [], wave := { s.wave with ld := 0, st := 0, ordp := 0 } }

/-- In `v` the current wave of `s` has entered operation `o`, counted in LD (1), ST (2) or nowhere, with its path's slot consumed or
not; nothing else moved. -/
def Entered (s v : State) (o : Op) (counter : Nat) (used : Bool) : Prop :=
  v.ops = s.ops ++ [o] ∧ o.id = s.nextId ∧ o.w = s.cur ∧ o.counter = counter ∧ eraseEntry v = eraseEntry s ∧
  v.wave.ld = s.wave.ld + (if counter = 1 then 1 else 0) ∧ v.wave.st = s.wave.st + (if counter = 2 then 1 else 0) ∧
  v.wave.ordp = if used then (setSlot s.wave s.wave.turnB 0).ordp else s.wave.ordp

/-- The lanes of an operation: number, address, data. -/
def opLanes (o : Op) : List (Nat × Nat × Nat) := o.lanes.map (fun a => (a.lane, a.addr, a.data))

/-- The wave has a free replay entry. -/
def entryFree (s : State) : Prop := entriesUsed s s.cur < 24

end Sys2Proof.Claims

/-- LD, ST, ATOM, RED, CWB and CINV complete by entering one operation: the executing lanes' addresses, the data of D, the order and
scope of the pending slot or the defaults; LD or ST rises by one, the slot clears, and no register, and but for an atomic's own cached
copies no byte or line, changes (R238 to R252, R265). Both sizes of LD, ST, ATOM and RED are meant, and `cwb64` and `cinv64` with
`.all` too, whose addresses are checked and not used. -/
def Sys2Proof.Claims.MemoryInstructionsIssue : Prop :=
  ∀ (i : Instr) (r : Claims.MemRow) (s : State), Claims.memRow i = some r → Due s → execLanes s r.m.g ≠ 0 →
    Claims.orderTaken s r → topM r.m r.vbytes ≤ 8 * s.wave.gran → Claims.entryFree s →
    (∀ l, (execLanes s r.m.g).getLsbD l = true → Claims.addrCause s r (Claims.laneAddress s.wave r.m r.off l) = none) →
    ∃ (o : Op) (v t : State), exec i s = .next t ∧ Retired i s (o.lanes.foldl (fun u a => markAtomic u o a) v) t ∧
      (r.kind ≠ .atom → r.kind ≠ .red → o.lanes.foldl (fun u a => markAtomic u o a) v = v) ∧
      Claims.Entered s v o r.counter true ∧
      o.kind = r.kind ∧ o.space = r.m.sp.toNat ∧ o.sz = r.m.sz.toNat ∧ o.fn4 = r.m.fn4.toNat ∧ o.d = r.m.d.toNat ∧
      o.order = Claims.issueOrder s 0 ∧ o.scope = Claims.issueScope s (r.m.sp == 1) r.scope ∧
      Claims.opLanes o = if r.all then [] else (lanesOf (execLanes s r.m.g)).map (fun l =>
        (l, Claims.laneAddress s.wave r.m r.off l, gatherRegs s.wave r.m.d.toNat l r.dbytes))

/-- Where the same instructions enter nothing (R242 to R245, R88): with no lane executing they only consume their slot and go on; an order
or scope that they do not take is 0x002 and a register beyond the allocation 0x008, whatever the guard holds; an address that fails a
check faults precisely with the lowest cause, for the lanes that met it; without a replay entry the path holds at the instruction and its
slot keeps the order and scope taken. -/
def Sys2Proof.Claims.MemoryInstructionsFault : Prop :=
  ∀ (i : Instr) (r : Claims.MemRow) (s : State), Claims.memRow i = some r → Issuing s →
    let ex := execLanes s r.m.g
    let act := activeLanes s.wave (curPath s.wave)
    let fits : Prop := topM r.m r.vbytes ≤ 8 * s.wave.gran
    let cause (l : Nat) : Option Nat := Claims.addrCause s r (Claims.laneAddress s.wave r.m r.off l)
    (¬ Claims.orderTaken s r → ∃ t, exec i s = .next t ∧ Raised (useSlot s) t 0x002 act) ∧
    (Claims.orderTaken s r → ¬ fits → ∃ t, exec i s = .next t ∧ Raised s t 0x008 act) ∧
    (Claims.orderTaken s r → fits → ex = 0 → ∃ t, exec i s = .next t ∧ Retired i s (useSlot s) t) ∧
    (Claims.orderTaken s r → fits → (∃ l, ex.getLsbD l = true ∧ (cause l).isSome) →
      ∃ c m t, exec i s = .next t ∧ Raised s t c m ∧ m ≠ 0 ∧
        (∀ l < 32, m.getLsbD l = (ex.getLsbD l && cause l == some c)) ∧
        ∀ l c', ex.getLsbD l = true → cause l = some c' → c ≤ c') ∧
    (Claims.orderTaken s r → fits → ex ≠ 0 → (∀ l, ex.getLsbD l = true → cause l = none) → ¬ Claims.entryFree s →
      ∃ t, exec i s = .next t ∧
        HeldAt s t .replay (some (128 + 16 * Claims.issueScope s (r.m.sp == 1) r.scope + Claims.issueOrder s 0)))

/-- The causes that the address of REL or ACQ meets (R242, R224): not canonical, misaligned, not at its sync line's start. -/
def Sys2Proof.Claims.scalarCause (a fn : Nat) : Option Nat :=
  if !canonical a then some 0x104 else if a % 8 ≠ 0 then some 0x107
  else if fn / 8 ≥ 3 ∧ (ordAcq (fn % 8) || ordRel (fn % 8)) = true then (if a % 64 ≠ 0 then some 0x10A else none) else none

/-- ORD, FENCE, REL, ACQ and DEVL complete (`ord64`, `fence32`, `fence64`, `rel64`, `acq64`, `devl64`). ORD leaves its order and scope in
its path's slot. FENCE enters a fence; a relaxed one is 0x002. REL and ACQ enter a release of a 64-bit value and an acquire into D, at
A's pair, with their own order and scope, or fault precisely with the lowest cause of their address. DEVL enters its operation at lane 0's
address. With no lane executing they only go on; without a replay entry they hold. No other register, and no byte, changes (R244, R256 to
R259, R243). -/
def Sys2Proof.Claims.OrderingInstructionsIssue : Prop :=
  (∀ (f : F64R) (s : State), Due s →
    (execLanes s f.g ≠ 0 → ∃ t, exec (.ord64 f) s = .next t ∧
      Retired (.ord64 f) s { s with wave := setSlot s.wave s.wave.turnB (128 + 16 * (f.fn.toNat / 8) + f.fn.toNat % 8) } t) ∧
    (execLanes s f.g = 0 → ∃ t, exec (.ord64 f) s = .next t ∧ Retired (.ord64 f) s s t)) ∧
  (∀ (i : Instr) (g : BitVec 5) (fn : Nat) (s : State),
    (∃ f, i = .fence32 f ∧ g = f.g ∧ fn = f.fn.toNat % 64) ∨ (∃ f, i = .fence64 f ∧ g = f.g ∧ fn = f.fn.toNat) →
    (fn % 8 = 0 → Issuing s → ∃ t, exec i s = .next t ∧ Raised s t 0x002 (activeLanes s.wave (curPath s.wave))) ∧
    (fn % 8 ≠ 0 → Due s → execLanes s g = 0 → ∃ t, exec i s = .next t ∧ Retired i s s t) ∧
    (fn % 8 ≠ 0 → Due s → execLanes s g ≠ 0 → ∃ o v t, exec i s = .next t ∧ Retired i s v t ∧ Claims.Entered s v o 0 false ∧
      o.kind = .fence ∧ o.order = fn % 8 ∧ o.scope = fn / 8 ∧ o.lanes = [])) ∧
  (∀ (f : F64R) (acq : Bool) (s : State), Due s →
    let i := if acq then Instr.acq64 f else Instr.rel64 f
    let a := sPair64 s.wave f.a.toNat
    let cause := Claims.scalarCause a f.fn.toNat
    (execLanes s f.g = 0 → ∃ t, exec i s = .next t ∧ Retired i s s t) ∧
    (∀ c, execLanes s f.g ≠ 0 → cause = some c → Issuing s → ∃ t, exec i s = .next t ∧ Raised s t c (execLanes s f.g)) ∧
    (execLanes s f.g ≠ 0 → cause = none → ¬ Claims.entryFree s →
      ∃ t, exec i s = .next t ∧ HeldAt s t .replay (some (slotOf s.wave s.wave.turnB))) ∧
    (execLanes s f.g ≠ 0 → cause = none → Claims.entryFree s →
      ∃ o v t, exec i s = .next t ∧ Retired i s v t ∧ Claims.Entered s v o (if acq then 1 else 2) false ∧
        o.kind = (if acq then .acq else .rel) ∧ o.order = f.fn.toNat % 8 ∧ o.scope = f.fn.toNat / 8 ∧ (acq = true → o.d = f.d.toNat) ∧
        Claims.opLanes o = [(0, a, if acq then 0 else if f.cb = 3 then (f.b.signExtend 64).toNat else sPair64 s.wave f.b.toNat)])) ∧
  (∀ (m : F64M) (s : State), (Instr.devl64 m).wf = true → Due s → topM m 0 ≤ 8 * s.wave.gran → Claims.issueOrder s 2 ∈ [0, 2, 4] →
    let far := canonical (Claims.laneAddress s.wave m (m.off.signExtend 64) 0) = false
    (execLanes s m.g = 0 → ∃ t, exec (.devl64 m) s = .next t ∧ Retired (.devl64 m) s (useSlot s) t) ∧
    (execLanes s m.g ≠ 0 → far → Issuing s → ∃ t, exec (.devl64 m) s = .next t ∧ Raised s t 0x104 (execLanes s m.g)) ∧
    (execLanes s m.g ≠ 0 → ¬ far → Claims.entryFree s → ∃ o v t, exec (.devl64 m) s = .next t ∧ Retired (.devl64 m) s v t ∧ Claims.Entered s v o 2 true ∧
      o.kind = .devl ∧ o.order = Claims.issueOrder s 2 ∧ o.scope = Claims.issueScope s false 5 ∧ o.d = m.d.toNat ∧
      Claims.opLanes o = [(0, Claims.laneAddress s.wave m (m.off.signExtend 64) 0, 0)]) ∧
    (execLanes s m.g ≠ 0 → ¬ far → ¬ Claims.entryFree s → ∃ t, exec (.devl64 m) s = .next t ∧
      HeldAt s t .replay (some (128 + 16 * Claims.issueScope s false 5 + Claims.issueOrder s 2))))

/-- PREF completes, in both sizes (`pref64`, `pref96`), with no effect but on copies of lines, counters and translations: every register,
every mask, every count and every operation stays, its slot clears, and a fault of its access is dropped; an order that is not relaxed,
or on the bench a scope beyond the crew's, is 0x002 (R264, R245). -/
def Sys2Proof.Claims.PrefetchChangesNoRegister : Prop :=
  ∀ (i : Instr) (m : F64M) (s : State), (i = .pref64 m ∨ ∃ f : F96M, i = .pref96 f ∧ m = f.m) →
    let taken : Prop := Claims.issueOrder s 0 = 0 ∧ (m.sp = 1 → Claims.issueScope s true 4 ≤ 2)
    (taken → Due s → topM m 0 ≤ 8 * s.wave.gran → ∃ v t, exec i s = .next t ∧ Retired i s v t ∧
      (∀ w, SameRegs (getWave s w) (getWave v w)) ∧ (execLanes s m.g = 0 → v = useSlot s) ∧
      v.ops = s.ops ∧ v.crews = s.crews ∧ v.bench = s.bench ∧ v.notes = s.notes ∧ slotOf v.wave s.wave.turnB = 0) ∧
    (¬ taken → Issuing s → ∃ t, exec i s = .next t ∧ Raised (useSlot s) t 0x002 (activeLanes s.wave (curPath s.wave)))

namespace Sys2Proof.Claims

/-! ### Network accesses, waits on memory and counters, control registers (R121 to R131, R261 to R263, R355 to R357, R384, R385) -/

/-- RPUT, RGET and RATOM: fields, offset, operation, count, bytes of D's registers, bytes of D read as data, orders. -/
def netRow (i : Instr) : Option MemRow :=
  let o64 (m : F64M) : BitVec 64 := m.off.signExtend 64
  let o96 (f : F96M) : BitVec 64 := f.lit.signExtend 64
  let sz (m : F64M) : Nat := szBytes m.sz.toNat
  let at' (m : F64M) : Nat := if m.fn4 = 9 then 2 * sz m else sz m
  match i with
  | .rput64 m => some ⟨m, o64 m, .rput, 2, sz m, sz m, sz m, [0, 2, 4], 7, false⟩
  | .rput96 f => some ⟨f.m, o96 f, .rput, 2, sz f.m, sz f.m, sz f.m, [0, 2, 4], 7, false⟩
  | .rget64 m => some ⟨m, o64 m, .rget, 1, sz m, 0, sz m, [0, 1, 4], 7, false⟩
  | .rget96 f => some ⟨f.m, o96 f, .rget, 1, sz f.m, 0, sz f.m, [0, 1, 4], 7, false⟩
  | .ratom64 m => some ⟨m, o64 m, .ratom, 1, at' m, at' m, sz m, [0, 1, 2, 3, 4], 7, false⟩
  | .ratom96 f => some ⟨f.m, o96 f, .ratom, 1, at' f.m, at' f.m, sz f.m, [0, 1, 2, 3, 4], 7, false⟩
  | _ => none

/-- The lowest cause that an address meets (R356, R92): misaligned; reserved bits, a descriptor that is not VALID or does not cover it, or
a write or atomic without WR. -/
def netAddrCause (s : State) (r : MemRow) (a : Nat) : Option Nat :=
  let e := remoteDesc s s.wave.vif (a / 2 ^ 52 % 4096)
  if a % r.n ≠ 0 then some 0x107
  else if a / 2 ^ 40 % 4096 = 0 ∧ rdValid e = true ∧ a % 2 ^ 40 + r.n ≤ rdLen e ∧ (r.kind = .rget ∨ rdWrite e = true) then none
  else some 0x382

/-- A state without what the entry of a network access moves. -/
def eraseNet (s : State) : State :=
  { s with ops := [], netReqs := [], nextId := 0, wave := { s.wave with ld := 0, st := 0, ordp := 0, seqNet := 0 } }

/-- No operation of the current wave is in flight. -/
def quietWave (s : State) : Prop := ∀ b ∈ s.ops, b.w ≠ s.cur

/-- D of WAITA and POLL, 32 or 64 bits; and the wave with a value there. -/
def waitValue (x : Wave) (m : F64M) : Nat := if m.sz = 5 then sPair64 x m.d.toNat else sGet x m.d.toNat
def waitWrite (x : Wave) (m : F64M) (v : Nat) : Wave := if m.sz = 5 then sPutPair x m.d.toNat v else sPut x m.d.toNat v

/-- What WAITA and POLL read: a location of 32 or 64 bits, relaxed at device scope, or crew scope on the bench. -/
def waitRow (m : F64M) : MemRow := ⟨m, m.off.signExtend 64, .load, 0, 0, 0, szBytes m.sz.toNat, [0, 1, 4], 5, false⟩
def waitAddr (s : State) (m : F64M) : Nat := laneAddress s.wave m (m.off.signExtend 64) 0

/-- WAITA or POLL is due, takes its order and scope, its address passes the checks of issue, it has a replay entry, and no operation of
its wave is in flight. -/
def WaitDue (s : State) (m : F64M) : Prop :=
  Issuing s ∧ execLanes s m.g ≠ 0 ∧ quietWave s ∧ topM m 0 ≤ 8 * s.wave.gran ∧ orderTaken s (waitRow m) ∧ (m.sz = 4 ∨ m.sz = 5) ∧
  addrCause s (waitRow m) (waitAddr s m) = none ∧ entryFree s

/-- Its location is found in state `u`, at `pa` in mode `mode`, or meets cause `c`; for a seq_cst read its fence's steps follow; and its
read gives `v`, or meets a cause. -/
def WaitReads (s : State) (m : F64M) (u : State) (pa mode : Nat) (v : Except Nat Nat) : Prop :=
  let order := issueOrder s 0
  let scope := issueScope s (m.sp == 1) 5
  (∃ s2 pte buf, locate s s.cur m.sp.toNat (waitAddr s m) = (s2, .ready pa mode pte buf) ∧
    readWait (if order = 4 then fenceSteps s2 s.cur 4 scope else s2) s.cur m.sp.toNat scope mode pa (szBytes m.sz.toNat) = (u, v)) ∨
  (∃ c, v = .error c ∧ locate s s.cur m.sp.toNat (waitAddr s m) = (u, .bad c))

/-- The slot that a waiting read keeps: its order and scope. -/
def waitSlot (s : State) (m : F64M) : Nat := 128 + 16 * issueScope s (m.sp == 1) 5 + issueOrder s 0

/-- The counters and the thresholds of a WAIT (R385): TILE, CPY, ST, LD, ENG, each with the value that places no condition. -/
def waitRows (f : F64R) (x : Wave) : List (Nat × Nat × Nat) :=
  if f.fn.getLsbD 5 then
    let a := sGet x f.a.toNat
    [(x.tile, a / 2 ^ 24, 255), (x.cpy, a / 2 ^ 16 % 256, 255), (x.st, a / 2 ^ 8 % 256, 255), (x.ld, a % 256, 255),
      (x.eng, sGet x (f.a.toNat + 1) % 256, 255)]
  else [(x.tile, f.b.toNat / 16, 15), (x.cpy, f.b.toNat % 16, 15), (x.st, f.c.toNat / 16, 15), (x.ld, f.c.toNat % 16, 15), (x.eng, f.fn.toNat % 16, 15)]

/-- Every counter that has a condition is at or below its threshold. -/
def waitMet (f : F64R) (x : Wave) : Prop := ∀ r ∈ waitRows f x, r.2.1 ≠ r.2.2 → r.1 ≤ r.2.1

/-- The control registers that exist, and what each reads as (R123 to R131). -/
def csrValue (s : State) (n : Nat) : Option Nat :=
  let x := s.wave
  let core := waveCore s.cur
  match n with
  | 0x000 => some x.wsw.toNat
  | 0x001 => some x.fcsr.toNat
  | 0x002 => some x.ordp.toNat
  | 0x004 => some (x.ld % 256 + 256 * (x.st % 256 + 256 * (x.cpy % 256 + 256 * (x.tile % 256))))
  | 0x005 => some (x.eng % 256)
  | 0x006 => some x.gran
  | 0x007 => some (2 ^ 9 * (s.cur % 64) + 2 ^ 15 * (core % 128) + 2 ^ 22 * (core / 128 % 2) + 2 ^ 23 * (core / 256))
  | 0x008 => some x.qmap0.toNat
  | 0x009 => some x.qmap1.toNat
  | 0x010 => some (x.tvbase.toNat % 2 ^ 32)
  | 0x011 => some (x.tvbase.toNat / 2 ^ 32)
  | _ => none

/-- Which control register CSRR and CSRW name, their guard, and the value that CSRW writes. -/
def csrRow (i : Instr) (x : Wave) : Option (BitVec 5 × Nat) :=
  match i with
  | .csrr32 f => some (f.g, f.imm.toNat)
  | .csrr64 f => some (f.g, sGet x f.b.toNat)
  | .csrw32 f => some (f.g, f.imm.toNat)
  | .csrw64 f => some (f.g, sGet x f.b.toNat)
  | _ => none
def csrDest (i : Instr) : Option Nat := match i with | .csrr32 f => some f.d.toNat | .csrr64 f => some f.d.toNat | _ => none
def csrSource (i : Instr) (x : Wave) : Option Nat :=
  match i with | .csrw32 f => some (sGet x f.d.toNat) | .csrw64 f => some (sGet x f.a.toNat) | _ => none

/-- The wave without its control registers. -/
def eraseCsrs (x : Wave) : Wave := { x with wsw := 0, fcsr := 0, qmap0 := 0, qmap1 := 0, tvbase := 0 }

/-- Nibble `i` of a QMAP word. -/
def qcode (w i : Nat) : Nat := w / 16 ^ i % 16

/-- A write of `v` to QMAP0 or, `hi`, QMAP1 is refused as an encoding: a code beyond 6, code 1 outside the window of a pair in QMAP0,
or a change of a register whose code is 1; and as busy: a change of a register that holds entries (R131). -/
def qmapBad (x : Wave) (hi : Bool) (v : Nat) : Prop :=
  let old := (if hi then x.qmap1 else x.qmap0).toNat
  ∃ i < 8, qcode v i > 6 ∨ (qcode v i = 1 ∧ (hi = true ∨ (x.shadow = false ∧ x.partner = none))) ∨ (qcode old i ≠ qcode v i ∧ qcode old i = 1)
def qmapBusy (x : Wave) (hi : Bool) (v : Nat) : Prop :=
  let old := (if hi then x.qmap1 else x.qmap0).toNat
  ∃ i < 8, qcode old i ≠ qcode v i ∧ smGet x.q [] ((if hi then 8 else 0) + i) ≠ []

end Sys2Proof.Claims

/-- RPUT, RGET and RATOM complete, in both sizes, by entering one access, numbered with the wave's next sequence number, with requests of
their own that carry every executing lane to its descriptor's pod, package, region and generation; LD or ST rises by one and the slot
clears. An address that fails a check faults precisely with the lowest cause, for the lanes that met it; an order they do not take, or a
scope that is not the system's, is 0x002; with no lane executing they only go on; without a replay entry they hold (R355 to R357, R243,
R88). -/
def Obligations.NetworkAccessesIssue : Prop :=
  ∀ (i : Instr) (r : Claims.MemRow) (s : State), Claims.netRow i = some r →
    let ex := execLanes s r.m.g
    let addr (l : Nat) : Nat := Claims.laneAddress s.wave r.m r.off l
    let cause (l : Nat) : Option Nat := Claims.netAddrCause s r (addr l)
    let taken : Prop := Claims.issueOrder s 0 ∈ r.orders ∧ Claims.issueScope s false 7 = 7
    let fits : Prop := topM r.m r.vbytes ≤ 8 * s.wave.gran
    (taken → fits → Due s → ex ≠ 0 → Claims.entryFree s → (∀ l, ex.getLsbD l = true → cause l = none) →
      ∃ (o : Op) (rs : List NetReq) (v t : State), exec i s = .next t ∧ Retired i s v t ∧ Claims.eraseNet v = Claims.eraseNet s ∧
        v.ops = s.ops ++ [o] ∧ v.netReqs = s.netReqs ++ rs ∧ v.wave.seqNet = (s.wave.seqNet + 1) % 2 ^ 32 ∧
        v.wave.ld = s.wave.ld + (if r.counter = 1 then 1 else 0) ∧ v.wave.st = s.wave.st + (if r.counter = 2 then 1 else 0) ∧
        v.wave.ordp = (setSlot s.wave s.wave.turnB 0).ordp ∧
        o.kind = r.kind ∧ o.w = s.cur ∧ o.netSeq = s.wave.seqNet ∧ o.order = Claims.issueOrder s 0 ∧ o.d = r.m.d.toNat ∧ o.fn4 = r.m.fn4.toNat ∧
        Claims.opLanes o = (lanesOf ex).map (fun l => (l, addr l, gatherRegs s.wave r.m.d.toNat l r.dbytes)) ∧
        (∀ q ∈ rs, q.op = o.id ∧ q.sent = false ∧ q.stage = 0) ∧
        ∀ l, l < 32 → ex.getLsbD l = true → ∃ q ∈ rs, l ∈ q.lanes ∧
          let e := remoteDesc s s.wave.vif (addr l / 2 ^ 52 % 4096)
          q.pod = rdPod e ∧ q.target = rdPkg e ∧ q.region = rdRegion e ∧ q.gen = rdGen e) ∧
    (taken → fits → Due s → ex ≠ 0 → ¬ Claims.entryFree s → (∀ l, ex.getLsbD l = true → cause l = none) →
      ∃ t, exec i s = .next t ∧ HeldAt s t .replay (some (128 + 16 * 7 + Claims.issueOrder s 0))) ∧
    (taken → fits → Issuing s → (∃ l, ex.getLsbD l = true ∧ (cause l).isSome) →
      ∃ c m t, exec i s = .next t ∧ Raised s t c m ∧ m ≠ 0 ∧ (∀ l < 32, m.getLsbD l = (ex.getLsbD l && cause l == some c)) ∧
        ∀ l c', ex.getLsbD l = true → cause l = some c' → c ≤ c') ∧
    (taken → fits → Due s → ex = 0 → ∃ t, exec i s = .next t ∧ Retired i s (useSlot s) t) ∧
    (taken → ¬ fits → Issuing s → ∃ t, exec i s = .next t ∧ Raised s t 0x008 (activeLanes s.wave (curPath s.wave))) ∧
    (¬ taken → Issuing s → ∃ t, exec i s = .next t ∧ Raised (useSlot s) t 0x002 (activeLanes s.wave (curPath s.wave)))

/-- WAITA completes (the fence of a seq_cst read comes before each attempt, which is the model's choice, log entry 22): its read in hand, `waita64` ends at once where the value differs from D, which takes it; an equal value parks
every active lane of the path at the fall-through header, watching the location with its comparison value, and D stays. In a handler it
is 0x002 (R261, R415). -/
def Sys2Proof.Claims.WaitOnAddress : Prop :=
  ∀ (m : F64M) (s : State),
    (inTrap s.wave = true → Issuing s → ∃ t, exec (.waita64 m) s = .next t ∧ Raised s t 0x002 (activeLanes s.wave (curPath s.wave))) ∧
    ∀ (u : State) (pa mode v : Nat), inTrap s.wave = false → Claims.WaitDue s m → Claims.WaitReads s m u pa mode (.ok v) →
      let order := Claims.issueOrder s 0
      let scope := Claims.issueScope s (m.sp == 1) 5
      let z := useSlot u
      (v ≠ Claims.waitValue s.wave m → ∃ t, exec (.waita64 m) s = .next t ∧
        let z := waitAcquire z s.cur m.sp.toNat order scope pa
        Retired (.waita64 m) s { z with wave := Claims.waitWrite z.wave m v } t) ∧
      (v = Claims.waitValue s.wave m → ∃ (y : Watch) (t : State), exec (.waita64 m) s = .next t ∧
        Retired (.waita64 m) s { z with wave := parkPath z.wave (.value y) } t ∧
        y.pa = pa ∧ y.size = szBytes m.sz.toNat ∧ y.cmp = v ∧ y.order = order ∧ y.scope = scope ∧ y.space = m.sp.toNat ∧
        y.addr = Claims.waitAddr s m ∧ y.d = m.d.toNat ∧ y.timeout = m.fn4.toNat)

/-- POLL completes: its read in hand, `poll64` succeeds where its condition holds: D takes the value and BOFF is zero. Where it fails,
BOFF rises by one up to 8, no register changes, and its path holds at it, to continue with the order and scope it took (R263). -/
def Sys2Proof.Claims.PollSucceedsOrBacksOff : Prop :=
  ∀ (m : F64M) (s u : State) (pa mode v : Nat), Claims.WaitDue s m → Claims.WaitReads s m u pa mode (.ok v) →
    let d := Claims.waitValue u.wave m
    let holds : Prop := if m.fn4 % 4 = 0 then v = d else if m.fn4 % 4 = 1 then v ≠ d else if m.fn4 % 4 = 2 then v &&& d ≠ 0 else d ≤ v
    (holds → ∃ t, exec (.poll64 m) s = .next t ∧
      let z := waitAcquire (useSlot u) s.cur m.sp.toNat (Claims.issueOrder s 0) (Claims.issueScope s (m.sp == 1) 5) pa
      Retired (.poll64 m) s { z with wave := Claims.waitWrite { z.wave with wsw := setBits z.wave.wsw 20 17 0 } m v } t) ∧
    (¬ holds → ∃ t, exec (.poll64 m) s = .next t ∧
      HeldAt { u with wave := { u.wave with wsw := setBits u.wave.wsw 20 17 (min 8 (boff u.wave + 1)) } } t .now (some (Claims.waitSlot s m)))

/-- Where WAITA and POLL read nothing, or their read fails (R242, R243, R245, R482): an order or scope that they do not take is 0x002; with
no lane executing they consume their slot and go on; an address that fails a check faults precisely; without a replay entry they hold;
a fault of the read stands for all active lanes, which stay at the instruction, and the slot keeps the order and scope taken, once path B's
instruction of the cycle has issued too. -/
def Sys2Proof.Claims.WaitingReadsStop : Prop :=
  ∀ (i : Instr) (m : F64M) (s : State), (i = .poll64 m ∨ (i = .waita64 m ∧ inTrap s.wave = false)) → Issuing s →
    let ex := execLanes s m.g
    let act := activeLanes s.wave (curPath s.wave)
    let taken : Prop := Claims.orderTaken s (Claims.waitRow m)
    let fits : Prop := topM m 0 ≤ 8 * s.wave.gran
    let cause := Claims.addrCause s (Claims.waitRow m) (Claims.waitAddr s m)
    (¬ taken → ∃ t, exec i s = .next t ∧ Raised (useSlot s) t 0x002 act) ∧
    (taken → fits → ex = 0 → ∃ t, exec i s = .next t ∧ Retired i s (useSlot s) t) ∧
    (∀ c, taken → fits → ex ≠ 0 → cause = some c → ∃ t, exec i s = .next t ∧ Raised s t c ex) ∧
    (taken → fits → ex ≠ 0 → cause = none → ¬ Claims.entryFree s →
      ∃ t, exec i s = .next t ∧ HeldAt s t .replay (some (Claims.waitSlot s m))) ∧
    (∀ (u : State) (pa mode c : Nat), Claims.WaitDue s m → Claims.WaitReads s m u pa mode (.error c) →
      (∀ e ∈ s.wave.late, e.1 = 0 ∧ s.wave.turnB = true) → ∃ t, exec i s = .next t ∧
      SameElse u t ∧ (∀ w, SameRegs (getWave u w) (getWave t w)) ∧
      (slotOf t.wave s.wave.turnB = Claims.waitSlot s m ∨
        (s.wave.turnB = false ∧ s.wave.pathB.on = true ∧ smGet t.wave.late 0 0 = Claims.waitSlot s m)) ∧
      ∃ p ∈ (getWave t (mainWave u u.cur)).pend, p.cause = c ∧ p.lanes = act)

/-- WAIT completes: `wait64` whose counters are at or below its thresholds only goes on, as one that no lane executes does; otherwise its
path holds at it, under a condition that the counters meet exactly when they are; one that is not the first of its stroke is 0x007 (R384,
R385). -/
def Obligations.WaitOnCounters : Prop :=
  decode [0xBC000151, 0xFFF003C3] = .ok (.wait64 ⟨true, 15, 0, 0, 0xFF, 0xF0, 0, 0, 0, 3, 3, 3⟩, []) ∧
  decode [0x3C000151, 0xFFF003C3] = .ok (.wait64 ⟨false, 15, 0, 0, 0xFF, 0xF0, 0, 0, 0, 3, 3, 3⟩, []) ∧
  ∀ (f : F64R) (s : State),
    (execLanes s f.g = 0 → Due s → ∃ t, exec (.wait64 f) s = .next t ∧ Retired (.wait64 f) s s t) ∧
    (execLanes s f.g ≠ 0 → (curPath s.wave).idx ≠ 0 → Issuing s → ∃ t, exec (.wait64 f) s = .next t ∧ Raised s t 0x007 (execLanes s f.g)) ∧
    (execLanes s f.g ≠ 0 → (curPath s.wave).idx = 0 → Due s → Claims.waitMet f s.wave →
      ∃ t, exec (.wait64 f) s = .next t ∧ Retired (.wait64 f) s s t) ∧
    (execLanes s f.g ≠ 0 → (curPath s.wave).idx = 0 → Due s → ¬ Claims.waitMet f s.wave →
      ∃ t c, exec (.wait64 f) s = .next t ∧ HeldAt s t c none ∧ ∀ (u : State) (w : Nat),
        let y := getWave u w
        condMet u w c = true ↔ Claims.waitMet f { s.wave with tile := y.tile, cpy := y.cpy, st := y.st, ld := y.ld, eng := y.eng })

/-- CSRR completes: `csrr32` and `csrr64` give their scalar the value of the control register that they name; with no lane executing they
only go on; a number that names none is 0x002 whatever the guard holds, for CSRW too (R123, R381, R88). -/
def Sys2Proof.Claims.ControlRegisterReads : Prop :=
  decode [0x3C240165, 0x04001100] = .ok (.csrr64 ⟨false, 15, 9, 0, 4, 0, 0, 1, 0, 1, 0, 0⟩, []) ∧
  decode [0x3C001969, 0x04000500] = .ok (.csrw64 ⟨false, 15, 0, 6, 4, 0, 0, 0, 1, 1, 0, 0⟩, []) ∧
  ∀ (i : Instr) (s : State) (g : BitVec 5) (n : Nat), Claims.csrRow i s.wave = some (g, n) →
    (∀ d v, Claims.csrDest i = some d → Claims.csrValue s n = some v → Due s →
      ∃ t, exec i s = .next t ∧ Retired i s (if execLanes s g = 0 then s else { s with wave := sPut s.wave d v }) t) ∧
    (Claims.csrValue s n = none → Issuing s → ∃ t, exec i s = .next t ∧ Raised s t 0x002 (activeLanes s.wave (curPath s.wave)))

/-- CSRW completes: what `csrw32` and `csrw64` write (R124 to R131, R381, R173): STEP, BOFF, PRIO and LANEPART of WSW, a BOFF beyond 8 or a
LANEPART beyond 4 being 0x002, and behind it the waits on masks are evaluated; the flags and the enables of FCSR as their bits; a QMAP
word whole, or 0x002 or 0x206; the two halves of TVBASE, aligned to 8 KiB and canonical; nothing for the registers that are only read. An
0x002 comes whatever the guard holds, and with no lane executing nothing else happens (R88). -/
def Sys2Proof.Claims.ControlRegisterWrites : Prop :=
  ∀ (i : Instr) (s : State) (g : BitVec 5) (n v : Nat), Claims.csrRow i s.wave = some (g, n) → Claims.csrSource i s.wave = some v →
    let writes (p : Wave → Prop) : Prop := Due s → ∃ t y, exec i s = .next t ∧
      Retired i s (if execLanes s g = 0 then s else { s with wave := if n = 0 then evalMasks y else y }) t ∧
      Claims.eraseCsrs y = Claims.eraseCsrs s.wave ∧ p y
    let raises (c : Nat) : Prop := Issuing s → ∃ t, exec i s = .next t ∧
      Raised s t c (if c = 0x002 then activeLanes s.wave (curPath s.wave) else execLanes s g)
    (n = 0x000 → (v / 2 ^ 17 % 16 > 8 ∨ v / 2 ^ 12 % 8 > 4) → raises 0x002) ∧
    (n = 0x000 → v / 2 ^ 17 % 16 ≤ 8 → v / 2 ^ 12 % 8 ≤ 4 → writes (fun y => { y with wsw := 0 } = { s.wave with wsw := 0 } ∧
      ∀ b < 32, y.wsw.getLsbD b = if (16 ≤ b ∧ b ≤ 23) ∨ (12 ≤ b ∧ b ≤ 14) then v.testBit b else s.wave.wsw.getLsbD b)) ∧
    (n = 0x001 → writes (fun y => { y with fcsr := 0 } = { s.wave with fcsr := 0 } ∧
      ∀ b < 32, y.fcsr.getLsbD b = if b ≤ 4 ∨ (8 ≤ b ∧ b ≤ 12) then v.testBit b else s.wave.fcsr.getLsbD b)) ∧
    ((n = 0x008 ∨ n = 0x009) → Claims.qmapBad s.wave (n == 0x009) v → raises 0x002) ∧
    ((n = 0x008 ∨ n = 0x009) → ¬ Claims.qmapBad s.wave (n == 0x009) v → Claims.qmapBusy s.wave (n == 0x009) v → execLanes s g ≠ 0 → raises 0x206) ∧
    ((n = 0x008 ∨ n = 0x009) → ¬ Claims.qmapBad s.wave (n == 0x009) v → ¬ Claims.qmapBusy s.wave (n == 0x009) v → writes (fun y =>
      y = if n = 0x008 then { s.wave with qmap0 := BitVec.ofNat 32 v } else { s.wave with qmap1 := BitVec.ofNat 32 v })) ∧
    (n = 0x010 → writes (fun y => { y with tvbase := 0 } = { s.wave with tvbase := 0 } ∧
      y.tvbase.toNat = s.wave.tvbase.toNat / 2 ^ 32 * 2 ^ 32 + v / 8192 * 8192)) ∧
    (n = 0x011 → writes (fun y => { y with tvbase := 0 } = { s.wave with tvbase := 0 } ∧
      y.tvbase = (BitVec.ofNat 57 (s.wave.tvbase.toNat % 2 ^ 32 + 2 ^ 32 * v)).signExtend 64)) ∧
    (n ∈ [0x002, 0x004, 0x005, 0x006, 0x007] → writes (fun y => y = s.wave))

namespace Sys2Proof.Claims

/-! ### Barrier objects, route tags, and the register allocation (R157, R386 to R394, R399, R400) -/

/-- Byte address, in the benches, of the object in `slot` of the wave's crew. -/
def slotAt (s : State) (slot : Nat) : Nat := waveCore s.cur * 2 ^ 19 + (getCrew s s.wave.crew).benchBase + 32 * slot

/-- The slot lies in its crew's bench, the bench in the core's, on a 32-byte boundary. -/
def slotFits (s : State) (slot : Nat) : Prop :=
  let c := getCrew s s.wave.crew
  slot ≤ 63 ∧ 32 * slot + 32 ≤ c.benchSize ∧ c.benchBase % 32 = 0 ∧ c.benchBase + c.benchSize ≤ 2 ^ 19

/-- The number of the object in a slot. -/
def slotNo (s : State) (slot : Nat) : Nat := benchObj (waveCore s.cur) ((getCrew s s.wave.crew).benchBase + 32 * slot)

/-- Fields of an object's 32 bytes (R386): TARGET, PHASE, ARRIVED, WAITERS; ARMED, AUTO, ERR; SCOPE; ECAUSE. -/
def barTarget (x : Nat) : Nat := x % 2 ^ 48
def barPhase (x : Nat) : Nat := x / 2 ^ 48 % 2 ^ 16
def barWaiters (x : Nat) : Nat := x / 2 ^ 112 % 2 ^ 16
def barErr (x : Nat) : Prop := x / 2 ^ 130 % 2 = 1
def barEcause (x : Nat) : Nat := x / 2 ^ 136 % 2 ^ 10

/-- WAITERS as an instruction of the current wave finds it: a wait on which path A of its own cycle parked the wave comes behind it (R391,
R397). -/
def waitersFound (s : State) (k x : Nat) : Nat := barWaiters x - (if parkedNow s.wave s.wave.turnB k then 1 else 0)

/-- The armed object: target `t`, phase, WAITERS and reserved bits as before, nothing arrived, no error. -/
def barArmed (x t auto scope : Nat) : Nat :=
  t + 2 ^ 48 * barPhase x + 2 ^ 112 * barWaiters x + 2 ^ 128 * (1 + 2 * auto + 16 * scope) + 2 ^ 146 * (x / 2 ^ 146)

/-- Operand C of BARI (a scalar pair or an immediate) and BADD (a scalar or an immediate). -/
def barTargetOf (s : State) (f : F64R) : Nat := if f.cc = 1 then sPair64 s.wave f.c.toNat else f.c.toNat
def barCountOf (s : State) (f : F64R) : Nat := if f.cc = 1 then sGet s.wave f.c.toNat else f.c.toNat

/-- A state without the benches and the units that count into their objects. -/
def eraseBench (s : State) : State := { s with bench := [], bars := [] }

/-- The causes of a memory object's address (R242, R388): not canonical, misaligned. -/
def memCause (a : Nat) : Option Nat := if !canonical a then some 0x104 else if a % 32 ≠ 0 then some 0x107 else none

/-- WAITB finds its object `o` in state `u`: a slot of its bench, or a memory object that it locates; the path has no earlier access of it
to wait for. -/
def ObjectAt (s : State) (f : F64R) (u : State) (o : Nat) : Prop :=
  quietWave s ∧
  ((f.fn.toNat / 16 = 0 ∧ u = s ∧ slotFits s (sOrImm s.wave f.cb f.b) ∧ o = slotNo s (sOrImm s.wave f.cb f.b)) ∨
   (f.fn.toNat / 16 = 1 ∧ memCause (sPair64 s.wave f.a.toNat) = none ∧
    ∃ pa mode pte buf, locate s s.cur 0 (sPair64 s.wave f.a.toNat) = (u, .ready pa mode pte buf) ∧ o = memObj pa))

/-- A state without crews, tags. -/
def eraseTags (s : State) : State := { s with tags := [], crews := [] }

/-- Only the tag registers of the dies `ds` with number `n`, and the crew `c`, differ; and of the crew only its bound tags. -/
def TagsOnly (s v : State) (ds : List Nat) (n c bound : Nat) : Prop :=
  eraseTags v = eraseTags s ∧ (∀ d m, d ∉ ds → m < 8 → getTag v d m = getTag s d m) ∧ (∀ d m, m < 8 → m ≠ n → getTag v d m = getTag s d m) ∧
  (∀ j, j ≠ c → getCrew v j = getCrew s j) ∧ getCrew v c = { getCrew s c with bound := bound }

/-- GROW and SHRINK: guard, and the target allocation with the sign of a SHRINK below zero. -/
def growRow (i : Instr) (x : Wave) : Option (BitVec 5 × Nat) :=
  match i with
  | .grow32 f => some (f.g, x.gran + f.imm.toNat)
  | .grow64 f => some (f.g, if f.fn.getLsbD 0 then sOrImm x f.cb f.b else x.gran + sOrImm x f.cb f.b)
  | _ => none
def shrinkRow (i : Instr) (x : Wave) : Option (BitVec 5 × Int) :=
  match i with
  | .shrink32 f => some (f.g, (x.gran : Int) - f.imm.toNat)
  | .shrink64 f => some (f.g, if f.fn.getLsbD 0 then (sOrImm x f.cb f.b : Int) else (x.gran : Int) - sOrImm x f.cb f.b)
  | _ => none

/-- A core without the vector registers that its engine's operations may still write, and without the note that a pass is due. -/
def eraseLimits (c : Core) : Core := { c with engine := c.engine.map (fun o => { o with vlimit := 0 }), passDue := (0, 0) }

/-- A tag that is free: what only a release or a first bind changes stays (R398). -/
def tagFreed (g : Tag) : Tag := { g with owner := none, expect := 0, bound := 0, arrived := 0 }

/-- A tag whose round has ended (R400). -/
def tagEnded (g : Tag) : Tag := { g with arrived := 0, round := (g.round + 1) % 65536, releasing := true }

end Sys2Proof.Claims

/-- BARI completes: `bari64` arms a bench slot at once, behind the arrivals that have reached it (TARGET, PHASE as it was, ARRIVED zero, AUTO
and SCOPE of FN), every other byte unchanged; a memory object, too, at its issue, by an operation counted in ST, which stands with its
cause where its address meets one. That pending arrivals are applied first is the model's order (log entry 35). A target of zero or from
2^48 on is 0x002 whatever the guard holds; waves parked on the object make it 0x200, precisely, so that the model reads WAITERS at issue (log
entry 32), a slot outside the bench 0x101, a unit that tracks 64 objects 0x207, a memory address 0x104 or 0x107 (R388 to R390, R405). With
no lane executing it only goes on. -/
def Sys2Proof.Claims.BariArms : Prop :=
  ∀ (f : F64R) (s : State),
    let i := Instr.bari64 f
    let ex := execLanes s f.g
    let t := Claims.barTargetOf s f
    let ok : Prop := 0 < t ∧ t < 2 ^ 48
    let slot := sOrImm s.wave f.cb f.b
    let k := Claims.slotNo s slot
    let a := sPair64 s.wave f.a.toNat
    let s1 := flushBar s k
    let x := s1.bench.readN (Claims.slotAt s slot) 32
    (¬ ok → Issuing s → ∃ u, exec i s = .next u ∧ Raised s u 0x002 (activeLanes s.wave (curPath s.wave))) ∧
    (ok → ex = 0 → Due s → ∃ u, exec i s = .next u ∧ Retired i s s u) ∧
    (ok → ex ≠ 0 → f.fn.toNat / 16 = 0 →
      (slot > 63 ∨ 32 * slot + 32 > (getCrew s s.wave.crew).benchSize → Issuing s → ∃ u, exec i s = .next u ∧ Raised s u 0x101 ex) ∧
      (Claims.slotFits s slot → Claims.quietWave s →
        (Claims.waitersFound s1 k x = 0 → barFull s k = false → Due s →
          ∃ v u, exec i s = .next u ∧ Retired i s v u ∧ Claims.eraseBench v = Claims.eraseBench s1 ∧
            v.bench.readN (Claims.slotAt s slot) 32 = Claims.barArmed x t (f.fn.toNat / 8 % 2) (f.fn.toNat % 8) ∧
            ∀ b, (b < Claims.slotAt s slot ∨ Claims.slotAt s slot + 32 ≤ b) → v.bench.read b = s1.bench.read b) ∧
        (Claims.waitersFound s1 k x ≠ 0 → Issuing s → ∃ u, exec i s = .next u ∧ Raised s1 u 0x200 ex) ∧
        (Claims.waitersFound s1 k x = 0 → barFull s k = true → Issuing s → ∃ u, exec i s = .next u ∧ Raised s1 u 0x207 ex))) ∧
    (ok → ex ≠ 0 → f.fn.toNat / 16 = 1 →
      (∀ c, Claims.memCause a = some c → Issuing s → ∃ u, exec i s = .next u ∧ Raised s u c ex) ∧
      (Claims.memCause a = none → Claims.quietWave s →
        (¬ Claims.entryFree s → Due s → ∃ u, exec i s = .next u ∧ HeldAt s u .replay (some (slotOf s.wave s.wave.turnB))) ∧
        (Claims.entryFree s →
          let enters (z : State) (lanes : List LaneAcc) : Prop := Due s → ∃ o v u, exec i s = .next u ∧ Retired i s v u ∧
            Claims.Entered z v o 2 false ∧ o.kind = .bari ∧ o.extra = t ∧ o.fn4 = f.fn.toNat % 16 ∧ o.lanes = lanes
          (∀ z pa mode pte buf, locateFor s s.cur 1 0 a = (z, .ready pa mode pte buf) →
            let o := memObj pa
            let lane : LaneAcc := { addr := a, stage := .ready pa mode pte buf }
            let q : Op := { kind := .bari, w := z.cur, lanes := [lane] }
            let y := flushBar z o
            let z1 := takeGrains z q
            let z2 := flushBar (if pte = 0 ∧ buf = 0 then z1 else recordWrite z1 (getWave z1 z.cur).vif a pte) o
            (Claims.waitersFound y o (readObj y o).2 ≠ 0 → Issuing s → ∃ u, exec i s = .next u ∧ Raised y u 0x200 ex) ∧
            (Claims.waitersFound y o (readObj y o).2 = 0 →
              (grainFault z q = true → enters z [{ lane with stage := .bad 0x103 }]) ∧
              (grainFault z q = false → enters (settle (armObj z2 o t (f.fn.toNat % 16)) o) []))) ∧
          (∀ z st, locateFor s s.cur 1 0 a = (z, st) → (∀ pa mode pte buf, st ≠ .ready pa mode pte buf) → Due s →
            ∃ o v u, exec i s = .next u ∧ Retired i s v u ∧ Claims.Entered z v o 2 false ∧ o.kind = .bari ∧ o.extra = t ∧
              ∀ c, st = .bad c → o.lanes = [{ addr := a, stage := st }]))))

/-- BADD completes: `badd64` is an operation counted in ST that will add its count at its scope: to a bench slot, whose counting unit
begins to track it, or to a memory object; without a replay entry it holds, with no lane executing it only goes on; a slot outside the bench
is 0x101, a unit that tracks 64 objects 0x207, a memory address 0x104 or 0x107 (R389, R392). -/
def Sys2Proof.Claims.BaddIssues : Prop :=
  ∀ (f : F64R) (s : State),
    let i := Instr.badd64 f
    let ex := execLanes s f.g
    let slot := sOrImm s.wave f.cb f.b
    let a := sPair64 s.wave f.a.toNat
    let k := Claims.slotNo s slot
    let reaches : Prop := (f.fn.toNat / 16 = 0 ∧ Claims.slotFits s slot ∧ barFull s k = false) ∨ (f.fn.toNat / 16 = 1 ∧ Claims.memCause a = none)
    (ex = 0 → Due s → ∃ u, exec i s = .next u ∧ Retired i s s u) ∧
    (ex ≠ 0 → reaches → ¬ Claims.entryFree s → Due s → ∃ u, exec i s = .next u ∧ HeldAt s u .replay (some (slotOf s.wave s.wave.turnB))) ∧
    (ex ≠ 0 → Claims.entryFree s → Due s →
      (f.fn.toNat / 16 = 0 → Claims.slotFits s slot → barFull s k = false → ∃ o v u, exec i s = .next u ∧ Retired i s v u ∧
        Claims.Entered s { v with bars := s.bars } o 2 false ∧ o.kind = .badd ∧ o.extra = Claims.barCountOf s f ∧ o.obj = k ∧ o.scope = f.fn.toNat % 8 ∧
        getBar v k = { getBar s k with tracked := true, work := (getBar s k).work + 1 } ∧ ∀ j, j ≠ k → getBar v j = getBar s j) ∧
      (f.fn.toNat / 16 = 1 → Claims.memCause a = none → ∃ o v u, exec i s = .next u ∧ Retired i s v u ∧
        Claims.Entered s v o 2 false ∧ o.kind = .badd ∧ o.extra = Claims.barCountOf s f ∧ o.scope = f.fn.toNat % 8 ∧ Claims.opLanes o = [(0, a, 0)])) ∧
    (ex ≠ 0 → Issuing s → f.fn.toNat / 16 = 0 →
      (slot > 63 ∨ 32 * slot + 32 > (getCrew s s.wave.crew).benchSize → ∃ u, exec i s = .next u ∧ Raised s u 0x101 ex) ∧
      (Claims.slotFits s slot → barFull s k = true → ∃ u, exec i s = .next u ∧ Raised s u 0x207 ex)) ∧
    (∀ c, ex ≠ 0 → Issuing s → f.fn.toNat / 16 = 1 → Claims.memCause a = some c → ∃ u, exec i s = .next u ∧ Raised s u c ex)

/-- WAITB completes: `waitb64` reads its object behind the arrivals that have reached it, which the model applies first (log entry 35), and
where it goes on it makes no acquire of its own (log entry 32); a PHASE other than D's low half goes to D and the
path goes on; an equal one parks every active lane at the fall-through header, and the wave counts once in WAITERS. An object in the error
state faults with ECAUSE, one that its unit cannot track with 0x207, the lower of the two where both hold; a memory address that is not
canonical or aligned, or that cannot be translated, with its cause. In a handler it is 0x002 whatever the guard holds; with no lane
executing it only goes on (R393, R92, R415). -/
def Obligations.WaitbJudgesThePhase : Prop :=
  ∀ (f : F64R) (s : State), Issuing s →
    let i := Instr.waitb64 f
    let ex := execLanes s f.g
    (inTrap s.wave = true → ∃ t, exec i s = .next t ∧ Raised s t 0x002 (activeLanes s.wave (curPath s.wave))) ∧
    (inTrap s.wave = false → ex = 0 → ∃ t, exec i s = .next t ∧ Retired i s s t) ∧
    (inTrap s.wave = false → ex ≠ 0 → f.fn.toNat / 16 = 1 →
      let a := sPair64 s.wave f.a.toNat
      (∀ c, Claims.memCause a = some c → ∃ t, exec i s = .next t ∧ Raised s t c ex) ∧
      (∀ u c, Claims.memCause a = none → Claims.quietWave s → locate s s.cur 0 a = (u, .bad c) → ∃ t, exec i s = .next t ∧
        SameElse u t ∧ (∀ w, SameRegs (getWave u w) (getWave t w)) ∧
        ∃ p ∈ (getWave t (mainWave u u.cur)).pend, p.cause = c ∧ p.lanes = activeLanes s.wave (curPath s.wave))) ∧
    ∀ u o, inTrap s.wave = false → ex ≠ 0 → Claims.ObjectAt s f u o →
      let z := flushBar u o
      let x := (readObj z o).2
      let full := barFull u o
      (Claims.barErr x → ∃ t, exec i s = .next t ∧
        Raised z t (if full = true then min 0x207 (Claims.barEcause x) else Claims.barEcause x) ex) ∧
      (¬ Claims.barErr x → full = true → ∃ t, exec i s = .next t ∧ Raised z t 0x207 ex) ∧
      (¬ Claims.barErr x → full = false → Claims.barPhase x ≠ sGet z.wave f.d.toNat % 65536 → ∃ v t, exec i s = .next t ∧
        Retired i s v t ∧ v.wave = sPut z.wave f.d.toNat (Claims.barPhase x) ∧ (∀ w, w ≠ z.cur → getWave v w = getWave z w) ∧
        (o % 2 = 0 → { v with bars := z.bars, wave := z.wave } = z)) ∧
      (¬ Claims.barErr x → full = false → Claims.barPhase x = sGet z.wave f.d.toNat % 65536 → ∃ v t, exec i s = .next t ∧
        Retired i s { v with wave := parkPath z.wave (.barrier o f.d.toNat) } t ∧ s.cur ∈ (getBar v o).parked ∧
        (∀ w, w ≠ z.cur → getWave v w = getWave z w) ∧
        (o % 2 = 0 → Claims.barWaiters (readObj v o).2 = if s.cur ∈ (getBar z o).parked then Claims.barWaiters x else (Claims.barWaiters x + 1) % 2 ^ 16))

/-- BART completes: `bart64` binds the crew to a tag that is free, with OWNER, PKG and EXPECT of its operands on each die of the set, or
that the set holds with the same EXPECT and PKG and has room in: BOUND rises by one. Another owner is 0x102, any other state 0x20C. `.free`
takes the crew out again: BOUND and, on each die of the set, EXPECT fall; a tag whose EXPECT is zero is free, and where the crews left have
all arrived the round ends (R25, R398, R399). That a member count is taken modulo 2^15, the width of EXPECT, is the model's inference (log
entry 59). With no lane executing it only goes on. -/
def Sys2Proof.Claims.RouteTagsBindAndFree : Prop :=
  ∀ (f : F64R) (s : State), Issuing s →
    let i := Instr.bart64 f
    let n := f.d.toNat % 8
    let die := waveDie s.cur
    let peer := die ^^^ 1
    let g := getTag s die n
    let other := getTag s peer n
    let c := s.wave.crew
    let bound := (getCrew s c).bound.testBit n
    let pkg := f.fn.getLsbD 1
    let b := sOrImm s.wave f.cb f.b % 2 ^ 15
    let raises (cause : Nat) : Prop := ∃ t, exec i s = .next t ∧ Raised s t cause (execLanes s f.g)
    let room : Prop := g.bound + (if pkg = true ∧ other.pkg = true then other.bound else 0) + 1 ≤ b
    let binds (ds : List Nat) (h h' : Tag) : Prop := ∃ v t, exec i s = .next t ∧ Retired i s v t ∧
      Claims.TagsOnly s v ds n c ((getCrew s c).bound ||| 2 ^ n) ∧ getTag v die n = h ∧ getTag v peer n = h'
    (execLanes s f.g = 0 → ∃ t, exec i s = .next t ∧ Retired i s s t) ∧
    (execLanes s f.g ≠ 0 → f.fn.getLsbD 0 = false →
      ((∃ w, g.owner = some w ∧ w ≠ s.wave.vif) → raises 0x102) ∧
      (g.owner = none → pkg = true → other.owner.isSome = true → (other.expect ≠ b ∨ other.pkg = false) → raises 0x20C) ∧
      (g.owner = none → ¬ (pkg = true ∧ other.owner.isSome = true ∧ (other.expect ≠ b ∨ other.pkg = false)) →
        (¬ room → raises 0x20C) ∧
        (room → pkg = false → binds [die] { g with owner := some s.wave.vif, pkg := false, expect := b, bound := g.bound + 1 } other) ∧
        (room → pkg = true → binds [die, peer] { g with owner := some s.wave.vif, pkg := true, expect := b, bound := g.bound + 1 }
          { other with owner := some s.wave.vif, pkg := true, expect := b })) ∧
      (g.owner = some s.wave.vif → (b ≠ g.expect ∨ pkg ≠ g.pkg ∨ bound = true ∨ ¬ room) → raises 0x20C) ∧
      (g.owner = some s.wave.vif → b = g.expect → pkg = g.pkg → bound = false → room → binds [die] { g with bound := g.bound + 1 } other)) ∧
    (execLanes s f.g ≠ 0 → f.fn.getLsbD 0 = true →
      let parked : Prop := ∃ w ∈ (getCrew s c).slots, tagLanes (getWave s w) n ≠ 0
      let both : Prop := g.pkg = true ∧ g.owner.isSome = true
      let arrived := g.arrived + (if g.pkg && g.owner.isSome then other.arrived else 0)
      (bound = false ∨ parked → raises 0x20C) ∧
      (bound = true → ¬ parked → ∃ v t, exec i s = .next t ∧ Retired i s v t ∧
        (g.expect ≤ 1 → Claims.TagsOnly s v (if g.pkg && g.owner.isSome then [die, peer] else [die]) n c ((getCrew s c).bound &&& (255 - 2 ^ n)) ∧
          getTag v die n = Claims.tagFreed g ∧ (both → getTag v peer n = Claims.tagFreed other)) ∧
        (1 < g.expect → arrived < g.expect - 1 →
          Claims.TagsOnly s v (if g.pkg && g.owner.isSome then [die, peer] else [die]) n c ((getCrew s c).bound &&& (255 - 2 ^ n)) ∧
          getTag v die n = { g with bound := g.bound - 1, expect := g.expect - 1 } ∧ (both → getTag v peer n = { other with expect := other.expect - 1 })) ∧
        (1 < g.expect → g.expect - 1 ≤ arrived → g.owner.isSome = true →
          getTag v die n = Claims.tagEnded { g with bound := g.bound - 1, expect := g.expect - 1 })))

/-- WAITB.tag completes: with `waitbTag64` every active lane parks on the tag; the crew arrives exactly when its last live lane has parked,
and at EXPECT arrivals of the set's dies the round ends, at the last arrival in the model (log entry 35): ROUND rises and ARRIVED is zero
on each. In a handler it is 0x002 whatever the guard
holds, of a crew not bound 0x20C; with no lane executing it only goes on (R400, R415). -/
def Sys2Proof.Claims.WaitbTagParksAndArrives : Prop :=
  ∀ (f : F64R) (s : State), Issuing s →
    let i := Instr.waitbTag64 f
    let n := f.d.toNat % 8
    let die := waveDie s.cur
    let peer := die ^^^ 1
    let g := getTag s die n
    let both : Prop := g.pkg = true ∧ g.owner.isSome = true
    let arrived := g.arrived + 1 + (if g.pkg && g.owner.isSome then (getTag s peer n).arrived else 0)
    let s1 : State := { s with wave := parkPath s.wave (.tag n) }
    let all : Prop := crewParked s1 s.wave.crew n = true ∧ crewParked s s.wave.crew n = false
    (inTrap s.wave = true → ∃ t, exec i s = .next t ∧ Raised s t 0x002 (activeLanes s.wave (curPath s.wave))) ∧
    (inTrap s.wave = false → execLanes s f.g = 0 → ∃ t, exec i s = .next t ∧ Retired i s s t) ∧
    (inTrap s.wave = false → execLanes s f.g ≠ 0 → (getCrew s s.wave.crew).bound.testBit n = false →
      ∃ t, exec i s = .next t ∧ Raised s t 0x20C (execLanes s f.g)) ∧
    (inTrap s.wave = false → execLanes s f.g ≠ 0 → (getCrew s s.wave.crew).bound.testBit n = true →
      (¬ all → ∃ t, exec i s = .next t ∧ Retired i s s1 t) ∧
      (all → g.expect = 0 ∨ arrived < g.expect → ∃ v t, exec i s = .next t ∧ Retired i s v t ∧ { v with tags := s1.tags } = s1 ∧
        getTag v die n = { g with arrived := g.arrived + 1 } ∧ ∀ d m, m < 8 → (d ≠ die ∨ m ≠ n) → getTag v d m = getTag s d m) ∧
      (all → 0 < g.expect → g.expect ≤ arrived → g.owner.isSome = true → ∃ v t, exec i s = .next t ∧ Retired i s v t ∧
        getTag v die n = Claims.tagEnded g ∧
        (both → (getTag s peer n).owner.isSome = true → getTag v peer n = Claims.tagEnded (getTag s peer n))))

/-- GROW and SHRINK complete (`grow32`, `grow64`, `shrink32`, `shrink64`). A GROW beyond 32 granules, or 24 in a compute wave with a
shadow, and a SHRINK below one are 0x009; neither moves the allocation the other way. Where no other request stands, a GROW that fits is
granted at once, and one that does not fit leaves its request and holds its path. A SHRINK takes the registers above away, operations in
flight write none of them, and the allocator's pass of the cycle follows. With no lane executing both only go on (R157, R158, R162). That
a relative SHRINK whose count is above the allocation meets the limit below one, too, is the model's coding (log entry 34). -/
def Obligations.GrowAndShrinkComplete : Prop :=
  (∀ (i : Instr) (s : State) (g : BitVec 5) (t : Nat), Claims.growRow i s.wave = some (g, t) →
    let ex := execLanes s g
    let core := waveCore s.cur
    let limit := if s.wave.partner.isSome = true ∧ s.wave.shadow = false then 24 else 32
    (ex = 0 → Due s → ∃ u, exec i s = .next u ∧ Retired i s s u) ∧
    (ex ≠ 0 → Issuing s → limit < t → ∃ u, exec i s = .next u ∧ Raised s u 0x009 ex) ∧
    (ex ≠ 0 → Due s → t ≤ limit → ∃ u, exec i s = .next u) ∧
    (ex ≠ 0 → Due s → t ≤ limit → t ≤ s.wave.gran → ∃ u, exec i s = .next u ∧ Retired i s s u) ∧
    (ex ≠ 0 → Issuing s → t ≤ limit → s.wave.gran < t → asks s core = [] → (getCrew s s.wave.crew).spilled = false → (∀ k ∈ s.wave.conts, k.cond ≠ .grow) →
      (t - s.wave.gran ≤ granFree s core → ∃ v u, exec i s = .next u ∧ Retired i s v u ∧
        { v with cores := [] } = { s with cores := [], wave := { s.wave with gran := t } } ∧
        ∀ j, Claims.eraseLimits (getCore v j) = Claims.eraseLimits (getCore s j)) ∧
      (granFree s core < t - s.wave.gran → ∃ r v u, exec i s = .next u ∧ HeldAt v u .grow none ∧
        { v with cores := [] } = { s with cores := [] } ∧ r.w = s.cur ∧ r.n = t - s.wave.gran ∧ r.path = (if s.wave.turnB then 1 else 0) ∧
        (getCore v core).grow = (getCore s core).grow ++ [r]))) ∧
  (∀ (i : Instr) (s : State) (g : BitVec 5) (t : Int), Claims.shrinkRow i s.wave = some (g, t) →
    let ex := execLanes s g
    let core := waveCore s.cur
    (ex = 0 → Due s → ∃ u, exec i s = .next u ∧ Retired i s s u) ∧
    (ex ≠ 0 → Issuing s → t < 1 → ∃ u, exec i s = .next u ∧ Raised s u 0x009 ex) ∧
    (ex ≠ 0 → Due s → 1 ≤ t → s.wave.gran ≤ t → ∃ u, exec i s = .next u ∧ Retired i s s u) ∧
    (ex ≠ 0 → Due s → 1 ≤ t → t < s.wave.gran → smWf 0 s.wave.v = true → ∃ v z u, exec i s = .next u ∧ Retired i s z u ∧
      { v with ops := [], cores := [], wave := { v.wave with gran := 0, v := [], poison := [] } } =
        { s with ops := [], cores := [], wave := { s.wave with gran := 0, v := [], poison := [] } } ∧
      (v.wave.gran : Int) = t ∧ (∀ r l, l < 32 → vGet v.wave r l = if (r : Int) < 8 * t then vGet s.wave r l else 0) ∧
      v.ops = s.ops.map (fun o => { o with vlimit := if o.w = s.cur then min o.vlimit (8 * v.wave.gran) else o.vlimit }) ∧
      (∀ j, Claims.eraseLimits (getCore v j) = Claims.eraseLimits (getCore s j)) ∧
      (s.wave.turnB = true ∨ s.wave.pathB.on = false → z = allocPass v core) ∧
      (s.wave.turnB = false → s.wave.pathB.on = true → { z with cores := v.cores } = v)))

namespace Sys2Proof.Claims

/-! ### Records, convergence registers, tile operations and engine commands at issue (R266 to R295, R298, R313 to R316) -/

/-- The instruction may run on its crew's units: it is no shadow's, and its registers lie below the crew's counts (R115, R266). -/
def unitsOk (s : State) (tiles cvs obs : List Nat) : Prop :=
  let c := getCrew s s.wave.crew
  (∀ n ∈ tiles, n < c.tiles.length) ∧ (∀ n ∈ cvs, n < c.cvs.length) ∧ ∀ n ∈ obs, n < c.obs.length

/-- An `ob` and a `cv` register of the wave's crew. -/
def obOf (s : State) (n : Nat) : ObRec := getOb (getCrew s s.wave.crew) n
def cvOf (s : State) (n : Nat) : CvReg := getCv (getCrew s s.wave.crew) n

/-- `v` is `s` with `ob` (or `cv`) register `n` of the wave's crew changed to `r`. -/
def ObOnly (s v : State) (n : Nat) (r : ObRec) : Prop :=
  { v with crews := [] } = { s with crews := [] } ∧ (∀ c, { getCrew v c with ob := [] } = { getCrew s c with ob := [] }) ∧
  ∀ c m, getOb (getCrew v c) m = if c = s.wave.crew ∧ m = n then r else getOb (getCrew s c) m
def CvOnly (s v : State) (n : Nat) (r : CvReg) : Prop :=
  { v with crews := [] } = { s with crews := [] } ∧ (∀ c, { getCrew v c with cv := [] } = { getCrew s c with cv := [] }) ∧
  ∀ c m, getCv (getCrew v c) m = if c = s.wave.crew ∧ m = n then r else getCv (getCrew s c) m

/-- The words of an RSV after its markers, as a record; no reserved bit is set, and its features are enabled (R270, R271). -/
def rsvRec (s : State) (f : F64P) : ObRec :=
  { set := true, w0 := param s.wave f.w0, w1 := param s.wave f.w1, w2 := param s.wave f.w2, w3 := param s.wave f.w3 }
def rsvWords (s : State) (r : ObRec) : Prop :=
  r.w0.toNat < 2 ^ 31 ∧ r.w1.toNat < 2 ^ 16 ∧ r.w1.getLsbD 10 = false ∧ r.w2.toNat < 2 ^ 19 ∧ r.w3.toNat < 2 ^ 19 ∧
  (recState r = true → recFmt r = 0 ∧ recObn r = 0 ∧ r.w1.toNat / 2 ^ 11 % 16 = 0 ∧ r.w2 = 0 ∧ r.w3 = 0) ∧
  (recSparse r = true → hasFeature s s.wave.vif 3 = true) ∧ (recFmt r = 7 → hasFeature s s.wave.vif 4 = true)

/-- The checks of an instruction, each with its cause, in groups that are judged one after another; of the checks of a group that hold, the
lowest cause stands. `Clear`: none holds. -/
abbrev Checks := List (List (Bool × Nat))
def Clear (l : Checks) : Prop := ∀ g ∈ l, ∀ e ∈ g, e.1 = false
def Meets : Checks → Nat → Prop
  | [], _ => False
  | g :: rest, c => ((∃ e ∈ g, e.1 = true ∧ e.2 = c) ∧ ∀ e ∈ g, e.1 = true → c ≤ e.2) ∨ ((∀ e ∈ g, e.1 = false) ∧ Meets rest c)

/-- The crew's allocation of units, as checks (R115, R266): 0x287 a tile or a convergence register beyond it, 0x289 an `ob` register. -/
def unitChecks (s : State) (tiles cvs obs : List Nat) : Checks :=
  let c := getCrew s s.wave.crew
  [[(tiles.any (fun n => decide (c.tiles.length ≤ n)), 0x287), (cvs.any (fun n => decide (c.cvs.length ≤ n)), 0x287),
    (obs.any (fun n => decide (c.obs.length ≤ n)), 0x289)]]

/-- A tile operation at issue: guard, registers it names, the instruction with its parameter words as used, what it holds, the `ob`
registers whose records it takes as A, B and C, that no reserved bit of its words is set, and its other checks; whether it may still fault
and so takes a replay entry, and the slot that it counts into. -/
structure TileRow where
  g : BitVec 5
  vregs : Nat := 0
  tiles : List Nat := []
  obs : List Nat := []
  instr : Instr
  tile : Nat := 0
  a : Option Nat := none
  b : Option Nat := none
  c : Option Nat := none
  operands : List Nat := []
  form : Prop := True
  checks : Checks
  entry : Bool := false
  bv : Bool := false
  slot : Nat := 0

/-- Records that must be set, before every other check of them (R279): 0x289. -/
def setChecks (l : List ObRec) : List (Bool × Nat) := [(l.any (fun r => !r.set), 0x289)]

/-- A pair of records fits an FN of formats (R279): 0x281. -/
def pairChecks (a b : ObRec) (fn : Nat) : List (Bool × Nat) :=
  [(!(recState a == false && recState b == false && recRoleB a == false && recRoleB b == true && recFmt a == fn / 8 && recFmt b == fn % 8 &&
      recLen a == recLen b && recSparse b == false), 0x281)]

/-- A bench object that a command counts into: a slot outside the bench, every tracker taken (R387). -/
def slotMeets (s : State) (bv : Bool) (slot c : Nat) : Bool := slotCause s (getCrew s s.wave.crew) bv slot == some c

def tileRow (i : Instr) (s : State) : Option TileRow :=
  let c := getCrew s s.wave.crew
  match i with
  | .mbyp64 f =>
    let r := obOf s (f.a.toNat % 32)
    some { g := f.g, tiles := [f.d.toNat % 32], obs := [f.a.toNat % 32], instr := i, tile := f.d.toNat % 32, a := some (f.a.toNat % 32)
           entry := true
           checks := [setChecks [r], [(recState r || recRoleB r || recSparse r || recLen r != 3 ||
             decide (¬ if tileInt c (f.d.toNat % 32) = true then 4 ≤ recFmt r ∧ recFmt r ≤ 6 else recFmt r < 4), 0x281)]] }
  | .rstat64 f =>
    some { g := f.g, vregs := if f.fn.getLsbD 0 then 0 else f.d.toNat + 6, tiles := [f.a.toNat % 32], instr := i, tile := f.a.toNat % 32
           operands := [f.d.toNat, 0, 0, 0], checks := [] }
  | .mdrain64 f =>
    let g := withParams s.wave f
    let d := drainOf g
    let addr := if d.dst = 0 then sGet s.wave f.r.a.toNat else if d.dst = 1 then sPair64 s.wave f.r.a.toNat else 0
    some { g := f.r.g, tiles := [f.r.d.toNat % 32], instr := .mdrain64 g, tile := f.r.d.toNat % 32, operands := [f.r.d.toNat % 32, addr, 0, 0]
           entry := true, bv := d.bv, slot := d.slot
           form := g.w0.toNat < 2 ^ 20 ∧ g.w1.toNat < 2 ^ 30 ∧ g.w1.toNat / 2 ^ 22 % 4 = 0 ∧ g.w1.toNat / 2 ^ 14 % 4 = 0 ∧ g.w1.toNat / 2 ^ 6 % 4 = 0 ∧
             g.w2.toNat < 2 ^ 31 ∧ (d.dst ≠ 2 → g.w2 = 0) ∧ g.w3.toNat < 2 ^ 12 ∧ g.w3.getLsbD 7 = false ∧ ¬ (drainInt d.ofmt = true ∧ d.rnd ≠ 0)
           checks := [[
             (decide (¬ (d.row0 + d.nrows ≤ 64 ∧ d.col0 + d.ncols ≤ 64 ∧ d.ncols * fmtBytes d.ofmt ≤ d.stride ∧ d.stride % max 1 (fmtBytes d.ofmt) = 0 ∧
               (drainFp d.ofmt = true ∨ drainInt d.ofmt = true) ∧ (d.dst = 2 → (d.ofmt = 1 ∨ d.ofmt = 3) ∧ d.bv = false))), 0x287),
             (d.dst == 0 && decide (c.benchSize < addr + drainSpan d), 0x101), (slotMeets s d.bv d.slot 0x101, 0x101),
             (slotMeets s d.bv d.slot 0x207, 0x207),
             (d.dst == 1 && !(canonical addr && canonical ((addr + drainSpan d - 1) % 2 ^ 64)), 0x104)]] }
  | .lstream64 f =>
    let g := withParams s.wave f
    let q := lsRecOf g
    let h := f.r.a.toNat % 32
    let v := f.r.b.toNat % 32
    let st := f.r.c.toNat % 32
    some { g := f.r.g, tiles := [f.r.d.toNat % 32], obs := [h, v, st], instr := .lstream64 g, tile := f.r.d.toNat % 32, a := some h, b := some v
           c := some st, operands := [f.r.d.toNat % 32, h, v, st], entry := true
           form := g.w0.toNat < 2 ^ 31 ∧ g.w1.toNat < 2 ^ 26 ∧ g.w3.toNat < 2 ^ 31
           checks := [setChecks [obOf s h, obOf s v, obOf s st], pairChecks (obOf s h) (obOf s v) f.r.fn.toNat, [(!recState (obOf s st), 0x281)],
             [(lsRange c q (obOf s v), 0x287), (!q.init && !lsAgrees (readLs s c (obOf s st)) q, 0x28B)]] }
  | .lsmerge64 f =>
    let d := f.d.toNat % 32
    let a := f.a.toNat % 32
    some { g := f.g, obs := [d, a], instr := i, a := some a, c := some d, operands := [d, a, 0, 0], entry := true
           checks := [setChecks [obOf s d, obOf s a], [(!recState (obOf s d) || !recState (obOf s a), 0x281),
             (!lsMergeable (readLs s c (obOf s d)) (readLs s c (obOf s a)), 0x28B)]] }
  | .lsgrad64 f =>
    let g := withParams s.wave f
    let h := f.r.a.toNat % 32
    let v := f.r.b.toNat % 32
    let st := f.r.c.toNat % 32
    some { g := f.r.g, tiles := [f.r.d.toNat % 32], obs := [h, v, st], instr := .lsgrad64 g, tile := f.r.d.toNat % 32, a := some h, b := some v
           c := some st, operands := [f.r.d.toNat % 32, h, v, st]
           form := g.w0.toNat < 2 ^ 31 ∧ g.w1.toNat < 2 ^ 14 ∧ g.w1.toNat % 256 = 0
           checks := [setChecks [obOf s h, obOf s v, obOf s st], pairChecks (obOf s h) (obOf s v) f.r.fn.toNat, [(!recState (obOf s st), 0x281)],
             [(decide (64 < g.w0.toNat / 2 ^ 24) || !posNormal g.w3.toNat, 0x287), ((readLs s c (obOf s st)).l != g.w2.toNat, 0x28B)]] }
  | _ => none

/-- What a tile operation holds as it leaves the wave. -/
def TileHolds (s : State) (o : TileOp) (i : Instr) (g : BitVec 5) (tile : Nat) (a b c : Option Nat) (operands : List Nat) : Prop :=
  let rec' (n : Option Nat) : ObRec := match n with | some k => obOf s k | none => {}
  o.w = s.cur ∧ o.crew = s.wave.crew ∧ o.instr = i ∧ o.pc = (curPath s.wave).pc ∧ o.lanes = execLanes s g ∧ o.tile = tile ∧
  o.ra = rec' a ∧ o.rb = rec' b ∧ o.rc = rec' c ∧ o.operands = operands ∧ o.seq = s.nextId

/-- TILE has risen by one and the numbers of operations have gone on; the rest is the same but for crews, cores and objects' units. -/
def TileCounted (s v : State) : Prop :=
  { v with crews := [], cores := [], bars := [], wave := { v.wave with tile := 0 }, nextId := 0 } =
    { s with crews := [], cores := [], bars := [], wave := { s.wave with tile := 0 }, nextId := 0 } ∧ v.wave.tile = s.wave.tile + 1

/-- `o` is the newest entry of the core's matrix engine; the rest of every core is the same. -/
def EngineTakes (s v : State) (o : TileOp) : Prop :=
  (getCore v (waveCore s.cur)).engine = (getCore s (waveCore s.cur)).engine ++ [o] ∧
  (∀ j, { getCore v j with engine := [] } = { getCore s j with engine := [] }) ∧ ∀ j, j ≠ waveCore s.cur → getCore v j = getCore s j

/-- The counting unit of the object that a command counts into has begun to wait for it; every other is the same. -/
def SlotBegun (s v : State) (bv : Bool) (slot : Nat) : Prop :=
  let c := getCrew s s.wave.crew
  ∀ j, getBar v j = if bv = true ∧ j = benchObj c.core (c.benchBase + 32 * slot) then { getBar s j with tracked := true, work := (getBar s j).work + 1 } else getBar s j

/-- An engine command at issue: guard, its instruction with the words as used, its operands, its object, that no reserved bit of its
words is set, and its other checks. -/
structure CmdRow where
  g : BitVec 5
  p : F64P
  instr : Instr
  vals : Nat × Nat × Nat × Nat
  bv : Bool
  slot : Nat
  obs : List Nat := []
  form : Prop
  checks : Checks

/-- CPY and PLANE, with their copy record (R311, R313, R314). -/
def copyRow (i : Instr) (s : State) : Option (CmdRow × Nat) :=
  let x := s.wave
  let c := getCrew s x.crew
  let base (sp a : Nat) : Bool := (sp != 0 || canonical a) && (sp != 3 || canonical (xTarget a).2)
  match i with
  | .cpy64 f =>
    let g := withParams x f
    let q := copyOf g.w0 g.w1 g.w2 g.w3
    let a := if q.sp = 2 then sGet x f.r.a.toNat else sPair64 x f.r.a.toNat
    let b := sGet x f.r.b.toNat
    some ({ g := f.r.g, p := g, instr := .cpy64 g, vals := (0, a, b, 0), bv := q.bv, slot := q.slot
            form := g.w0.toNat < 2 ^ 31 ∧ g.w0.toNat / 2 ^ 20 % 2 ^ 8 = 0 ∧ g.w1.toNat < 2 ^ 31 ∧ g.w2.toNat < 2 ^ 31 ∧ g.w2.toNat % 2 ^ 20 = 0 ∧
              g.w3.toNat < 2 ^ 31 ∧ g.w3.toNat / 2 ^ 27 % 8 = 0 ∧ g.w3.getLsbD 7 = false ∧ q.sp ∈ [0, 2, 3] ∧ (q.sp ≠ 2 → f.r.a.toNat % 2 = 0)
            checks := [[(decide (c.benchSize < b + q.nrows * q.rowBytes), 0x101), (q.wm && decide (c.benchSize < q.waddr + 8), 0x101),
              (slotMeets s q.bv q.slot 0x101, 0x101), (!base q.sp a, 0x104), (slotMeets s q.bv q.slot 0x207, 0x207),
              (q.rowBytes == 0 || decide (524288 < q.rowBytes) || (q.wm && q.waddr % 8 != 0), 0x208)]] }, f.r.fn.toNat % 8)
  | .plane64 f =>
    let g := withParams x f
    let q := copyOf g.w0 g.w1 g.w2 g.w3
    let one : Prop := q.sp = 1 ∨ q.sp = 2
    let a := if q.sp = 1 ∨ q.sp = 2 then sGet x f.r.a.toNat else sPair64 x f.r.a.toNat
    let n := f.r.d.toNat % 32
    let r := obOf s n
    let row := rowBytesOf (recFmt r) (planeCols r)
    some ({ g := f.r.g, p := g, instr := .plane64 g, vals := (n, a, 0, 0), bv := q.bv, slot := q.slot, obs := [n]
            form := g.w0.toNat < 2 ^ 31 ∧ g.w0.toNat % 2 ^ 28 = 0 ∧ g.w1.toNat < 2 ^ 31 ∧ g.w2 = 0 ∧ g.w3.toNat < 2 ^ 31 ∧
              g.w3.toNat / 2 ^ 27 % 8 = 0 ∧ g.w3.getLsbD 7 = false ∧ q.sp ≤ 3 ∧ (¬ one → f.r.a.toNat % 2 = 0)
            checks := [[(q.sp == 1 && decide (c.benchSize < a + (planeRows r - 1) * q.gstride + row), 0x101),
              (q.wm && decide (c.benchSize < q.waddr + 8), 0x101), (slotMeets s q.bv q.slot 0x101, 0x101), (!base q.sp a, 0x104),
              (slotMeets s q.bv q.slot 0x207, 0x207), ((q.wm && q.waddr % 8 != 0) || decide (q.gstride < row), 0x208)],
              setChecks [r], [(recState r, 0x281)]] }, f.r.fn.toNat % 8)
  | _ => none

/-- GATHER and POOL, with their record (R315, R316). -/
def gatherRow (i : Instr) (s : State) : Option CmdRow :=
  let x := s.wave
  let c := getCrew s x.crew
  let row (pool : Bool) (mk : F64P → Instr) (f : F64P) : CmdRow :=
    let g := withParams x f
    let q := gatherOf pool g.w0 g.w1 g.w2 g.w3
    let a := sPair64 x f.r.a.toNat
    let b := sGet x f.r.b.toNat
    let d := if q.dsp then sPair64 x f.r.c.toNat else sGet x f.r.c.toNat
    { g := f.r.g, p := g, instr := mk g, vals := (sPair64 x f.r.d.toNat, a, b, d), bv := q.bv, slot := q.slot
      form := g.w0.toNat < 2 ^ 31 ∧ g.w0.toNat / 2 ^ 12 % 2 ^ 15 = 0 ∧ g.w1.toNat < 2 ^ 31 ∧ g.w2.toNat < 2 ^ 31 ∧ g.w3.toNat < 2 ^ 31 ∧
        g.w3.toNat / 2 ^ 9 % 2 ^ 21 = 0 ∧ g.w3.getLsbD 7 = false ∧ q.efmt ≤ 5 ∧ (pool = true → q.efmt ≠ 5 ∧ q.nbag ≠ 0) ∧ (pool = false → q.nbag = 0) ∧
        (q.dsp = true → f.r.c.toNat % 2 = 0)
      checks := [[(decide (c.benchSize < b + listBytes q), 0x101), (!q.dsp && decide (c.benchSize < d + outBytes q), 0x101),
        (slotMeets s q.bv q.slot 0x101, 0x101), (q.tsp == 0 && !canonical a, 0x104), (q.tsp == 3 && !canonical (xTarget a).2, 0x104),
        (q.dsp && !canonical d, 0x104), (slotMeets s q.bv q.slot 0x207, 0x207), (q.tstride % gatherSize q.efmt != 0, 0x208)]] }
  match i with
  | .gather64 f => some (row false .gather64 f)
  | .pool64 f => some (row true .pool64 f)
  | _ => none

/-- What a command holds as it leaves the wave. -/
def CmdHolds (s : State) (k : Command) (r : CmdRow) : Prop :=
  k.id = s.nextId ∧ k.w = s.cur ∧ k.crew = s.wave.crew ∧ k.lanes = execLanes s r.g ∧ k.instr = r.instr ∧
  k.w0 = r.p.w0 ∧ k.w1 = r.p.w1 ∧ k.w2 = r.p.w2 ∧ k.w3 = r.p.w3 ∧ (k.vd, k.va, k.vb, k.vc) = r.vals ∧ k.started = false ∧ k.delivered = 0

/-- The thread of lane `l`, and the declared threads of a convergence register. -/
def threadOf (s : State) (l : Nat) : Nat := 32 * s.wave.idx + l
def declared (v : CvReg) (t : Nat) : Prop := v.first ≤ t ∧ t < v.first + v.count

end Sys2Proof.Claims

/-- RSV sets a record to its words and the lowest free run of operand-buffer units of the count it asks for; RLS frees one, whose words stay
(R270); CVDECL declares
threads B to B + C - 1 of a register, in round zero with no credit (`rsv64`, `rls64`, `cvdecl64`). Nothing else changes, and with no lane
executing nothing at all. A shadow's is 0x002; a record out of range is 0x287, one with no free run of units 0x288 (R266, R271, R272, R275). -/
def Sys2Proof.Claims.MatrixDeclarationsComplete : Prop :=
  (∀ (i : Instr) (s : State) (g : BitVec 5), (∃ f, i = .rsv64 f ∧ g = f.r.g ∧ Claims.rsvWords s (Claims.rsvRec s f)) ∨ (∃ f, i = .rls64 f ∧ g = f.g) ∨
    (∃ f, i = .cvdecl64 f ∧ g = f.g) → s.wave.shadow = false → Due s → execLanes s g = 0 → ∃ t, exec i s = .next t ∧ Retired i s s t) ∧
  (∀ (i : Instr) (s : State) (g : BitVec 5), (∃ f, i = .rsv64 f ∧ g = f.r.g) ∨ (∃ f, i = .rls64 f ∧ g = f.g) ∨ (∃ f, i = .cvdecl64 f ∧ g = f.g) →
    s.wave.shadow = true → Issuing s → ∃ t, exec i s = .next t ∧ Raised s t 0x002 (activeLanes s.wave (curPath s.wave))) ∧
  (∀ (f : F64P) (s : State), Due s → execLanes s f.r.g ≠ 0 → s.wave.shadow = false →
    let n := f.r.d.toNat % 32
    let r := Claims.rsvRec s f
    let run := freeRun (usedUnits s (waveCore s.cur) s.wave.crew n) (recObn r)
    let far := recRange r (getCrew s s.wave.crew).benchSize
    Claims.rsvWords s r → Claims.unitsOk s [] [] [n] →
    (far = true → Issuing s → ∃ t, exec (.rsv64 f) s = .next t ∧ Raised s t 0x287 (execLanes s f.r.g)) ∧
    (far = false → run = none → Issuing s → ∃ t, exec (.rsv64 f) s = .next t ∧ Raised s t 0x288 (execLanes s f.r.g)) ∧
    ∀ u, far = false → run = some u →
      ∃ v t, exec (.rsv64 f) s = .next t ∧ Retired (.rsv64 f) s v t ∧ Claims.ObOnly s v n { r with unit := u }) ∧
  (∀ (f : F64R) (s : State), Due s → execLanes s f.g ≠ 0 → s.wave.shadow = false → Claims.unitsOk s [] [] [f.d.toNat % 32] →
    ∃ v t, exec (.rls64 f) s = .next t ∧ Retired (.rls64 f) s v t ∧ Claims.ObOnly s v (f.d.toNat % 32) { Claims.obOf s (f.d.toNat % 32) with set := false, unit := 0 }) ∧
  (∀ (f : F64R) (s : State), execLanes s f.g ≠ 0 → s.wave.shadow = false → Claims.unitsOk s [] [f.d.toNat % 32] [] →
    let k := f.d.toNat % 32
    let b := sOrImm s.wave f.cb f.b
    let n := sOrImm s.wave f.cc f.c
    let free : Prop := (Claims.cvOf s k).signed = 0 ∧ (Claims.cvOf s k).arm = []
    (Due s → 0 < n → b + n ≤ (getCrew s s.wave.crew).threads → free → ∃ v t, exec (.cvdecl64 f) s = .next t ∧ Retired (.cvdecl64 f) s v t ∧
      Claims.CvOnly s v k { first := b, count := n }) ∧
    (Issuing s → (n = 0 ∨ (getCrew s s.wave.crew).threads < b + n ∨ ¬ free) → ∃ t, exec (.cvdecl64 f) s = .next t ∧ Raised s t 0x28C (execLanes s f.g)))

/-- SIGN, in both sizes (`sign32`, `sign64`), adds its lanes' threads to the signatures of its register. When every declared thread has
signed, the round closes: ROUND rises and the signatures empty; what is armed enters the matrix engine in order, or, with nothing armed,
CREDIT rises, 0x286 at 15. A lane whose thread is not declared is 0x284, one that has signed 0x282, all of an undeclared register 0x28C;
with no lane executing it only goes on (R276, R277). -/
def Sys2Proof.Claims.SignClosesRounds : Prop :=
  ∀ (i : Instr) (g : BitVec 5) (k : Nat) (s : State),
    (∃ f, i = .sign32 f ∧ g = f.g ∧ k = f.d.toNat % 32) ∨ (∃ f, i = .sign64 f ∧ g = f.g ∧ k = f.d.toNat % 32) →
    s.wave.shadow = false → (execLanes s g = 0 → Due s → ∃ t, exec i s = .next t ∧ Retired i s s t) ∧ (
    execLanes s g ≠ 0 → Claims.unitsOk s [] [k] [] → s.wave.idx < 32 →
    let c := Claims.cvOf s k
    let ex := execLanes s g
    let fresh : Prop := ∀ l, ex.getLsbD l = true → Claims.declared c (Claims.threadOf s l) ∧ c.signed.getLsbD (Claims.threadOf s l) = false
    let after (t : Nat) : Prop := c.signed.getLsbD t = true ∨ ∃ l, ex.getLsbD l = true ∧ Claims.threadOf s l = t
    let closes : Prop := ∀ t < 1024, after t ↔ Claims.declared c t
    (Issuing s → c.count = 0 → ∃ t, exec i s = .next t ∧ Raised s t 0x28C ex) ∧
    (Issuing s → c.count ≠ 0 → ¬ fresh → ∃ e m t, exec i s = .next t ∧ Raised s t e m ∧ m ≠ 0 ∧ m &&& ex = m ∧ (e = 0x282 ∨ e = 0x284) ∧
      (e = 0x284 → ∀ l < 32, m.getLsbD l = true → ¬ Claims.declared c (Claims.threadOf s l)) ∧
      (e = 0x282 → ∀ l < 32, m.getLsbD l = true → c.signed.getLsbD (Claims.threadOf s l) = true)) ∧
    (Due s → c.count ≠ 0 → fresh → ¬ closes → ∃ v t, exec i s = .next t ∧ Retired i s v t ∧ ∃ r, Claims.CvOnly s v k r ∧
      { r with signed := c.signed } = c ∧ ∀ t < 1024, (r.signed.getLsbD t = true ↔ after t)) ∧
    (Due s → c.count ≠ 0 → fresh → closes → c.arm = [] → c.credit < 15 → ∃ v t, exec i s = .next t ∧ Retired i s v t ∧
      Claims.CvOnly s v k { c with round := (c.round + 1) % 65536, signed := 0, credit := c.credit + 1 }) ∧
    (Issuing s → c.count ≠ 0 → fresh → closes → c.arm = [] → c.credit = 15 → ∃ v t, exec i s = .next t ∧ Raised v t 0x286 ex ∧
      Claims.CvOnly s v k { c with round := (c.round + 1) % 65536, signed := 0 }) ∧
    (Due s → c.count ≠ 0 → fresh → closes → c.arm ≠ [] → ∃ v t, exec i s = .next t ∧ Retired i s v t ∧
      Claims.CvOnly { s with cores := [] } { v with cores := [] } k { c with round := (c.round + 1) % 65536, signed := 0, arm := [] } ∧
      (getCore v (waveCore s.cur)).engine = (getCore s (waveCore s.cur)).engine ++ c.arm ∧
      (∀ j, { getCore v j with engine := [] } = { getCore s j with engine := [] }) ∧ ∀ j, j ≠ waveCore s.cur → getCore v j = getCore s j))

/-- MMA, its checks passed, counts in TILE and arms on its convergence register, or uses up a credit of it and enters the matrix engine.
MBYP, RSTAT, MDRAIN, LSTREAM, LSMERGE and LSGRAD enter the engine at once. Each holds its tile, its records and its operands as they were at
issue; no tile, record or byte changes yet. These are `mma64`, `mbyp64`, `rstat64`, `mdrain64`, `lstream64`, `lsmerge64` and `lsgrad64`;
with no lane executing they only go on, and one that may still fault holds while the wave has no free replay entry. A check that holds makes
the instruction fault precisely with its cause, for the lanes that execute it: 0x287 a unit beyond the allocation or a field out of range,
0x289 a record that is not set, 0x281 records that do not fit, 0x285 a register with eight operations armed, 0x28C one not declared, 0x28B
logit states that do not agree, and 0x101, 0x104 and 0x207 of a drain's window and slot. A shadow's is 0x002, as is a reserved bit of its
words, and a vector register beyond the allocation 0x008 (R128, R243, R266, R279 to R287, R292 to R295). The limits of NLAST, NTILES and
NVALID and the format check of MBYP's tile are the model's (log entries 36, 49 and 50), as is the rule when an operation takes a replay entry
(log entry 36). -/
def Obligations.TileOperationsIssue : Prop :=
  (∀ (f : F64R) (s : State), s.wave.shadow = false → execLanes s f.g = 0 → Due s →
    ∃ t, exec (.mma64 f) s = .next t ∧ Retired (.mma64 f) s s t) ∧
  (∀ (f : F64R) (s : State), execLanes s f.g ≠ 0 → s.wave.shadow = false →
    let k := f.c.toNat % 32
    let c := Claims.cvOf s k
    let a := f.a.toNat % 32
    let b := f.b.toNat % 32
    let checks : Claims.Checks := Claims.unitChecks s [f.d.toNat % 32] [k] [a, b] ++ [Claims.setChecks [Claims.obOf s a, Claims.obOf s b],
      Claims.pairChecks (Claims.obOf s a) (Claims.obOf s b) f.fn.toNat, [(decide (8 ≤ c.arm.length), 0x285), (c.count == 0, 0x28C)]]
    (∀ e, Claims.Meets checks e → Issuing s → ∃ t, exec (.mma64 f) s = .next t ∧ Raised s t e (execLanes s f.g)) ∧
    (Claims.Clear checks → Due s →
      let waits := recSparse (Claims.obOf s a) = true ∧ ¬ Claims.entryFree s
      (waits → ∃ t, exec (.mma64 f) s = .next t ∧ HeldAt s t .replay (some (slotOf s.wave s.wave.turnB))) ∧
      (¬ waits → ∃ o v t, exec (.mma64 f) s = .next t ∧ Retired (.mma64 f) s v t ∧ Claims.TileCounted s v ∧
        Claims.TileHolds s o (.mma64 f) f.g (f.d.toNat % 32) (some a) (some b) none [] ∧
        (∀ j, { getCrew v j with cv := [] } = { getCrew s j with cv := [] }) ∧ (∀ m, m ≠ k → Claims.cvOf v m = Claims.cvOf s m) ∧ v.bars = s.bars ∧
        (c.credit = 0 → Claims.cvOf v k = { c with arm := c.arm ++ [o] } ∧ ∀ j, getCore v j = getCore s j) ∧
        (c.credit ≠ 0 → Claims.cvOf v k = { c with credit := c.credit - 1 } ∧ Claims.EngineTakes s v o)))) ∧
  (∀ (f : F64R) (s : State), s.wave.shadow = true → Issuing s →
    ∃ t, exec (.mma64 f) s = .next t ∧ Raised s t 0x002 (activeLanes s.wave (curPath s.wave))) ∧
  (∀ (i : Instr) (s : State) (r : Claims.TileRow), Claims.tileRow i s = some r →
    let checks : Claims.Checks := Claims.unitChecks s r.tiles [] r.obs ++ r.checks
    (s.wave.shadow = true ∨ ¬ r.form → Issuing s → ∃ t, exec i s = .next t ∧ Raised s t 0x002 (activeLanes s.wave (curPath s.wave))) ∧
    (s.wave.shadow = false → r.form → 8 * s.wave.gran < r.vregs → Issuing s →
      ∃ t, exec i s = .next t ∧ Raised s t 0x008 (activeLanes s.wave (curPath s.wave))) ∧
    (s.wave.shadow = false → r.form → r.vregs ≤ 8 * s.wave.gran →
      (execLanes s r.g = 0 → Due s → ∃ t, exec i s = .next t ∧ Retired i s s t) ∧
      (∀ e, execLanes s r.g ≠ 0 → Claims.Meets checks e → Issuing s → ∃ t, exec i s = .next t ∧ Raised s t e (execLanes s r.g)) ∧
      (execLanes s r.g ≠ 0 → Claims.Clear checks → r.entry = true → ¬ Claims.entryFree s → Due s →
        ∃ t, exec i s = .next t ∧ HeldAt s t .replay (some (slotOf s.wave s.wave.turnB))) ∧
      (execLanes s r.g ≠ 0 → Claims.Clear checks → (r.entry = true → Claims.entryFree s) → Due s →
        ∃ o v t, exec i s = .next t ∧ Retired i s v t ∧ Claims.TileCounted s v ∧ Claims.EngineTakes s v o ∧
        Claims.TileHolds s o r.instr r.g r.tile r.a r.b r.c r.operands ∧ (∀ j, getCrew v j = getCrew s j) ∧
        Claims.SlotBegun s v r.bv r.slot)))

/-- CPY and PLANE, their checks passed, join the queue of their channel and count in CPY; GATHER and POOL join their cluster's engine,
count in ENG and take the wave's next sequence number. Each holds its words and operands as they were at issue, and the counting unit of
its object waits for it. A queue that is full, like a missing replay entry, holds the path at the instruction; with no lane executing
they only go on. A check that holds makes the instruction fault precisely with its cause, for the lanes that execute it: 0x101 bytes or a
slot outside the bench, 0x104 a base that is not canonical, 0x207 no tracker free, 0x208 a field out of range, and of PLANE's record 0x289
and 0x281; a reserved bit of the words is 0x002 whatever the guard holds. These are `cpy64`, `plane64`, `gather64` and `pool64` (R298, R313
to R316, R387). -/
def Obligations.EngineCommandsIssue : Prop :=
  (∀ (i : Instr) (s : State) (r : Claims.CmdRow) (ch : Nat), Claims.copyRow i s = some (r, ch) →
    let checks : Claims.Checks := Claims.unitChecks s [] [] r.obs ++ r.checks
    (¬ r.form → Issuing s → ∃ t, exec i s = .next t ∧ Raised s t 0x002 (activeLanes s.wave (curPath s.wave))) ∧
    (∀ e, r.form → execLanes s r.g ≠ 0 → Claims.Meets checks e → Issuing s → ∃ t, exec i s = .next t ∧ Raised s t e (execLanes s r.g)) ∧
    (r.form → execLanes s r.g = 0 → Due s → ∃ t, exec i s = .next t ∧ Retired i s s t) ∧
    (r.form → execLanes s r.g ≠ 0 → Claims.Clear checks → Due s →
    let hold (c : Cond) : Prop := ∃ t, exec i s = .next t ∧ HeldAt s t c (some (slotOf s.wave s.wave.turnB))
    let core := waveCore s.cur
    let q := smGet (getCore s core).chan [] ch
    (¬ Claims.entryFree s → hold .replay) ∧ (Claims.entryFree s → Config.channelDepth ≤ q.length → hold (.channel ch)) ∧
    (Claims.entryFree s → q.length < Config.channelDepth → ∃ k v t, exec i s = .next t ∧ Retired i s v t ∧ Claims.CmdHolds s k r ∧
      { v with crews := [], cores := [], bars := [], nextId := 0, wave := { v.wave with cpy := 0 } } =
        { s with crews := [], cores := [], bars := [], nextId := 0, wave := { s.wave with cpy := 0 } } ∧
      v.wave.cpy = s.wave.cpy + 1 ∧ Claims.SlotBegun s v r.bv r.slot ∧
      getCrew v s.wave.crew = { getCrew s s.wave.crew with chans := (getCrew s s.wave.crew).chans ||| 2 ^ ch } ∧
      (∀ j, j ≠ s.wave.crew → getCrew v j = getCrew s j) ∧
      (∀ c, smGet (getCore v core).chan [] c = if c = ch then q ++ [k] else smGet (getCore s core).chan [] c) ∧
      (∀ j, { getCore v j with chan := [] } = { getCore s j with chan := [] })))) ∧
  (∀ (i : Instr) (s : State) (r : Claims.CmdRow), Claims.gatherRow i s = some r →
    (¬ r.form → Issuing s → ∃ t, exec i s = .next t ∧ Raised s t 0x002 (activeLanes s.wave (curPath s.wave))) ∧
    (∀ e, r.form → execLanes s r.g ≠ 0 → Claims.Meets r.checks e → Issuing s → ∃ t, exec i s = .next t ∧ Raised s t e (execLanes s r.g)) ∧
    (r.form → execLanes s r.g = 0 → Due s → ∃ t, exec i s = .next t ∧ Retired i s s t) ∧
    (r.form → execLanes s r.g ≠ 0 → Claims.Clear r.checks → Due s →
    let hold (c : Cond) : Prop := ∃ t, exec i s = .next t ∧ HeldAt s t c (some (slotOf s.wave s.wave.turnB))
    let cl := waveCore s.cur / 4
    let q := smGet s.gathers [] cl
    (¬ Claims.entryFree s → hold .replay) ∧ (Claims.entryFree s → Config.gatherDepth ≤ q.length → hold .gather) ∧
    (Claims.entryFree s → q.length < Config.gatherDepth → ∃ k v t, exec i s = .next t ∧ Retired i s v t ∧ Claims.CmdHolds s k r ∧ k.seq = s.wave.seqGather ∧
      { v with gathers := [], bars := [], nextId := 0, wave := { v.wave with eng := 0, seqGather := 0 } } =
        { s with gathers := [], bars := [], nextId := 0, wave := { s.wave with eng := 0, seqGather := 0 } } ∧
      v.wave.eng = s.wave.eng + 1 ∧ v.wave.seqGather = (s.wave.seqGather + 1) % 2 ^ 32 ∧ Claims.SlotBegun s v r.bv r.slot ∧
      ∀ c, smGet v.gathers [] c = if c = cl then q ++ [k] else smGet s.gathers [] c)))

namespace Sys2Proof.Claims

/-! ### Collective contexts, phase, tasks, records, and system operations (R318, R322 to R325, R331 to R335, R424, R425, R430, R431) -/

/-- The context that operand B names on the wave's die, that its interface is assigned. -/
def ctxNamed (s : State) (f : F64R) : Nat := 16 * waveDie s.cur + sOrImm s.wave f.cb f.b
def ctxMine (s : State) (f : F64R) : Prop :=
  sOrImm s.wave f.cb f.b ≤ 15 ∧ vifPkg s.wave.vif = waveDie s.cur / 2 ∧
  (partField s s.wave.vif 88 4).testBit (16 * (waveDie s.cur % 2) + sOrImm s.wave f.cb f.b) = true

/-- COLL.start, stop and status with their forms. -/
def collRow (i : Instr) : Option F64R :=
  match i with
  | .collStart64 f => some f
  | .collStop64 f => some f
  | .collStatus64 f => some f
  | _ => none

/-- The context as COLL.start makes it, before its descriptor is loaded. -/
def ctxBegins (s : State) (f : F64R) : State :=
  let n := ctxNamed s f
  { s with
    wave := { s.wave with eng := s.wave.eng + 1 }
    ctxs := smSet s.ctxs {} n { status := 2 ^ 30, vif := s.wave.vif, list := sPair64 s.wave f.a.toNat, w := s.cur, drain := (getCtx s n).drain, drainBad := (getCtx s n).drainBad } }

/-- Fields of a STATUS word (R338). -/
def statusState (x : Context) : Nat := x.status.toNat / 2 ^ 30
def statusCause (x : Context) : Nat := x.status.toNat / 2 ^ 20 % 2 ^ 10

/-- PHASE's guard and the value that it leaves: an addition, or `.set` to the operand; `PHASE #0` is no addition (R327). -/
def phaseRow (i : Instr) (s : State) : Option (BitVec 5 × Nat) :=
  let old := smGet s.phase 0 (waveDie s.cur)
  match i with
  | .phase32 f => if f.fn.toNat % 16 = 0 then none else some (f.g, (old + f.fn.toNat % 16) % 65536)
  | .phase64 f => some (f.g, if f.fn.getLsbD 0 then sOrImm s.wave f.cb f.b % 65536 else (old + sOrImm s.wave f.cb f.b) % 65536)
  | _ => none

/-- What an instruction asks of a system operation: its form, its kind, the size word, and whether it names an area. -/
def sysRow (i : Instr) (s : State) : Option (F64R × Nat × Nat × Bool) :=
  match i with
  | .vacate64 f => some (f, 0, sOrImm s.wave f.cb f.b, sOrImm s.wave f.cb f.b != 0)
  | .freeze64 f => some (f, 1, sGet s.wave f.b.toNat, true)
  | .thaw64 f => some (f, 2, 0, true)
  | _ => none

/-- The area passes the checks of issue: 64 KiB aligned, canonical, for a FREEZE not below the bound of R433. -/
def areaOk (s : State) (kind base size : Nat) : Prop :=
  base % 65536 = 0 ∧ canonical base = true ∧
  (kind = 1 → freezeBound s s.wave.vif ≤ size * 65536)

end Sys2Proof.Claims

/-- COLL.start, stop and status (`collStart64`, `collStop64`, `collStatus64`) name a context of the wave's die below 16 (0x002, whatever
the guard holds) that its interface is assigned (0x102). Status gives D the STATUS word. Stop leaves a context that does not run as it is, marks one whose word has
begun, and idles another. Start of a context that runs or is stopped is 0x302, of a misaligned list or descriptor 0x107, of one not
canonical 0x104; else ENG rises and the context runs at word 0, or has faulted with what loading its descriptor and table met. With no lane
executing they only go on (R331 to R335, R338). -/
def Sys2Proof.Claims.CollectiveInstructionsComplete : Prop :=
  (∀ (i : Instr) (f : F64R) (s : State), Claims.collRow i = some f →
    (Issuing s → 15 < sOrImm s.wave f.cb f.b → ∃ t, exec i s = .next t ∧ Raised s t 0x002 (activeLanes s.wave (curPath s.wave))) ∧
    (Due s → sOrImm s.wave f.cb f.b ≤ 15 → execLanes s f.g = 0 → ∃ t, exec i s = .next t ∧ Retired i s s t) ∧
    (Issuing s → sOrImm s.wave f.cb f.b ≤ 15 → execLanes s f.g ≠ 0 → ¬ Claims.ctxMine s f →
      ∃ t, exec i s = .next t ∧ Raised s t 0x102 (execLanes s f.g))) ∧
  (∀ (f : F64R) (s : State), Due s → execLanes s f.g ≠ 0 → Claims.ctxMine s f →
    ∃ t, exec (.collStatus64 f) s = .next t ∧
      Retired (.collStatus64 f) s { s with wave := sPut s.wave f.d.toNat (getCtx s (Claims.ctxNamed s f)).status.toNat } t) ∧
  (∀ (f : F64R) (s : State), Due s → execLanes s f.g ≠ 0 → Claims.ctxMine s f →
    let n := Claims.ctxNamed s f
    let x := getCtx s n
    ∃ v t, exec (.collStop64 f) s = .next t ∧ Retired (.collStop64 f) s v t ∧ (∀ m, m ≠ n → getCtx v m = getCtx s m) ∧
      (Claims.statusState x ≠ 1 → v = s) ∧
      (Claims.statusState x = 1 → x.begun = true → getCtx v n = { x with stopReq := true }) ∧
      (Claims.statusState x = 1 → x.begun = false → Claims.statusState (getCtx v n) = 0 ∧ (getCtx v n).status.toNat % 2 ^ 30 = x.status.toNat % 2 ^ 30)) ∧
  (∀ (f : F64R) (s : State), execLanes s f.g ≠ 0 → Claims.ctxMine s f →
    let n := Claims.ctxNamed s f
    let x := getCtx s n
    let a := sPair64 s.wave f.a.toNat
    let c := sPair64 s.wave f.c.toNat
    let u := Claims.ctxBegins s f
    let busy : Prop := Claims.statusState x = 1 ∨ Claims.statusState x = 3
    let raises (e : Nat) : Prop := Issuing s → ∃ t, exec (.collStart64 f) s = .next t ∧ Raised s t e (execLanes s f.g)
    ((a % 16 = 0 ∧ c % 64 = 0) → (canonical a = true ∧ canonical c = true) → busy → raises 0x302) ∧
    ((a % 16 ≠ 0 ∨ c % 64 ≠ 0) → (canonical a = true ∧ canonical c = true) → raises 0x107) ∧
    ((canonical a = false ∨ canonical c = false) → raises 0x104) ∧
    (Due s → ¬ busy → a % 16 = 0 → c % 64 = 0 → canonical a = true → canonical c = true →
      ∃ v t, exec (.collStart64 f) s = .next t ∧ Retired (.collStart64 f) s v t ∧ (getCtx v n).list = a ∧ (getCtx v n).w = s.cur ∧
        (∀ e, (readVirt u s.wave.vif (waveDie s.cur) c 64).2 = .error e → Claims.statusState (getCtx v n) = 2 ∧ Claims.statusCause (getCtx v n) = e % 2 ^ 10) ∧
        ∀ l, (readVirt u s.wave.vif (waveDie s.cur) c 64).2 = .ok l →
          let y : Context := { getCtx u n with desc := BitVec.ofNat 512 (bytesNat l) }
          ((descOk y = false ∨ hasFeature s s.wave.vif (if arrival y then 7 else 6) = false) →
            Claims.statusState (getCtx v n) = 2 ∧ Claims.statusCause (getCtx v n) = 0x303) ∧
          (descOk y = true → hasFeature s s.wave.vif (if arrival y then 7 else 6) = true →
            let u' := modCtx (readVirt u s.wave.vif (waveDie s.cur) c 64).1 n (fun _ => y)
            let table := readVirt u' s.wave.vif (waveDie s.cur) (descBytes y 8 8) (8 * nmem y)
            let faults (e : Nat) : Prop := Claims.statusState (getCtx v n) = 2 ∧ Claims.statusCause (getCtx v n) = e % 2 ^ 10
            (∀ e, table.2 = .error e → faults e) ∧
            ∀ b, table.2 = .ok b →
              let z : Context := { y with members := (List.range (nmem y)).map (fun r => BitVec.ofNat 64 (bytesAt (bytesNat b) (8 * r) 8)) }
              (∀ e, tableCause z n = some e → faults e) ∧ (tableCause z n = none → getCtx v n = z ∧ v.wave = u.wave))))

/-- PHASE changes its die's phase register alone (`phase32`, `phase64`); `PHASE #0` is 0x002 whatever the guard holds. TDONE (`tdone64`) of an
entry that is VALID reaches the entry's task unit as a completion behind those that have, with its lanes, and is 0x209 else. SPAWN (`spawn64`) of
registers beyond the allocation is 0x008 whatever the guard holds, of a node with no descriptor 0x20B; else each executing lane in turn appends
its record of SIZE registers, to the open batch of the node while one is; a store without room, or the freeze of a task unit, holds the path;
the lanes whose write faults append nothing and are faulted after issue. With no lane executing they only go on (R88, R318, R322 to R325, R327,
R431). The model's choices: an open batch has its whole store, a record that finds no room holds the whole instruction, and the lanes of a
faulted write read their registers again when they issue again (log entry 40). -/
def Sys2Proof.Claims.TaskInstructionsComplete : Prop :=
  (∀ (i : Instr) (g : BitVec 5) (p : Nat) (s : State), Claims.phaseRow i s = some (g, p) → Due s →
    (execLanes s g = 0 → ∃ t, exec i s = .next t ∧ Retired i s s t) ∧
    (execLanes s g ≠ 0 → ∃ t, exec i s = .next t ∧ Retired i s { s with phase := smSet s.phase 0 (waveDie s.cur) p } t)) ∧
  (∀ (f : F32Z) (s : State), f.fn.toNat % 16 = 0 → Issuing s →
    ∃ t, exec (.phase32 f) s = .next t ∧ Raised s t 0x002 (activeLanes s.wave (curPath s.wave))) ∧
  (∀ (f : F64R) (s : State),
    let k := sOrImm s.wave f.cb f.b
    let die := 2 * vifPkg s.wave.vif + k / 65536
    let valid : Prop := k < 2 ^ 17 ∧ (getTask s die (k % 65536)).testBit 31 = true
    let ex := execLanes s f.g
    (Due s → ex = 0 → ∃ t, exec (.tdone64 f) s = .next t ∧ Retired (.tdone64 f) s s t) ∧
    (Issuing s → ex ≠ 0 → ¬ valid → ∃ t, exec (.tdone64 f) s = .next t ∧ Raised s t 0x209 ex) ∧
    (Due s → ex ≠ 0 → valid → ∃ v t e, exec (.tdone64 f) s = .next t ∧ Retired (.tdone64 f) s v t ∧
      { v with taskUnits := [], nextId := 0 } = { s with taskUnits := [], nextId := 0 } ∧ e.1 = k ∧ e.2.1 = s.cur ∧ e.2.2.2 = ex ∧
      getUnit v die = { getUnit s die with done := (getUnit s die).done ++ [e] } ∧ ∀ j, j ≠ die → getUnit v j = getUnit s j)) ∧
  (∀ (f : F64R) (s : State),
    let bin := sOrImm s.wave f.cb f.b
    let die := waveDie s.cur
    let node := getNode s die bin
    let size := node / 2 ^ 64 % 256
    let u := getUnit s die
    let ex := execLanes s f.g
    let fits : Prop := f.a.toNat + (if bin < 4096 ∧ 0 < size then size else 1) ≤ 8 * s.wave.gran
    (Issuing s → ¬ fits → ∃ t, exec (.spawn64 f) s = .next t ∧ Raised s t 0x008 (activeLanes s.wave (curPath s.wave))) ∧
    (Due s → fits → ex = 0 → ∃ t, exec (.spawn64 f) s = .next t ∧ Retired (.spawn64 f) s s t) ∧
    (Issuing s → fits → ex ≠ 0 → (4096 ≤ bin ∨ size = 0) → ∃ t, exec (.spawn64 f) s = .next t ∧ Raised s t 0x20B ex) ∧
    (bin < 4096 → 0 < size → fits → ex ≠ 0 →
      let recs := spawnRecords s s.cur f.a.toNat bin ex
      let store := Cond.store (1 + (node / 2 ^ 96 % 65536 * size * 4 + 15) / 16)
      (Due s → (unitsStopped s s.cur = true ∨ appendAll s die bin recs = none) → ∃ t, exec (.spawn64 f) s = .next t ∧ HeldAt s t store none) ∧
      (∀ v bad, Due s → unitsStopped s s.cur = false → appendAll s die bin recs = some (v, bad) →
        (bad = [] → ∃ t, exec (.spawn64 f) s = .next t ∧ Retired (.spawn64 f) s v t) ∧
        (bad ≠ [] → Config.replayLimit ≤ entriesUsed s s.cur → ∃ t, exec (.spawn64 f) s = .next t ∧
          HeldAt s t .replay (some (slotOf s.wave s.wave.turnB))) ∧
        (bad ≠ [] → entriesUsed s s.cur < Config.replayLimit → ∃ t, exec (.spawn64 f) s = .next t ∧
          Retired (.spawn64 f) s (spawnFault v s.cur (if s.wave.turnB then 1 else 0) (curPath s.wave).pc f bad) t)) ∧
      (recs.map (·.1) = lanesOf ex ∧ ∀ l r, (l, r) ∈ recs → r = gatherRegs s.wave f.a.toNat l (4 * size)) ∧
      (∀ b l r, openBatch u bin = some b → ∀ v e,
        writeVirt { s with taskUnits := smSet s.taskUnits {} die (putBatch u { b with count := b.count + 1 }) } ((smGet u.nodeRing 0 bin - 1) / 16) die
          (((u.store + 16 * b.unit) % 2 ^ 64 + 16 + b.count * (4 * size)) % 2 ^ 64) false (natBytes (4 * size) r) = (v, e) →
        (e = .ok () → b.count + 1 < node / 2 ^ 96 % 65536 → ∀ rest, appendAll s die bin ((l, r) :: rest) = appendAll v die bin rest) ∧
        (∀ c, e = .error c → ∀ rest, appendAll s die bin ((l, r) :: rest) = (appendAll s die bin rest).map (fun y => (y.1, (l, c) :: y.2))))) ∧
    (∀ w path pc l c, (getWave s w).status = .running → ∃ p ∈ (getWave (spawnFault s w path pc f [(l, c)]) (mainWave s w)).pend,
      p.cause = c ∧ p.rank = 4 ∧ p.lanes = laneBit l))

/-- VACATE, FREEZE and THAW (`vacate64`, `freeze64`, `thaw64`) are 0x3C0 while their interface has a system operation, and 0x3C1 with an area
that fails its checks. VACATE of no core gives back the cores that its launch holds, gives D zero and ends at once. Every other begins its
operation, which holds the interface until it completes; a FREEZE stops the interface's rings, all but its own launch. The path's stroke ends
behind the instruction and goes on when the operation completes. With no lane executing they only go on (R424, R425, R430, R431, R433, R435).
The cores that R433's bound counts are those with resident crews of the interface (log entry 18). -/
def Obligations.SystemOperationsBegin : Prop :=
  ∀ (i : Instr) (f : F64R) (kind size : Nat) (area : Bool) (s : State), Claims.sysRow i s = some (f, kind, size, area) →
    let v := s.wave.vif
    let base := sPair64 s.wave f.a.toNat
    let ex := execLanes s f.g
    let own := (getCrew s s.wave.crew).launch + 1
    let busy := (getIface s v).sysop.isSome
    let areaBad : Prop := area = true ∧ ¬ Claims.areaOk s kind base size
    (Due s → ex = 0 → ∃ t, exec i s = .next t ∧ Retired i s s t) ∧
    (Issuing s → ex ≠ 0 → busy = true → ∃ t, exec i s = .next t ∧ Raised s t 0x3C0 ex) ∧
    (Issuing s → ex ≠ 0 → busy = false → areaBad → ∃ t, exec i s = .next t ∧ Raised s t 0x3C1 ex) ∧
    (Due s → ex ≠ 0 → busy = false → area = false → ∃ u t, exec i s = .next t ∧ HeldBehind i s u t .now ∧ u.wave = sPut s.wave f.d.toNat 0 ∧
      { u with cores := [], wave := {} } = { s with cores := [], wave := {} } ∧
      (∀ j, { getCore u j with holder := 0 } = { getCore s j with holder := 0 }) ∧
      ∀ j, corePkg j = vifPkg v → (getCore s j).holder = own → (getCore u j).holder = 0) ∧
    (Due s → ex ≠ 0 → busy = false → area = true → Claims.areaOk s kind base size → ∃ o u t, exec i s = .next t ∧ HeldBehind i s u t .sysop ∧
      (getIface u v).sysop = some o ∧ o.kind = kind ∧ o.w = some s.cur ∧ o.d = f.d.toNat ∧ o.base = base ∧ o.size = size ∧
      o.launch = own ∧ o.lanes = ex ∧
      (kind = 1 → (getIface u v).frozen = true ∧ (getIface u v).exempt = own ∧
        ∀ c, c ∈ o.crews ↔ ∃ k ∈ s.crews, k.1 = c ∧ k.2.vif = v ∧ k.2.slots ≠ [] ∧ k.2.launch + 1 ≠ own) ∧
      (kind = 2 → o.crews = []))

namespace Sys2Proof.Claims

/-! ### Steps of the arbiter and of memory operations (R18, R26, R28, R32, R75, R192, R195, R200, R202, R243, R247 to R252, R256, R265) -/

/-- The state that a win of `w` leaves before its paths start: `s` with the losers' counts. -/
def winPaths (s : State) (w : Nat) : State :=
  match choosePaths (getWave s w) (startGroups s w) with
  | some (a, b) => startPaths s w a b
  | none => s

/-- Two states agree on everything but the counts of lost arbitrations. -/
def SameButStarved (s t : State) : Prop :=
  SameElse s t ∧ ∀ w, { getWave s w with starved := 0 } = { getWave t w with starved := 0 }

/-- The memory operations by the step that performs them: what each waits for, and what performing it leaves. -/
def performRow (ev : Instr) (s : State) : Option (Nat × (Op → Prop) × (Op → State)) :=
  let here (o : Op) : Prop := performable s o = true
  match ev with
  | .loadDataReturn id => some (id, fun o => (o.kind = .load ∨ o.kind = .acq) ∧ loadable s o = true,
      fun o => performLanes s o (fun a => !awayLane s o a && !deadLane s o a))
  | .storePerformed id => some (id, fun o =>
      (o.kind ∈ [.store, .red, .rel, .cwb, .cinv] ∧ here o ∧ (o.lanes = [] ∨ ∃ a ∈ o.lanes, laneDue s o a = true)) ∨
      (o.kind ∈ [.bari, .badd] ∧ here o ∧ ∀ a ∈ o.lanes, laneDue s o a = true),
      fun o => if o.kind ∈ [.store, .red, .rel] then performLanes s o (laneDue s o) else performOp s o)
  | .atomResultReturn id => some (id, fun o => o.kind = .atom ∧ here o ∧ (o.lanes = [] ∨ ∃ a ∈ o.lanes, laneDue s o a = true),
      fun o => performLanes s o (laneDue s o))
  | .fenceComplete id => some (id, fun o => o.kind = .fence ∧ unblocked s o = true, performOp s)
  | .devlPerformed id => some (id, fun o => devlDue s o = true, performOp s)
  | _ => none

/-- The state that a choice of wave `w` leaves at its port: its mark of the depth-first mode as said, the level's pointer behind it. -/
def pickedWave (s : State) (core w : Nat) (passed : Bool) : State :=
  let s := modWave s w (fun x => { x with passed := passed })
  modCore s core (fun c => { c with rr := smSet c.rr 0 (levelOf (getWave s w)) ((waveSlot w + 1) % 64) })

/-- Wave `w` wins a port from state `s`: the ready waves' counts of lost arbitrations move, its own is zero, and its paths start. -/
def WinsPort (s t : State) (w : Nat) : Prop := ∃ u, t = winPaths u w ∧ SameButStarved s u ∧ (getWave u w).starved = 0

/-- A relaxed operation on the bench, its lanes translated, none on a poisoned granule, nothing performed yet, the next at the bench of those
that meet there (R117, R202), and of the wave's path A or of a wave that waits for nothing. -/
def BenchOp (s : State) (o : Op) : Prop :=
  getOp s o.id = some o ∧ o.space = 1 ∧ o.order = 0 ∧ o.stepped = 0 ∧ unblocked s o = true ∧ (o.lanes.map (·.lane)).Nodup ∧ o.lanes ≠ [] ∧
  (o.path = 0 ∨ (getWave s o.w).waits = []) ∧ (∀ p ∈ s.packets, accessPacket p = true → p.index ≠ o.id) ∧
  (∀ a ∈ o.lanes, a.lane < 32 ∧ laneDue s o a = true ∧ ∃ pa pte buf, a.stage = .ready pa 0 pte buf ∧ lanePoisoned s true pa (opBytes o) = false)

/-- Where a translated lane stands. -/
def laneAt (a : LaneAcc) : Nat := (stagePa a).getD 0

/-- A state without what performing a bench operation moves besides its wave: the benches and what their barrier units track, the operations
in flight. -/
def eraseBenchOps (s : State) : State := { eraseWaves s with bench := [], benchPoison := [], bars := [], ops := [], atomPend := [] }

/-- From `s` to `t`, a granule of the bench is poisoned where a lane of `o` stored poisoned data, beside those that were; no barrier unit
changes but that it may stop tracking an object (R253, R387). -/
def BenchStored (s t : State) (o : Op) : Prop :=
  (∀ g, smGet t.benchPoison false g = true ↔ smGet s.benchPoison false g = true ∨
    ∃ a ∈ o.lanes, a.poison = true ∧ (stagePa a).getD 0 < 32 * (g + 1) ∧ 32 * g < (stagePa a).getD 0 + opBytes o) ∧
  ∀ j, { getBar t j with tracked := false } = { getBar s j with tracked := false } ∧ ((getBar s j).tracked = false → (getBar t j).tracked = false)

/-- Register `d + r` of lane `l` takes bits [32r + 31 : 32r] of `v`, where it exists and the lane is live; every other register stays. -/
def LaneLoads (x y : Wave) (o : Op) (v : LaneAcc → Nat) : Prop :=
  ∀ r l, l < 32 →
    (∀ a ∈ o.lanes, a.lane = l → (live x).getLsbD l = true → o.d ≤ r → r < o.d + (opBytes o + 3) / 4 → r < o.vlimit → r < 8 * x.gran →
      vGet y r l = v a / 2 ^ (32 * (r - o.d)) % 2 ^ 32) ∧
    ((∀ a ∈ o.lanes, a.lane ≠ l) ∨ (live x).getLsbD l = false ∨ r < o.d ∨ o.d + (opBytes o + 3) / 4 ≤ r ∨ o.vlimit ≤ r ∨ 8 * x.gran ≤ r →
      vGet y r l = vGet x r l)

end Sys2Proof.Claims

/-- An arbitration (`issueArbitration`) gives a free port to the ready wave that the level and the pointer choose, and moves the pointer
behind it; in depth-first mode one that the mode holds back is passed over at every second win, and the next of the others wins. A wave that
has lost 256 arbitrations, of its launch's lowest unfinished crew, comes first (`progressOverride`); of several the first in the model's
list, and the pointer stays (the model's choice, log entry 57). The winner starts its best group and a second stroke that pairs; a second
stroke that cannot start waits with its cause behind the first path's instruction. With no port, or nothing ready, nothing happens. A
continuation whose condition has come is ready at once, and one at a header joins the ready lanes (`continuationReady`; R18, R26, R28, R32,
R326, R407). When the memory, matrix, collective, network and system classes accept a stroke is the model's choice (log entry 52), and that a
second stroke which cannot start is a cause of the cycle behind path A's instruction is DEDUCED (log entry 33). -/
def Obligations.ArbitrationStartsStrokes : Prop :=
  (∀ (s : State) (core w : Nat), portFree s core = true → overdue s core = none → arbiterChoice s core (readyWaves s core) = some w →
    let held := spHeld s w
    let s' := modWave s w (fun x => { x with passed := false })
    (held = false ∨ (getWave s w).passed = false →
      ∃ t, exec (.issueArbitration core) s = .next t ∧ Claims.WinsPort (Claims.pickedWave s core w held) t w) ∧
    (held = true → (getWave s w).passed = true → ∀ v, v ≠ w → arbiterChoice s core ((readyWaves s core).erase w) = some v →
      spHeld s v = false ∨ (getWave s v).passed = false →
      ∃ t, exec (.issueArbitration core) s = .next t ∧ Claims.WinsPort (Claims.pickedWave s' core v (spHeld s v)) t v) ∧
    (held = true → (getWave s w).passed = true → readyWaves s core = [w] → exec (.issueArbitration core) s = .next s')) ∧
  (∀ (s : State) (core : Nat), readyWaves s core = [] → exec (.issueArbitration core) s = .next s ∧ exec (.progressOverride core) s = .next s) ∧
  (∀ (s : State) (core w : Nat), portFree s core = true → overdue s core = some w → exec (.issueArbitration core) s = .next s ∧
    ∃ t, exec (.progressOverride core) s = .next t ∧
      Claims.WinsPort (if arbiterChoice s core (readyWaves s core) = some w then s else bump s 3 core 1) t w) ∧
  (∀ (s : State) (core : Nat), portFree s core = false → exec (.issueArbitration core) s = .next s ∧ exec (.progressOverride core) s = .next s) ∧
  (∀ (s : State) (w : Nat) (a : Group) (p : Path), pathFor s w a = .ok p →
    (getWave (startPaths s w a none) w).pathA = p ∧ (∀ j, j ≠ w → getWave (startPaths s w a none) j = getWave s j)) ∧
  (∀ (s : State) (w : Nat) (a : Group) (c : Nat) (l : List Word), pathFor s w a = .error (c, l) → (getWave s w).status = .running → w = s.cur →
    Raised s (startPaths s w a none) c a.lanes) ∧
  (∀ (s : State) (w : Nat) (a g : Group) (p : Path) (c : Nat) (l : List Word), pathFor s w a = .ok p → pathFor s w g = .error (c, l) →
    let x := getWave (startPaths s w a (some g)) w
    x.pathA = p ∧ x.pathB.on = true ∧ x.pathB.bad = some (c, l) ∧ x.pathB.lanes = g.lanes ∧ x.pathB.pc = g.pc ∧ x.status = (getWave s w).status) ∧
  (∀ (s : State) (w i : Nat) (c : Cont), (getWave s w).conts[i]? = some c → condMet s w c.cond = true →
    ∃ t, exec (.continuationReady w i) s = .next t ∧ (∀ j, j ≠ w → getWave t j = getWave s j) ∧
      getWave t w = if c.pc = c.head then { getWave s w with conts := (getWave s w).conts.eraseIdx i }
        else { getWave s w with conts := (getWave s w).conts.set i { c with cond := .now } })

/-- An operation that is due is performed (`loadDataReturn`, `storePerformed`, `atomResultReturn`, `fenceComplete`, `devlPerformed`); one
that waits for another, or for a translation, stands as it is; of those that meet at one unit the lowest source goes first. On the bench: a load's lanes take the bytes at their addresses, extended; a
store's bytes are written in lane order; an atomic's lane takes the old value and leaves the new one of its operation. Then the operation is
gone and its count has fallen (R213, R247 to R252, R265). -/
def Obligations.MemoryOperationsPerform : Prop :=
  (∀ (ev : Instr) (s : State) (id : Nat) (due : Op → Prop) (does : Op → State), Claims.performRow ev s = some (id, due, does) →
    (∀ o, getOp s id = some o → due o → exec ev s = .next (does o)) ∧
    (∀ o, getOp s id = some o → ¬ due o → exec ev s = .next s) ∧ (getOp s id = none → exec ev s = .next s)) ∧
  (∀ (s : State) (o : Op), Claims.BenchOp s o →
    let x := getWave s o.w
    let n := opBytes o
    (o.kind = .load → o.counter = 1 → ∃ t, exec (.loadDataReturn o.id) s = .next t ∧ Claims.eraseBenchOps t = Claims.eraseBenchOps s ∧
      t.bench = s.bench ∧ ((∀ a ∈ o.lanes, a.poison = false) → t.benchPoison = s.benchPoison) ∧ getOp t o.id = none ∧ (getWave t o.w).ld = x.ld - 1 ∧
      Claims.LaneLoads x (getWave t o.w) o (fun a => loadExtend o.sz (s.bench.readN (Claims.laneAt a) n))) ∧
    (o.kind = .store → o.counter = 2 → ∃ t, exec (.storePerformed o.id) s = .next t ∧ Claims.eraseBenchOps t = Claims.eraseBenchOps s ∧
      t.bench = o.lanes.foldl (fun m a => m.writeN (Claims.laneAt a) n a.data) s.bench ∧ Claims.BenchStored s t o ∧ getOp t o.id = none ∧
      getWave t o.w = { x with st := x.st - 1 }) ∧
    (∀ a, o.kind = .atom → o.counter = 1 → o.lanes = [a] → ∃ t, exec (.atomResultReturn o.id) s = .next t ∧
      t.bench = s.bench.writeN (Claims.laneAt a) n (atomNew o.fn4 n (s.bench.readN (Claims.laneAt a) n) a.data) ∧ getOp t o.id = none ∧
      (getWave t o.w).ld = x.ld - 1 ∧ Claims.LaneLoads x (getWave t o.w) o (fun _ => s.bench.readN (Claims.laneAt a) n)) ∧
    (∀ a, o.kind = .red → o.counter = 2 → o.lanes = [a] → ∃ t, exec (.storePerformed o.id) s = .next t ∧
      t.bench = s.bench.writeN (Claims.laneAt a) n (atomNew o.fn4 n (s.bench.readN (Claims.laneAt a) n) a.data) ∧
      getOp t o.id = none ∧ getWave t o.w = { x with st := x.st - 1 })) ∧
  (∀ (s : State) (o : Op), getOp s o.id = some o → o.kind = .fence → unblocked s o = true →
    ∃ t, exec (.fenceComplete o.id) s = .next t ∧ t = dropOp (fenceSteps s o.w o.order o.scope) o.id) ∧
  (∀ (k old x : Nat), k = 4 ∨ k = 8 → old < 2 ^ (8 * k) → x < 2 ^ (8 * k) →
    atomNew 0 k old x = (old + x) % 2 ^ (8 * k) ∧ atomNew 5 k old x = old &&& x ∧ atomNew 6 k old x = old ||| x ∧ atomNew 7 k old x = old ^^^ x ∧
    atomNew 8 k old x = x ∧ atomNew 2 k old x = min old x ∧ atomNew 4 k old x = max old x ∧
    ∀ new < 2 ^ (8 * k), atomNew 9 k old (x + 2 ^ (8 * k) * new) = if old = x then new else old)

/-- Lanes at an HC region or a vault travel to their home as messages, each with the next sequence number of their wave, and are applied there,
of those that meet the lowest source first (`activeMessage`). The request of a lane of another package leaves with its operand, or the lane
takes 0x30A where no rail works; at the target it is translated by the tables there, performed and answered, a fault being the lane's
(`remoteAccessRequest`); the answer writes the lane's registers, and the last one ends the operation (`remoteAccessResponse`). A walk that ends
enters its translation in the core's and the cluster's TLB and gives it, or its cause, to every lane that waits for it (`pageWalkComplete`).
Lanes that have met a fault go to a replay entry, one for each instruction in issue order, with the lowest cause that they met, and the rest of
the operation goes on; the wave stops, at once or, while a path of it issues, behind its cycle (`deferredFaultFound`; R192, R195, R200 to R202,
R243, R342, R407, R413). Which rail a `.x` request takes is the model's choice (log entry 14). -/
def Obligations.MessagesWalksAndDeferredFaults : Prop :=
  (∀ (s : State) (o : Op), getOp s o.id = some o →
    (messageDue s o = true → exec (.activeMessage o.id) s = .next (applyLanes s o (dueMessage s o)).1 ∧
      (o.stepped ≠ 0 →
        let u := countMessages s o.w (o.lanes.filter (dueMessage s o)).length
        let r := o.lanes.foldl (fun (r : State × Op) a => if isReady a && dueMessage s o a then applyLane r.1 r.2 a else r) (u, o)
        exec (.activeMessage o.id) s = .next (setOp r.1 r.2) ∧
          (getWave u o.w).seqMsg % 4096 = ((getWave s o.w).seqMsg + (o.lanes.filter (dueMessage s o)).length) % 4096)) ∧
    (messageDue s o = false → exec (.activeMessage o.id) s = .next s) ∧
    (∀ a pa mode pte buf, messageDue s o = true → o.kind = .store → o.order = 0 → o.stepped = 0 → o.lanes = [a] → a.stage = .ready pa mode pte buf →
      mode ≠ 1 → a.poison = false →
      let o' := { o with stepped := 1 }
      let u := countMessages (setOp s o') o.w 1
      let p := writePoint o.w o.space o.scope (opPolicy o) mode pa false
      exec (.activeMessage o.id) s = .next (setOp (sigInsert (laneWriteAt u (threadOf o.w a.lane) o.space a.addr pte buf p (opPolicy o) mode pa (opBytes o) a.data) o.w pa)
        { o' with lanes := [{ a with stage := .done }] })) ∧
    ((∀ a ∈ o.lanes, isMessage o a = true → awayLane s o a = false → ∃ b ∈ s.ops, sourceRank (unitPkg o a) b < sourceRank (unitPkg o a) o ∧
        unitReady s b = true ∧ ∃ y ∈ b.lanes, laneUnit b y = laneUnit o a ∧ laneUnit o a ≠ none) → exec (.activeMessage o.id) s = .next s) ∧
    (∀ a, o.lanes = [a] → canSend s o a = true →
      ∃ t, exec (.remoteAccessRequest o.id) s = .next t ∧ SameElse { s with packets := [], ops := [], nextId := 0 } { t with packets := [], ops := [], nextId := 0 } ∧
        t.waves = s.waves ∧ t.wave = s.wave ∧
        (∀ route, routeTo s (waveDie o.w) (accessPlace a).1 (accessPlace a).2 [entry 4 29 0 0] = some route → t.ops = s.ops ∧
          ∃ p, t.packets = s.packets ++ [p] ∧ p.kind = .request ∧ p.cls = 0 ∧ p.index = o.id ∧ p.rank = a.lane ∧ p.stack = route ∧ p.hub = waveDie o.w ∧
            p.payload = natBytes (operandBytes o) a.data) ∧
        (routeTo s (waveDie o.w) (accessPlace a).1 (accessPlace a).2 [entry 4 29 0 0] = none → t.packets = s.packets ∧
          getOp t o.id = some { o with lanes := [{ a with stage := .bad 0x30A }] })) ∧
    (∀ a p u, o.lanes = [a] → canSend s o a = false → landedRequests s o = [p] → p.rank = a.lane → untranslated a = true →
      (∀ c, remoteXlat s o.w (opAcc o.kind) a.addr = (u, .bad c) → getOp u o.id = some o → p ∈ u.packets →
        let o' := { o with lanes := [{ a with stage := .bad c }] }
        ∀ route, routeTo (setOp u o') p.hub p.src p.chunk [entry 4 29 0 0] = some route →
        ∃ t, exec (.remoteAccessRequest o.id) s = .next t ∧ getOp t o.id = some o' ∧
          ∃ q ∈ t.packets, q.id = p.id ∧ q.kind = .response ∧ q.cls = 1 ∧ q.index = p.index ∧ q.rank = p.rank ∧ q.stack = route ∧ q.payload = []) ∧
      (∀ pa mode pte buf, remoteXlat s o.w (opAcc o.kind) a.addr = (u, .ready pa mode pte buf) → o.kind = .load → o.order = 0 →
        let a' := { a with stage := .ready pa mode pte buf }
        let o' := { o with lanes := [a'] }
        let b := beginOp (setOp u o') o'
        let n := opBytes o
        let v := laneRead b.1 (threadOf o.w a.lane) o.space o.scope (opPolicy o) mode pa n
        let o'' := { b.2 with lanes := [{ a' with stage := .done, data := v.2 }] }
        unblocked (setOp u o') o' = true → lanePoisoned b.1 (o.space == 1) pa n = false → a.poison = false → p ∈ v.1.packets →
        ∀ route, routeTo (setOp v.1 o'') p.hub p.src p.chunk [entry 4 29 0 0] = some route →
        ∃ t, exec (.remoteAccessRequest o.id) s = .next t ∧ t.ops = (setOp v.1 o'').ops ∧
          ∃ q ∈ t.packets, q.id = p.id ∧ q.kind = .response ∧ q.cls = 1 ∧ q.stack = route ∧ q.payload = natBytes n v.2)) ∧
    (∀ a p, o.lanes = [a] → a.lane < 32 → a.stage = .done → o.kind = .load → o.order = 0 → o.counter = 1 →
      s.packets.filter (fun q => landing o .response q && q.hub == waveDie o.w) = [p] → (∀ q ∈ s.packets, accessPacket q = true → q.index = o.id → q.rank = a.lane → q.id = p.id) →
      ∃ t, exec (.remoteAccessResponse o.id) s = .next t ∧ getOp t o.id = none ∧ (∀ q ∈ t.packets, q ∈ s.packets ∧ q.id ≠ p.id) ∧
        (getWave t o.w).ld = (getWave s o.w).ld - 1 ∧ Claims.LaneLoads (getWave s o.w) (getWave t o.w) o (fun a => loadExtend o.sz a.data))) ∧
  (∀ (s : State) (k : Walk), s.walks.find? (fun y => y.id == k.id) = some k → exec (.pageWalkComplete k.id) s = .next (endWalk s k) ∧
    (∀ o a, s.ops = [o] → o.lanes = [a] → waveDie o.w = k.die → (getWave s o.w).vif = k.vif → a.stage = .walking → (laneVif s o.w o.space a.addr).2 / 65536 * 65536 = k.va →
      o.kind ≠ .atom → o.kind ≠ .red →
      let s' := { s with walks := s.walks.filter (fun y => y.id != k.id) }
      let va := (laneVif s o.w o.space a.addr).2
      let x := walkFrom s' k.vif k.die (va % 2 ^ 57) (opAcc o.kind) (ptRoot s' k.vif) 5
      (∀ c, x.2 = .error c → x.1.ops = s'.ops → (endWalk s k).ops = [{ o with lanes := [{ a with stage := .bad c }] }] ∧ (endWalk s k).walks = x.1.walks ∧ (endWalk s k).tlb = x.1.tlb) ∧
      (∀ g, x.2 = .ok g → x.1.ops = s'.ops → (endWalk s k).ops = [{ o with lanes := [{ a with stage := .ready g.pa g.mode g.pte 0 }] }] ∧ (endWalk s k).walks = x.1.walks ∧
        ∀ lv u, (lv, u) ∈ [(0, waveCore o.w), (1, coreCluster (waveCore o.w))] →
          (⟨lv, u, k.vif, va / g.size * g.size, g.size, g.pa / g.size * g.size, g.mode, g.w, g.x, g.pte⟩ : TlbEntry) ∈ (endWalk s k).tlb))) ∧
  (∀ (s : State) (id : Nat), s.walks.any (fun y => y.id == id) = false → exec (.pageWalkComplete id) s = .next s) ∧
  (∀ (s : State) (o : Op), getOp s o.id = some o → o.lanes.any isBad = true → (∀ a ∈ o.lanes, isBad a = true → onFabric s o a = false) → o.operands = [] →
    (getWave s o.w).status = .running →
    (getWave s o.w).shadow = false → o.lanes.any (fun a => !isBad a) = true → (∀ a ∈ o.lanes, a.stage ≠ .bad 0) →
    ∃ c m r t, exec (.deferredFaultFound o.id) s = .next t ∧ (∃ a ∈ o.lanes, a.stage = .bad c) ∧ (∀ a ∈ o.lanes, ∀ e, a.stage = .bad e → c ≤ e) ∧
      (getWave t o.w).status = (if (getWave s o.w).pathA.on || (getWave s o.w).pathB.on then .running else .stopped) ∧ (∃ p ∈ (getWave t o.w).pend, p.cause = c ∧ p.lanes = m ∧ p.rank = 4) ∧
      (getWave t o.w).replay = insertReplay r (getWave s o.w).replay ∧ r.ecause = c ∧ r.ipc = o.pc ∧ r.seq = o.id ∧
      r.lanes.map (fun a => (a.lane, a.addr, a.data)) = (o.lanes.filter isBad).map (fun a => (a.lane, a.addr, a.data)) ∧
      ∃ o', getOp t o.id = some o' ∧ o'.lanes = o.lanes.filter (fun a => !isBad a)) ∧
  (∀ (r : Replay) (l : List Replay), l.Pairwise (fun a b => a.seq < b.seq) →
    (insertReplay r l).Pairwise (fun a b => a.seq < b.seq) ∧ (∀ q, (∃ y ∈ insertReplay r l, y.seq = q) ↔ q = r.seq ∨ ∃ y ∈ l, y.seq = q) ∧
    ((∀ y ∈ l, y.seq ≠ r.seq) → r ∈ insertReplay r l ∧ ∀ y ∈ l, y ∈ insertReplay r l) ∧
    (∀ y ∈ l, y.seq = r.seq → ∃ z ∈ insertReplay r l, z.seq = r.seq ∧ z.rlanes = y.rlanes ||| r.rlanes ∧ z.ecause = min y.ecause r.ecause))

namespace Sys2Proof.Claims

/-! ### Steps of coherence, errors, barrier objects, route tags and waits (R203 to R207, R231, R253, R261, R262, R391, R393, R394, R400, R448) -/

/-- Memory bytes of a line that a mask selects take the line's bytes; every other byte of memory is the same. -/
def LineWritten (s t : State) (line : Nat) (x : BitVec 1024) (m : BitVec 128) : Prop :=
  ∀ a, t.mem.read a = if a / 128 = line ∧ m.getLsbD (a % 128) = true then x.extractLsb' (8 * (a % 128)) 8 else s.mem.read a

/-- A holder has answered a back-invalidation: its dirty bytes are at the home, it holds no copy, and the filter and the queues do not
name it. -/
def Answered (s t : State) (line holder : Nat) : Prop :=
  LineWritten s t line (dirtyOf s holder line).1 (dirtyOf s holder line).2 ∧
  getLine t 2 (2 * holder) line = {} ∧ getLine t 2 (2 * holder + 1) line = {} ∧
  holder ∉ (smGet t.snoop {} line).holders ∧ (⟨line, holder⟩ : BackInv) ∉ t.backInv

/-- The newest record of the management function's log. -/
def Logged (s t : State) (pkg : Nat) (c : ErrClass) (k : ErrKind) (addr : Nat) : Prop :=
  ∃ r, (getPkg t pkg).errors.getLast? = some r ∧ r.cls = c ∧ r.kind = k ∧ r.addr = addr ∧ r.time = s.podTime ∧
    ((getPkg s pkg).errors.length < 4096 → (getPkg t pkg).errors = (getPkg s pkg).errors ++ [r])

/-- The newest record of an interface's log (R448). -/
def Copied (t : State) (v : Nat) (k : ErrKind) (addr : Nat) : Prop :=
  ∃ r, (getIface t v).errors.getLast? = some r ∧ r.cls = .uncorrectable ∧ r.kind = k ∧ r.addr = addr ∧ r.time = t.podTime

/-- The units of a corrected error by number (log entry 24). -/
def errUnits : List ErrKind := [.memory, .vault, .bench, .registers, .accumulators, .cache, .engine, .port, .ring]

/-- A bench object with nobody waiting, no error standing: its bytes, and what has arrived with them. -/
def IdleBench (s : State) (o : Nat) : Prop :=
  o % 2 = 0 ∧ (getBar s o).error = 0 ∧ (getBar s o).parked = [] ∧ ¬ barErr (readObj s o).2 ∧ barWaiters (readObj s o).2 = 0
def barArrived (x : Nat) : Nat := x / 2 ^ 64 % 2 ^ 48
def barArmedNow (x : Nat) : Prop := x / 2 ^ 128 % 2 = 1
def barAuto (x : Nat) : Prop := x / 2 ^ 129 % 2 = 1
def barScope (x : Nat) : Nat := x / 2 ^ 132 % 8

/-- Wait `i` of a wave is a WAITA's, parked with watch `y`. -/
def WaitsFor (s : State) (w i : Nat) (z : Wait) (y : Watch) : Prop := (getWave s w).waits[i]? = some z ∧ z.on = .value y

/-- The event that looks at a watched location again. -/
def wakes (y : Watch) (w i : Nat) : Instr := if y.reread then .waitaReread w i else .waitaWake w i

/-- The other die's L2 holds bytes of a CXL line that its pool has not completed. -/
def othersPending (s : State) (die line : Nat) : Prop := regionOf (line * 128) = .cxl ∧ (getLine s 2 (die ^^^ 1) line).dirty ≠ 0

end Sys2Proof.Claims

/-- A die that lacks a line of the other die's L2 takes it, shared; the holder's M turns to O and its E to S; of a CXL line that the other die
wrote and the pool has not completed it sees the pool's bytes and keeps no copy. A die that is told of the other's write drops its copy, and
the owner there holds the only one. A victim's dirty bytes go to its home and the line goes. A home asks a holder that its filter names to
give a line up, once; the holder's dirty bytes come home and its copies go; a pooled node snoops so too. These are `otherDieRead`,
`otherDieWrite`, `l2Eviction`, `backInvalidation`, `backInvalidationAnswer` and `bisnp` (R203 to R207, R235). -/
def Sys2Proof.Claims.CoherenceStepsKeepTheBytes : Prop :=
  (∀ (s : State) (die line : Nat), (getLine s 2 (die ^^^ 1) line).valid = true → (getLine s 2 die line).valid = false →
    let o := getLine s 2 (die ^^^ 1) line
    let f := fetchL2 s die line
    exec (.otherDieRead die line) s = .next (readL2 s die line).1 ∧
    (Claims.othersPending s die line → readL2 s die line = (s, mergeLine o.data (memLine s line) o.dirty)) ∧
    (¬ Claims.othersPending s die line → (readL2 s die line).2 = o.data ∧ f.2.2 = 1 ∧
      getLine f.1 2 (die ^^^ 1) line = { o with moesi := if o.moesi = 4 then 3 else if o.moesi = 2 then 1 else o.moesi })) ∧
  (∀ (s : State) (die line : Nat), (getLine s 2 die line).valid = true → exec (.otherDieRead die line) s = .next s) ∧
  (∀ (s : State) (die line : Nat), (die, line) ∈ s.dieInval → line < 2 ^ 53 → die < 131072 →
    let o := getLine s 2 (die ^^^ 1) line
    ∃ t, exec (.otherDieWrite die line) s = .next t ∧ getLine t 2 die line = {} ∧ getLine t 2 (die ^^^ 1) line = { o with moesi := if o.moesi = 3 then 4 else o.moesi } ∧
    t.dieInval = s.dieInval.filter (· != (die, line)) ∧ line ∉ smGet t.farDirty [] die ∧ t.mem = s.mem ∧ ∀ lv u l, l < 2 ^ 53 → u < 131072 →
      (lv, u, l) ≠ (2, die, line) → (lv, u, l) ≠ (2, die ^^^ 1, line) → getLine t lv u l = getLine s lv u l) ∧
  (∀ (s : State) (die line : Nat), (die, line) ∉ s.dieInval → exec (.otherDieWrite die line) s = .next s) ∧
  (∀ (s : State) (unit line : Nat), isVictim s 2 unit line = true → ∃ t, exec (.l2Eviction 2 unit line) s = .next t ∧ getLine t 2 unit line = {} ∧
    let c := getLine s 2 unit line
    (∀ a, a / 128 = line → c.dirty.getLsbD (a % 128) = true → t.mem.read a = c.data.extractLsb' (8 * (a % 128)) 8) ∧
    (homePkg (line * 128) = unit / 2 → regionOf (line * 128) ≠ .cxl → Claims.LineWritten s t line c.data c.dirty)) ∧
  (∀ (s : State) (lv unit line : Nat), (lv ≠ 1 ∧ lv ≠ 2) ∨ isVictim s lv unit line = false → exec (.l2Eviction lv unit line) s = .next s) ∧
  (∀ (s : State) (unit line : Nat), isVictim s 1 unit line = true →
    exec (.l2Eviction 1 unit line) s = .next (evictCC s unit line) ∧ getLine (evictCC s unit line) 1 unit line = {}) ∧
  (∀ (s : State) (line h : Nat), h ∈ holdersOf s line 512 →
    (⟨line, h⟩ ∉ s.backInv → ∃ t, exec (.backInvalidation line h) s = .next t ∧ { t with backInv := [], ctr := [] } = { s with backInv := [], ctr := [] } ∧
      t.backInv = s.backInv ++ [⟨line, h⟩]) ∧
    (⟨line, h⟩ ∈ s.backInv → exec (.backInvalidation line h) s = .next s)) ∧
  (∀ (s : State) (line h : Nat), ⟨line, h⟩ ∈ s.backInv → ∃ t, exec (.backInvalidationAnswer line h) s = .next t ∧ Claims.Answered s t line h) ∧
  (∀ (s : State) (pkg line : Nat), regionOf (line * 128) = .cxl →
    ((getLine s 2 (2 * pkg) line).valid = true ∨ (getLine s 2 (2 * pkg + 1) line).valid = true) →
    ∃ t, exec (.bisnp pkg line) s = .next t ∧ Claims.Answered s t line pkg)

/-- An uncorrectable error poisons the 32-byte granule it strikes and no other, in memory, a vault or a cache, on a bench, in a register file, in
the accumulators, in a packet, in a drain queue or in a combine buffer; every byte outside it stays; it is logged, for a wave's or a crew's unit
with a copy to the interface. Where nothing stands at the place, nothing is struck. A corrected one counts, changes no data, and is logged with
its unit (`uncorrectableError`, `correctedError`; R253, R448, R449). How an error names its place, and the numbers of the units, are the model's
choice (log entry 24); the granule's bytes are free values. -/
def Sys2Proof.Claims.ErrorsPoisonAndAreLogged : Prop :=
  (∀ (s : State) (space addr : Nat), space = 0 ∨ 7 ≤ space → ∃ t, exec (.uncorrectableError space addr) s = .next t ∧
    (∀ g, smGet t.poison false g = if g = addr / 32 then true else smGet s.poison false g) ∧
    (∀ a, a / 32 ≠ addr / 32 → t.mem.read a = s.mem.read a) ∧ t.bench = s.bench ∧ t.benchPoison = s.benchPoison ∧ t.waves = s.waves ∧ t.crews = s.crews ∧
    Claims.Logged s t (homePkg addr) .uncorrectable (if space = 7 then .cache else if regionOf addr = .vault then .vault else .memory) addr) ∧
  (∀ (s : State) (addr : Nat), ∃ t, exec (.uncorrectableError 1 addr) s = .next t ∧
    (∀ g, smGet t.benchPoison false g = if g = addr / 32 then true else smGet s.benchPoison false g) ∧
    (∀ a, a / 32 ≠ addr / 32 → t.bench.read a = s.bench.read a) ∧ t.mem = s.mem ∧ t.poison = s.poison ∧
    Claims.Logged s t (corePkg (addr / 2 ^ 19)) .uncorrectable .bench (addr % 2 ^ 19) ∧
    (∀ v, coreVif s (addr / 2 ^ 19) = some v → Claims.Copied t v .bench (addr % 2 ^ 19))) ∧
  (∀ (s : State) (w k : Nat), k < 1056 → (getWave s w).status ≠ .absent → ∃ t, exec (.uncorrectableError 2 (2048 * w + k)) s = .next t ∧
    (∀ j, smGet (getWave t w).poison false j = if j = k then true else smGet (getWave s w).poison false j) ∧
    (∀ n l, l < 32 → 4 * n + l / 8 ≠ k ∨ 1024 ≤ k → vGet (getWave t w) n l = vGet (getWave s w) n l) ∧
    (∀ n, 1024 + n / 8 ≠ k → sGet (getWave t w) n = sGet (getWave s w) n) ∧ (∀ j, j ≠ w → getWave t j = getWave s j) ∧
    t.mem = s.mem ∧ t.bench = s.bench ∧
    Claims.Logged s t (waveDie w / 2) .uncorrectable .registers k ∧ Claims.Copied t (getWave s w).vif .registers k) ∧
  (∀ (s : State) (c k : Nat), k < 8192 → (getCrew s c).waves ≠ 0 → k / 512 < (getCrew s c).tiles.length →
    ∃ t, exec (.uncorrectableError 3 (8192 * c + k)) s = .next t ∧
    (∀ j, smGet (getCrew t c).cellPoison false j = if j = k then true else smGet (getCrew s c).cellPoison false j) ∧
    (∀ j, j / 8 ≠ k → smGet (getCrew t c).cell 0 j = smGet (getCrew s c).cell 0 j) ∧ (∀ j, j ≠ c → getCrew t j = getCrew s j) ∧ t.waves = s.waves ∧
    Claims.Logged s t (coreDie (getCrew s c).core / 2) .uncorrectable .accumulators k ∧ Claims.Copied t (getCrew s c).vif .accumulators k) ∧
  (∀ (s : State) (w c k : Nat), k < 2048 → ((getWave s w).status = .absent ∨ 1056 ≤ k) → ∃ t, exec (.uncorrectableError 2 (2048 * w + k)) s = .next t ∧
    { t with free := 0 } = { s with free := 0 } ∧
    (k < 8192 → ((getCrew s c).waves = 0 ∨ (getCrew s c).tiles.length ≤ k / 512) → ∃ t, exec (.uncorrectableError 3 (8192 * c + k)) s = .next t ∧
      { t with free := 0 } = { s with free := 0 })) ∧
  (∀ (s : State) (p : Packet) (g : Nat), p ∈ s.packets → (∀ q ∈ s.packets, q.id = p.id → q = p) → g < 128 → 32 * g < p.payload.length →
    ∃ t v, exec (.uncorrectableError 4 (128 * p.id + g)) s = .next t ∧
      t.packets = s.packets.map (fun q => if q = p then spoilPacket p g v else q) ∧ Claims.Logged s t (p.hub / 2) .uncorrectable .engine g) ∧
  (∀ (s : State) (i g : Nat) (h : Held), s.held[i]? = some h → g < 128 → 32 * g < h.pkt.payload.length →
    ∃ t v, exec (.uncorrectableError 6 (128 * i + g)) s = .next t ∧ t.held = s.held.set i { h with pkt := spoilPacket h.pkt g v } ∧
      Claims.Logged s t (h.die / 2) .uncorrectable .engine g) ∧
  (∀ (p : Packet) (g v : Nat), (spoilPacket p g v).payload.length = p.payload.length ∧ (∀ i, i / 32 ≠ g → (spoilPacket p g v).payload[i]? = p.payload[i]?) ∧
    ∀ h, h ∈ (spoilPacket p g v).poison ↔ h = g ∨ h ∈ p.poison) ∧
  (∀ (s : State) (n g : Nat) (x : Context), s.ctxs.find? (fun kv => kv.1 == n) = some (n, x) → (∀ kv ∈ s.ctxs, kv.1 = n → kv.2 = x) → g < 4096 → 8 * g < x.drain.length →
    ∃ t, exec (.uncorrectableError 5 (4096 * n + g)) s = .next t ∧ (∀ m, m ≠ n → getCtx t m = getCtx s m) ∧
      (getCtx t n).drain.length = x.drain.length ∧ (∀ i, i / 8 ≠ g → (getCtx t n).drain[i]? = x.drain[i]?) ∧
      (∀ e, e ∈ (getCtx t n).drainBad ↔ e ∈ x.drainBad ∨ ∃ i y, i / 8 = g ∧ x.drain[i]? = some y ∧ y.1 = e) ∧
      Claims.Logged s t (n / 32) .uncorrectable .engine g ∧ Claims.Copied t x.vif .engine g) ∧
  (∀ (s : State) (die unit addr : Nat), ∃ t, exec (.correctedError die unit addr) s = .next t ∧ { t with pkgs := [] } = { s with pkgs := [] } ∧
    (getPkg t (die / 2)).corrected = (getPkg s (die / 2)).corrected + 1 ∧ (∀ p, p ≠ die / 2 → getPkg t p = getPkg s p) ∧
    ∃ k, Claims.errUnits[unit % 9]? = some k ∧ Claims.Logged s t (die / 2) .corrected k addr)

/-- A counting cycle adds what has arrived. An object that is armed, not in error, and has reached TARGET completes: PHASE rises by one,
ARRIVED falls by TARGET, and it stays armed only with AUTO; every wave parked on it takes the phase in D and is released. An error that
stands enters the object as ERR and ECAUSE and traps the parked waves at their `WAITB`, none of which it counts any more. An AUTO object that still reaches TARGET completes again with no
further arrival. With nothing due nothing happens (`barrierCountingCycle`, `barrierAutoRecomplete`; R391, R393, R394). -/
def Obligations.BarrierCyclesCountAndComplete : Prop :=
  (∀ (s : State) (o : Nat), cycleDue s o = false → exec (.barrierCountingCycle o) s = .next s) ∧
  (∀ (s : State) (o : Nat), Claims.IdleBench s o → (getBar s o).arrived ≠ 0 →
    let x := (readObj s o).2
    let sum := (Claims.barArrived x + (getBar s o).arrived) % 2 ^ 48
    ∃ t, exec (.barrierCountingCycle o) s = .next t ∧ Claims.eraseBench t = Claims.eraseBench s ∧ (getBar t o).arrived = 0 ∧
      let y := (readObj t o).2
      (y / 2 ^ 132 = x / 2 ^ 132 ∧ Claims.barTarget y = Claims.barTarget x ∧ Claims.barWaiters y = 0 ∧ ¬ Claims.barErr y ∧ (Claims.barAuto y ↔ Claims.barAuto x)) ∧
      (Claims.barArmedNow x → Claims.barTarget x ≤ sum → Claims.barPhase y = (Claims.barPhase x + 1) % 2 ^ 16 ∧
        Claims.barArrived y = sum - Claims.barTarget x ∧ (Claims.barArmedNow y ↔ Claims.barAuto x)) ∧
      (¬ (Claims.barArmedNow x ∧ Claims.barTarget x ≤ sum) → Claims.barPhase y = Claims.barPhase x ∧ Claims.barArrived y = sum ∧
        (Claims.barArmedNow y ↔ Claims.barArmedNow x))) ∧
  (∀ (s : State) (o w d : Nat) (y : Wait), o % 2 = 0 → (getBar s o).error = 0 → (getBar s o).parked = [w] → (getWave s w).waits = [y] → y.on = .barrier o d →
    let x := (readObj s o).2
    ¬ Claims.barErr x → Claims.barArmedNow x → Claims.barTarget x ≤ (Claims.barArrived x + (getBar s o).arrived) % 2 ^ 48 → (getBar s o).arrived ≠ 0 →
    ∃ t, exec (.barrierCountingCycle o) s = .next t ∧ (getWave t w).waits = [] ∧ sGet (getWave t w) d = (Claims.barPhase x + 1) % 2 ^ 16 ∧
      ∀ j, j ≠ d → sGet (getWave t w) j = sGet (getWave s w) j) ∧
  (∀ (s : State) (o : Nat), o % 2 = 0 → (getBar s o).error = 0 → (getBar s o).parked.Nodup → (getBar s o).arrived ≠ 0 →
    let x := (readObj s o).2
    let y (t : State) := (readObj t o).2
    ¬ Claims.barErr x → Claims.barArmedNow x → Claims.barTarget x ≤ (Claims.barArrived x + (getBar s o).arrived) % 2 ^ 48 →
    (getBar s o).parked.length ≤ Claims.barWaiters x →
    ∃ t, exec (.barrierCountingCycle o) s = .next t ∧ Claims.barWaiters (y t) = Claims.barWaiters x - (getBar s o).parked.length ∧ (getBar t o).parked = [] ∧
      ∀ w ∈ (getBar s o).parked, (getWave t w).waits = (getWave s w).waits.filter (fun z => !waitsOn o z) ∧
        (∀ z ∈ (getWave s w).waits, ∀ d, z.on = .barrier o d → sGet (getWave t w) d = (Claims.barPhase x + 1) % 2 ^ 16) ∧
        ∀ j, (∀ z ∈ (getWave s w).waits, z.on ≠ .barrier o j) → sGet (getWave t w) j = sGet (getWave s w) j) ∧
  (∀ (s : State) (o : Nat), o % 2 = 0 → (getBar s o).error ≠ 0 → (getBar s o).error < 2 ^ 10 → (getBar s o).parked.Nodup → (getBar s o).arrived = 0 →
    (∀ w ∈ (getBar s o).parked, (getWave s w).status ≠ .absent ∧ (getWave s w).status ≠ .ended ∧ (getWave s w).shadow = false) →
    ∃ t, exec (.barrierCountingCycle o) s = .next t ∧ Claims.barErr (readObj t o).2 ∧ Claims.barEcause (readObj t o).2 = (getBar s o).error ∧
      Claims.barWaiters (readObj t o).2 = 0 ∧ (getBar t o).parked = [] ∧ (getBar t o).error = 0 ∧
      ∀ w ∈ (getBar s o).parked, (getWave t w).waits = (getWave s w).waits.filter (fun z => !waitsOn o z) ∧
        ((getWave s w).status = .running → (getWave s w).pathA.on = false → (getWave s w).pathB.on = false → (getWave t w).status ≠ .running) ∧
        ∃ p ∈ (getWave t w).pend, p.cause = (getBar s o).error ∧ p.rank = 5 ∧
          p.lanes = ((getWave s w).waits.filter (waitsOn o)).foldl (fun m z => m ||| z.lanes) 0) ∧
  (∀ (s : State) (o : Nat), o % 2 = 0 → (getBar s o).error ≠ 0 → (getBar s o).error < 2 ^ 10 → (getBar s o).parked = [] → (getBar s o).arrived = 0 →
    ∃ t, exec (.barrierCountingCycle o) s = .next t ∧ Claims.eraseBench t = Claims.eraseBench s ∧
      let x := (readObj s o).2
      let y := (readObj t o).2
      Claims.barErr y ∧ Claims.barEcause y = (getBar s o).error ∧ Claims.barWaiters y = 0 ∧ y % 2 ^ 112 = x % 2 ^ 112 ∧ y / 2 ^ 146 % 2 ^ 6 = 0 ∧ y / 2 ^ 152 = x / 2 ^ 152 ∧
      (Claims.barArmedNow y ↔ Claims.barArmedNow x)) ∧
  (∀ (s : State) (o : Nat), Claims.IdleBench s o → (getBar s o).arrived = 0 → (getBar s o).tracked = true →
    let x := (readObj s o).2
    Claims.barAuto x → Claims.barArmedNow x → Claims.barTarget x ≤ Claims.barArrived x → ∃ t, exec (.barrierAutoRecomplete o) s = .next t ∧
      Claims.barPhase (readObj t o).2 = (Claims.barPhase x + 1) % 2 ^ 16 ∧ Claims.barArrived (readObj t o).2 = Claims.barArrived x - Claims.barTarget x ∧
      Claims.barArmedNow (readObj t o).2)

/-- The lanes that a route tag has released go on when its wires have told them; the tag releases no more (`routeTagRelease`). A parked WAITA
looks again, where its address stands now, when its location may have changed (`waitaWake`), or once it is watched afresh (`waitaReread`): a
value that differs ends it, D taking the value; an equal one leaves it parked; a fault that the read meets stops its path at the instruction
with the order and scope that it took. Its timeout ends it too, D taking the comparand (`waitaTimeout`; R194, R254, R261, R262, R400, R482). -/
def Obligations.WaitsEndAsTheirEventsCome : Prop :=
  (∀ (s : State) (die n : Nat), (getTag s die n).releasing = true → ∃ t, exec (.routeTagRelease die n) s = .next t ∧
    getTag t die n = { getTag s die n with releasing := false } ∧ { eraseWaves t with tags := [] } = { eraseWaves s with tags := [] } ∧
    (∀ k ∈ s.crews, coreDie k.2.core = die → ∀ w ∈ k.2.slots, (getWave t w).waits = (getWave s w).waits.filter (fun y => y.on != .tag (n + 8)))) ∧
  (∀ (s : State) (die n : Nat), (getTag s die n).releasing = false → exec (.routeTagRelease die n) s = .next s) ∧
  (∀ (s s1 : State) (w i : Nat) (z : Wait) (y : Watch) (v : Nat), Claims.WaitsFor s w i z y → rereadWait s w y = (s1, .ok v) →
    (v = y.cmp → exec (Claims.wakes y w i) s = .next s) ∧
    (v ≠ y.cmp → ∃ t, exec (Claims.wakes y w i) s = .next t ∧ (getWave t w).waits = (getWave s w).waits.erase z ∧
      (if y.size = 8 then sPair64 (getWave t w) y.d = v % 2 ^ 64 else sGet (getWave t w) y.d = v % 2 ^ 32) ∧ t.bench = s.bench)) ∧
  (∀ (s s1 : State) (i : Nat) (z : Wait) (y : Watch) (c : Nat), Claims.WaitsFor s s.cur i z y → rereadWait s s.cur y = (s1, .error c) →
    s.wave.status = .running → s.wave.pathA.on = false → s.wave.pathB.on = false → y.order < 8 → y.scope < 8 → s1.wave.late = [] →
    ∃ t, exec (Claims.wakes y s.cur i) s = .next t ∧ Raised s1 { t with wave := { t.wave with waits := s1.wave.waits } } c z.lanes ∧
      t.wave.waits = s.wave.waits.erase z ∧ slotOf t.wave (z.path == 1) = 128 + 16 * y.scope + y.order) ∧
  (∀ (s : State) (w i : Nat) (z : Wait) (y : Watch), Claims.WaitsFor s w i z y →
    (y.timeout ≠ 0 → ∃ t, exec (.waitaTimeout w i) s = .next t ∧ SameElse s t ∧ (∀ j, j ≠ w → getWave t j = getWave s j) ∧
      getWave t w = putWaitD { getWave s w with waits := (getWave s w).waits.erase z } y.size y.d y.cmp) ∧
    (y.timeout = 0 → exec (.waitaTimeout w i) s = .next s)) ∧
  (∀ (s : State) (w i : Nat), (getWave s w).waits[i]? = none →
    exec (.waitaWake w i) s = .next s ∧ exec (.waitaReread w i) s = .next s ∧ exec (.waitaTimeout w i) s = .next s)

namespace Sys2Proof.Claims

/-! ### Steps of a core's units: allocator, wave slots, completion entries, copy channels, gather-pool engine, matrix engine (R157 to R161,
R169, R273, R280, R287, R308 to R317, R394 to R396) -/

/-- The operation at the head of a core's matrix engine has left it and is counted no more; the rest of every core is the same. -/
def HeadLeft (s t : State) (core w : Nat) : Prop :=
  (getCore t core).engine = (getCore s core).engine.drop 1 ∧ (∀ j, { getCore t j with engine := [] } = { getCore s j with engine := [] }) ∧
  (getWave t w).tile = (getWave s w).tile - 1

/-- The mask of row `i` of A for K-step `st`, and whether it holds element `k`: every one of a dense record (R60). -/
def stepMask (s : State) (c : Crew) (a : ObRec) (st i : Nat) : Nat := s.bench.readN (crewBench c (recMask a + 4 * (64 * st + i))) 4
def present (s : State) (c : Crew) (a : ObRec) (st i k : Nat) : Bool := !recSparse a || (stepMask s c a st i).testBit k

/-- Where element `k` of row `i` stands in the panel of A: the present ones of a sparse record packed, in ascending order. -/
def placeA (s : State) (c : Crew) (a : ObRec) (st i k : Nat) : Nat :=
  if recSparse a then recN a * i + popCount (stepMask s c a st i) k else 24 * i + k

/-- The sum of products of one cell over integer operands (R60, R61): K-steps of 24. -/
def intDot (s : State) (c : Crew) (a b : ObRec) (i j : Nat) : Int :=
  ((List.range (recLen a)).map (fun st => ((List.range 24).map (fun k =>
    if present s c a st i k then planeSigned (panelOf s c (operandOf a) st) (recFmt a) (recElems a) (placeA s c a st i k) *
        planeSigned (panelOf s c (operandOf b) st) (recFmt b) 1536 (64 * k + j)
      else 0)).sum)).sum

/-- The exact products of a K-step of floating operands: at an absent element +0 times a finite element of B, and none with another (R61, R62). -/
def floatProducts (s : State) (c : Crew) (a b : ObRec) (st i j : Nat) : List FVal :=
  (List.range 24).filterMap (fun k =>
    let y := floatB s c (operandOf b) (panelOf s c (operandOf b) st) (24 * st + k) j
    if present s c a st i k then some (mulExact (planeFloat (panelOf s c (operandOf a) st) (recFmt a) (recElems a) (placeA s c a st i k)) y)
    else match y with | .fin neg _ e => some (.fin neg 0 e) | _ => none)

/-- A cell and its flags after the K-steps of floating operands: each adds the exact sum of its products, rounded once (R62). -/
def floatDot (s : State) (c : Crew) (a b : ObRec) (i j first : Nat) : Nat × Nat :=
  (List.range (recLen a)).foldl (fun acc st => match exactSum (floatProducts s c a b st i j) with
    | none => acc
    | some x => ((roundVal .fp32 .rne (addExact .rne (unpack .fp32 acc.1) x)).1, acc.2 ||| (roundVal .fp32 .rne (addExact .rne (unpack .fp32 acc.1) x)).2)) (first, 0)

/-- Flags have been added to a tile's status, whose other bits but INT stay. -/
def TileFlagged (c k : Crew) (tile fl : Nat) : Prop :=
  ∀ b < 32, b ≠ 7 → (tileStat k tile).getLsbD b = ((tileStat c tile).getLsbD b || (decide (b < 5) && fl.testBit b))

/-- The cells of a tile as a function gives them; every other tile's stay. -/
def TileIs (c k : Crew) (tile : Nat) (f : Nat → Nat → Nat) : Prop :=
  (∀ i j, i < 64 → j < 64 → cellOf k tile i j = f i j) ∧
  ∀ n i j, n ≠ tile → i < 64 → j < 64 → cellOf k n i j = cellOf c n i j

/-- The operation at the head of a core's engine, its crew's cells as they may stand. -/
def AtHead (s : State) (core : Nat) (o : TileOp) : Prop :=
  (∃ rest, (getCore s core).engine = o :: rest) ∧ smWf 0 (getCrew s o.crew).cell = true ∧ o.tile < 32

/-- The element that a drain takes of row `i` and column `j` of its window. -/
def drained (s : State) (o : TileOp) (d : Drain) (i j : Nat) : Nat × Nat := drainElem d (cellOf (getCrew s o.crew) o.tile (d.row0 + i) (d.col0 + j))

/-- What a drain leaves of its tile: its flags in the status, and with CLR zero cells. -/
def DrainedTile (s t : State) (o : TileOp) (d : Drain) : Prop :=
  let c := getCrew s o.crew
  let k := getCrew t o.crew
  (∃ fl, TileFlagged c k o.tile fl ∧ ∀ b < 5, fl.testBit b = true ↔ ∃ i < d.nrows, ∃ j < d.ncols, (drained s o d i j).2.testBit b = true) ∧
  (d.clr = false → tileInt k o.tile = tileInt c o.tile ∧ TileIs c k o.tile (cellOf c o.tile)) ∧
  (d.clr = true → tileInt k o.tile = false ∧ TileIs c k o.tile (fun _ _ => 0))

/-- The state block that a stream has in hand after a tile of logits `w`, the flags of its rows among them. -/
def streamed (x : LsState) (q : LsRec) (tile : Nat) (w : List (Nat × Nat)) : List (LsRow × Nat) :=
  x.rows.zipIdx.map (fun e => if q.nrows ≤ e.2 then (e.1, 0)
    else takeLogits x (q.vbase + 64 * tile) (((w.drop (64 * e.2)).take (if tile + 1 = q.ntiles ∧ q.nlast ≠ 0 then q.nlast else 64)).map (·.1)) e.1)

/-- The command at the head of a channel, and the channel's queue. -/
def Head (s : State) (core ch : Nat) (c : Command) : Prop := headCmd s core ch = some c
def chanQueue (s : State) (core ch : Nat) : List Command := smGet (getCore s core).chan [] ch

/-- POS, RETRACTED and SEQ of a WPTR (R310). -/
def wptrPos (v : DWord) : Nat := v.toNat % 2 ^ 31
def wptrSeq (v : DWord) : Nat := v.toNat / 2 ^ 32

/-- `v` is `s` with the core's pass of the allocator no longer due. -/
def PassMade (s v : State) (core : Nat) : Prop :=
  { v with cores := [] } = { s with cores := [] } ∧ ∀ j, getCore v j = if j = core then { getCore s j with passDue := (0, 0) } else getCore s j

/-- The command has left the head of its channel, CPY has fallen, and the object that it counts into, if any, has error 0x204 in it (R394). -/
def TagFailed (s t : State) (core ch : Nat) (c : Command) : Prop :=
  chanQueue t core ch = (chanQueue s core ch).drop 1 ∧ (getWave t c.w).cpy = (getWave s c.w).cpy - 1 ∧
  ∀ o, (cmdCopy c).bv = true → crewSlot (getCrew s c.crew) (cmdCopy c).slot = some o →
    let y := (readObj t o).2
    barErr y ∧ barEcause y = 0x204 ∧ barWaiters y = 0

/-- The bench holds the mirror word of a command: its channel's WPTR. -/
def Mirrored (t : State) (core ch : Nat) (c : Command) (k : Crew) : Prop :=
  ∀ i < 8, (t.bench.read (crewBench k (cmdCopy c).waddr + i)).toNat = (getWptr t core ch).toNat / 256 ^ i % 256

end Sys2Proof.Claims

/-- An allocator's pass (`allocatorPass`) grants what fits in rank order, a spilled crew's restore among it, and stops at the first that does
not; a request that another grant to its wave has left beyond the wave's limit faults with 0x009 instead (the model's choice, log entry 55);
with nothing asked nothing changes. In a grow stall, where no request fits and every lane waits, with one crew on the core and no
lane waiting for anything else, the GROWs of that crew fault with 0x202, and the allocator has none of them any more. With more crews, the last in rank is spilled, unless an operation
still writes its vector registers, and a pass follows (`growSpill`); it is restored when it is first in rank and fits: its waves run again
with the registers that they had (`spillRestore`; R158 to R161). Window granules are a crew's, in the order of log entry 56. -/
def Sys2Proof.Claims.AllocatorGrantsSpillsAndRestores : Prop :=
  (∀ (s : State) (core : Nat), asks s core = [] → ∃ t, exec (.allocatorPass core) s = .next t ∧ Claims.PassMade s t core) ∧
  (∀ (s : State) (core : Nat), ∃ v, Claims.PassMade s v core ∧ allocPass s core = grantAll v core (asks s core)) ∧
  (∀ (s : State) (core : Nat) (r : GrowReq) (rest : List Ask), asks s core = .grow r :: rest → (getCrew s (getWave s r.w).crew).spilled = false →
    (r.n ≤ granFree s core → grantAll s core (asks s core) = grantAll (grantGrow s core r) core rest ∧
      (stepping (getWave s r.w) = false → (getWave s r.w).gran + r.n ≤ granLimit (getWave s r.w) →
        (getWave (grantGrow s core r) r.w).gran = (getWave s r.w).gran + r.n ∧
        (getCore (grantGrow s core r) core).grow = (getCore s core).grow.erase r ∧ ∀ j, j ≠ r.w → getWave (grantGrow s core r) j = getWave s j) ∧
      (granLimit (getWave s r.w) < (getWave s r.w).gran + r.n → (getWave s r.w).status = .running → (getWave s r.w).shadow = false →
        (getWave (grantGrow s core r) r.w).gran = (getWave s r.w).gran ∧ (getCore (grantGrow s core r) core).grow = (getCore s core).grow.erase r ∧
        ∃ p ∈ (getWave (grantGrow s core r) r.w).pend, p.cause = 0x009 ∧ p.lanes = askLanes (getWave s r.w) r)) ∧
    (granFree s core < r.n → grantAll s core (asks s core) = s)) ∧
  (∀ (s : State) (core crew n : Nat) (rest : List Ask), asks s core = .restore crew n :: rest →
    (n ≤ granFree s core → crewHalted s (getCrew s crew) = false → grantAll s core (asks s core) = grantAll (restoreRegs s core crew) core rest) ∧
    (granFree s core < n ∨ crewHalted s (getCrew s crew) = true → grantAll s core (asks s core) = s)) ∧
  (∀ (s : State) (core : Nat) (c : Crew) (w : Nat) (k : Cont), w ∈ c.slots → c.slots.Nodup → k ∈ (getWave s w).conts → k.cond = .grow →
    (getWave s w).status = .running → (getWave s w).shadow = false →
    (∃ p ∈ (getWave (growDeadlock s core c) w).pend, p.cause = 0x202 ∧ p.lanes = k.lanes ∧ p.rank = 5) ∧
    ∀ r ∈ (getCore (growDeadlock s core c) core).grow, r.w ∉ c.slots) ∧
  (∀ (s : State) (core : Nat), let u := allocPass s core
    ((∀ k, unspilled u core ≠ [k]) ∨ growStall u core = false → exec (.allocatorPass core) s = .next u) ∧
    (∀ k, unspilled u core = [k] → growStall u core = true → (∀ w ∈ k.2.slots, waitLanes (getWave u w) = 0) →
      exec (.allocatorPass core) s = .next (growDeadlock u core k.2))) ∧
  (∀ (s : State) (core : Nat) (k : Nat × Crew), k ∈ unspilled s core → growStall s core = true → 2 ≤ (unspilled s core).length →
    (∀ j ∈ unspilled s core, j ≠ k → crewRank j.2 < crewRank k.2) →
    (writesVectors s k.2 = true → exec (.growSpill core) s = .next s) ∧
    (writesVectors s k.2 = false → exec (.growSpill core) s = .next (allocPass (spillCrew s core k.1 k.2) core))) ∧
  (∀ (s : State) (core : Nat), (unspilled s core).length ≤ 1 ∨ growStall s core = false → exec (.growSpill core) s = .next s) ∧
  (∀ (s : State) (core : Nat) (r : GrowReq) (rest : List Ask), asks s core = .grow r :: rest → (getCrew s (getWave s r.w).crew).spilled = false →
    r.n ≤ granFree s core → growStall s core = false) ∧
  (∀ (s : State) (core crew n : Nat) (rest : List Ask), asks s core = .restore crew n :: rest →
    (granFree s core < n ∨ crewHalted s (getCrew s crew) = true → exec (.spillRestore core crew) s = .next s) ∧
    (n ≤ granFree s core → crewHalted s (getCrew s crew) = false → ∀ v, loadGran s core (getCrew s crew).vif (getCrew s crew).blocks = (v, .ok ()) → ∃ t, exec (.spillRestore core crew) s = .next t ∧
      (getCrew t crew).spilled = false ∧ (getCrew t crew).blocks = [] ∧
      ∀ w ∈ (getCrew s crew).slots, (getWave v w).status = .spilled → (getWave t w).status = .running ∧ (getWave t w).v = (getWave v w).v)) ∧
  (∀ (x : Wave) (g r l : Nat), r < 8 → l < 32 → natBits (granNat x g) (32 * (32 * r + l) + 31) (32 * (32 * r + l)) = vGet x (8 * g + r) l)

/-- A wave that has ended and has nothing left in flight gives up its slot, and the allocator passes, but while its crew has cancelled commands
to issue again; the last of its crew ends the crew
(`waveSlotRelease`). A completion entry goes to the lowest register that names its engine, behind those it holds, up to 8; it is dropped
where none does, and ENG falls with those that count (`engineEntryPush`; R30, R158, R169, R308, R427). -/
def Sys2Proof.Claims.SlotsAndEntriesAreReleased : Prop :=
  (∀ (s : State) (w : Nat), (getWave s w).status = .ended → waveBusy s w = false → (getWave s w).partner = none →
    (getCrew s (getWave s w).crew).cancelled = [] →
    let ci := (getWave s w).crew
    let left := (getCrew s ci).slots.erase w
    ∃ u, exec (.waveSlotRelease w) s = .next (allocPass u (waveCore w)) ∧ getWave u w = {} ∧
      (left ≠ [] → (getCrew u ci).slots = left ∧ ∀ j, j ≠ w → getWave u j = getWave s j) ∧ (left = [] → getCrew u ci = {})) ∧
  (∀ (s : State) (w : Nat), (getWave s w).status ≠ .ended ∨ waveBusy s w = true ∨ (getCrew s (getWave s w).crew).cancelled ≠ [] → exec (.waveSlotRelease w) s = .next s) ∧
  (∀ (s : State) (e : Nat) (y : EngEntry), s.entries[e]? = some y → y.w < 2 ^ 24 →
    (∀ z ∈ s.entries.take e, ¬ (z.w = y.w ∧ z.code = y.code)) →
    let x := getWave s y.w
    let eng := if y.lowersEng then x.eng - 1 else x.eng
    ((x.status = .absent ∨ x.status = .ended ∨ ∀ i < 16, qmapCode x i ≠ y.code) → ∃ t, exec (.engineEntryPush e) s = .next t ∧
      t.entries = s.entries.eraseIdx e ∧ getWave t y.w = { x with eng := eng }) ∧
    (∀ i, x.status ≠ .absent → x.status ≠ .ended → i < 16 → qmapCode x i = y.code → (∀ j < i, qmapCode x j ≠ y.code) →
      ((smGet x.q [] i).length < 8 → ∃ t, exec (.engineEntryPush e) s = .next t ∧ t.entries = s.entries.eraseIdx e ∧
        getWave t y.w = { x with eng := eng, q := smSet x.q [] i (smGet x.q [] i ++ [y.data]) }) ∧
      (8 ≤ (smGet x.q [] i).length → exec (.engineEntryPush e) s = .next s)))

/-- A copy command starts with the next SEQ, POS at its base. A flit that is read whole lands in the bench at its place. A block that is in
and whose tag holds is verified, and POS, but for a cut-through copy's, moves over it, the mirror word with it. A block of a cut-through copy
whose tag fails rolls POS back to the end of the last verified one, marks it RETRACTED, SEQ unchanged, and ends the command, with 0x204 in its
object; any other block is fetched once more, then fails so with WPTR as it was. Of a failing cut-through copy whose mirror word meets parked
waves, that the word is left and 0x200 raised is the model's choice (log entry 66). A command with every unit verified
ends: it leaves the channel and CPY falls. A flit of an `.out` copy that is written whole moves POS over it. These are `copyCommandStart`,
`copyFlitDelivery`, `copyBlockVerified`, `chanTagFail`, `copyBlockRefetch` and `copyComplete` (R310 to R313, R394 to R396). -/
def Obligations.CopyChannelsMoveTheirBytes : Prop :=
  (∀ (s : State) (core ch : Nat) (c : Command), Claims.Head s core ch c → c.started = false → ∃ t, exec (.copyCommandStart core ch) s = .next t ∧
    Claims.wptrSeq (getWptr t core ch) = (Claims.wptrSeq (getWptr s core ch) + 1) % 2 ^ 32 ∧ Claims.wptrPos (getWptr t core ch) = cmdBase c % 2 ^ 31 ∧
    Claims.Head t core ch { c with started := true, wptr0 := getWptr s core ch } ∧ (Claims.chanQueue t core ch).drop 1 = (Claims.chanQueue s core ch).drop 1) ∧
  (∀ (s u : State) (core ch v : Nat) (c : Command), Claims.Head s core ch c → c.started = true → c.delivered < cmdTotal c → isPlane c = false → cmdOut c = false →
    cmdCut c = false → (cmdCopy c).wm = false → let n := min 64 (cmdTotal c - c.delivered)
    readStream s c (getCrew s c.crew).vif (coreDie core) c.delivered n = (u, .ok v) → cmdClobbers u c (c.vb + c.delivered) n = false →
    ∃ t, exec (.copyFlitDelivery core ch) s = .next t ∧ Claims.Head t core ch { c with delivered := c.delivered + n, read := decide (cmdTotal c ≤ c.delivered + n) } ∧
      (∀ i < n, (t.bench.read (crewBench (getCrew s c.crew) (c.vb + c.delivered) + i)).toNat = v / 256 ^ i % 256) ∧
      ∀ a, (a < crewBench (getCrew s c.crew) (c.vb + c.delivered) ∨ crewBench (getCrew s c.crew) (c.vb + c.delivered) + n ≤ a) → t.bench.read a = u.bench.read a) ∧
  (∀ (s u : State) (core ch m : Nat) (c : Command), Claims.Head s core ch c → c.started = true → c.delivered < cmdTotal c → isPlane c = false → cmdOut c = true →
    (cmdCopy c).wm = false → writeStream s c (getCrew s c.crew).vif (coreDie core) c.delivered (min 64 (cmdTotal c - c.delivered)) = (u, m, none) →
    ∃ t, exec (.copyFlitDelivery core ch) s = .next t ∧ Claims.Head t core ch { c with delivered := c.delivered + m, read := decide (cmdTotal c ≤ c.delivered + m), verified := c.delivered + m } ∧
      Claims.wptrPos (getWptr t core ch) = (cmdBase c + (c.delivered + m)) % 2 ^ 31) ∧
  (∀ (s : State) (core ch : Nat) (c : Command), Claims.Head s core ch c → (c.started = false ∨ cmdTotal c ≤ c.delivered) →
    exec (.copyFlitDelivery core ch) s = .next s) ∧
  (∀ (s : State) (core ch e : Nat) (c : Command), Claims.Head s core ch c → blockIn c = some e → (cmdCopy c).wm = false →
    ∃ t, exec (.copyBlockVerified core ch) s = .next t ∧ Claims.Head t core ch { c with verified := e, refetched := false } ∧
      (cmdCut c = false → Claims.wptrPos (getWptr t core ch) = (cmdBase c + e * cmdUnit c) % 2 ^ 31) ∧ (cmdCut c = true → getWptr t core ch = getWptr s core ch)) ∧
  (∀ (s : State) (core ch e : Nat) (c : Command), Claims.Head s core ch c → blockIn c = some e → (cmdCopy c).wm = true → (cmdCopy c).bv = false → cmdCut c = false →
    (mirrorClobbers s c = false → ∃ t, exec (.copyBlockVerified core ch) s = .next t ∧ Claims.Head t core ch { c with verified := e, refetched := false } ∧
      Claims.wptrPos (getWptr t core ch) = (cmdBase c + e * cmdUnit c) % 2 ^ 31 ∧ Claims.Mirrored t core ch c (getCrew s c.crew)) ∧
    (mirrorClobbers s c = true → live (getWave s c.w) ≠ 0 → (getWave s c.w).status = .running → ∃ t, exec (.copyBlockVerified core ch) s = .next t ∧
      t.bench = s.bench ∧ Claims.chanQueue t core ch = (Claims.chanQueue s core ch).drop 1 ∧ ∃ p ∈ (getWave t (mainWave s c.w)).pend, p.cause = 0x200 ∧ p.lanes = c.lanes)) ∧
  (∀ (s : State) (core ch e : Nat) (c : Command), Claims.Head s core ch c → blockIn c = some e →
    (cmdCut c = true → ∃ t, exec (.chanTagFail core ch) s = .next t ∧ Claims.TagFailed s t core ch c ∧
      Claims.wptrPos (getWptr t core ch) = (cmdBase c + c.verified * cmdUnit c) % 2 ^ 31 ∧ (getWptr t core ch).getLsbD 31 = true ∧
      Claims.wptrSeq (getWptr t core ch) = Claims.wptrSeq (getWptr s core ch) ∧
      ((cmdCopy c).wm = true → (cmdCopy c).bv = false → mirrorClobbers (placePos (unverified s c) core ch c c.verified true) c = false →
        Claims.Mirrored t core ch c (getCrew s c.crew))) ∧
    (cmdCut c = false → c.refetched = false → ∃ t, exec (.copyBlockRefetch core ch) s = .next t ∧
      Claims.Head t core ch { c with delivered := c.verified, read := decide (cmdTotal c ≤ c.verified), refetched := true }) ∧
    (cmdCut c = false → c.refetched = true → ∃ t, exec (.copyBlockRefetch core ch) s = .next t ∧ Claims.TagFailed s t core ch c ∧
      getWptr t core ch = getWptr s core ch)) ∧
  (∀ (s : State) (core ch : Nat), headCmd s core ch = none → ∀ i ∈ [Instr.copyCommandStart core ch, .copyFlitDelivery core ch, .copyBlockVerified core ch,
    .chanTagFail core ch, .copyBlockRefetch core ch, .copyComplete core ch], exec i s = .next s) ∧
  (∀ (s : State) (core ch : Nat) (c : Command), Claims.Head s core ch c → c.started = true → cmdTotal c ≤ c.verified →
    ∃ t, exec (.copyComplete core ch) s = .next t ∧ Claims.chanQueue t core ch = (Claims.chanQueue s core ch).drop 1 ∧
      (getWave t c.w).cpy = (getWave s c.w).cpy - 1)

/-- The matrix engine runs the operation at its head (`matrixOpComplete`), which leaves it, and TILE falls. An MMA adds to every cell of its tile
the products of its row of A and column of B: integers modulo 2^32, floating operands one rounding for each K-step of 24, an absent element of a
sparse A counting as +0; a mask that does not fit is 0x283 and changes no cell. MDRAIN writes its window's cells, converted, to the bench, to a
latent backing or into a context's drain queue, marks its flags and with CLR clears the tile; a format of the tile's other kind is 0x28A. MBYP
writes the tile as three panels in plane form. RSTAT gives rows' maximum, sum and sum of squares to registers, or the status word to a scalar.
LSTREAM makes each tile of logits in its tile and takes them into the rows of its state block, LSMERGE joins two blocks row by row, LSGRAD
replaces its tile by gradients. A fault goes to the issuing wave, or to another live one of the crew, with a replay entry, or with none into the
tile's status. A gather-pool command, of the engine's own choice (`gatherPoolComplete`), copies or sums its table rows, zeros or nothing for an
index from LIMIT on, and gives its entry (R60 to R62, R70, R273, R280 to R291, R294, R295, R315 to R317). That 0x28A comes before a drain's
address causes is the model's choice (log entry 36). -/
def Obligations.EnginesRunTheirOperations : Prop :=
  (∀ (s : State) (core : Nat), (getCore s core).engine = [] → exec (.matrixOpComplete core) s = .next s) ∧
  (∀ (s : State) (core : Nat) (o : TileOp) (f : F64R), Claims.AtHead s core o → o.instr = .mma64 f →
    let c := getCrew s o.crew
    (badMask s c o.ra = false → fmtFloat (recFmt o.ra) = false → ∃ t, exec (.matrixOpComplete core) s = .next t ∧ Claims.HeadLeft s t core o.w ∧ t.bench = s.bench ∧
      tileInt (getCrew t o.crew) o.tile = true ∧ Claims.TileFlagged c (getCrew t o.crew) o.tile 0 ∧
      Claims.TileIs c (getCrew t o.crew) o.tile (fun i j => (((cellOf c o.tile i j : Int) + Claims.intDot s c o.ra o.rb i j) % 2 ^ 32).toNat)) ∧
    (badMask s c o.ra = false → fmtFloat (recFmt o.ra) = true → ∃ t, exec (.matrixOpComplete core) s = .next t ∧ Claims.HeadLeft s t core o.w ∧ t.bench = s.bench ∧
      tileInt (getCrew t o.crew) o.tile = false ∧
      (∃ fl, Claims.TileFlagged c (getCrew t o.crew) o.tile fl ∧ ∀ b < 5, fl.testBit b = true ↔
        ∃ i < 64, ∃ j < 64, (Claims.floatDot s c o.ra o.rb i j (cellOf c o.tile i j)).2.testBit b = true) ∧
      Claims.TileIs c (getCrew t o.crew) o.tile (fun i j => (Claims.floatDot s c o.ra o.rb i j (cellOf c o.tile i j)).1 % 2 ^ 32)) ∧
    (badMask s c o.ra = true → exec (.matrixOpComplete core) s = .next (tileFault s core o 0x283 0) ∧
      (getCrew (tileFault s core o 0x283 0) o.crew).cell = c.cell)) ∧
  (∀ (s : State) (core : Nat) (o : TileOp) (cause addr : Nat), let t := tileFault s core o cause addr
    (getCore t core).engine = (getCore s core).engine.drop 1 ∧ (getWave t o.w).tile = (getWave s o.w).tile - 1 ∧ t.bench = s.bench ∧ t.mem = s.mem ∧
    (∀ w, faultWave s o.w o.crew = some w → (getWave s w).status = .running → (getWave s w).shadow = false →
      (∃ p ∈ (getWave t w).pend, p.cause = cause ∧ p.lanes = o.lanes ∧ p.rank = 4) ∧
      ∃ r, (getWave t w).replay = insertReplay r (getWave s w).replay ∧ r.ecause = cause ∧ r.rlanes = o.lanes ∧ r.ipc = o.pc ∧ r.parcels = o.parcels ∧
        r.operands = o.operands ∧ r.seq = o.seq) ∧
    (∀ f, o.instr = .lsmerge64 f → faultWave s o.w o.crew = none → getCrew t o.crew = getCrew s o.crew) ∧
    ((∀ f, o.instr ≠ .lsmerge64 f) → faultWave s o.w o.crew = none → cause < 2 ^ 10 →
      (tileStat (getCrew t o.crew) o.tile).getLsbD 6 = true ∧ (tileStat (getCrew t o.crew) o.tile).toNat / 2 ^ 8 % 2 ^ 10 = cause)) ∧
  (∀ (s : State) (core : Nat) (o : TileOp) (f : F64P), Claims.AtHead s core o → o.instr = .mdrain64 f →
    let d := drainOf f
    let c := getCrew s o.crew
    let n := fmtBytes d.ofmt
    let addr := o.operands.getD 1 0
    let die := coreDie core
    let ctx := 16 * die + d.ctx
    let mine : Prop := vifPkg c.vif = die / 2 ∧ (partField s c.vif 88 4).testBit (16 * (die % 2) + d.ctx) = true
    let fails (e a : Nat) : Prop := exec (.matrixOpComplete core) s = .next (tileFault (slotEnd s c d.bv d.slot 0 0) core o e a)
    (tileInt c o.tile ≠ drainInt d.ofmt → fails 0x28A 0) ∧
    (tileInt c o.tile = drainInt d.ofmt → d.dst = 0 → d.ncols * n ≤ d.stride →
      ((∃ e ∈ drainOffsets d, spanClobbers s c (addr + e.2.2) n = true) → fails 0x200 addr) ∧
      ((∀ e ∈ drainOffsets d, spanClobbers s c (addr + e.2.2) n = false) → ∃ t, exec (.matrixOpComplete core) s = .next t ∧
        (getCore t core).engine = (getCore s core).engine.drop 1 ∧ (getWave t o.w).tile = (getWave s o.w).tile - 1 ∧ Claims.DrainedTile s t o d ∧
        (∀ i j k, i < d.nrows → j < d.ncols → k < n →
          (t.bench.read (crewBench c (addr + i * d.stride + j * n) + k)).toNat = (Claims.drained s o d i j).1 / 256 ^ k % 256) ∧
        (∀ a, (∀ i j, i < d.nrows → j < d.ncols → a < crewBench c (addr + i * d.stride + j * n) ∨ crewBench c (addr + i * d.stride + j * n) + n ≤ a) →
          t.bench.read a = s.bench.read a) ∧
        (∀ k, d.bv = true → crewSlot c d.slot = some k → (getBar t k).arrived = (getBar s k).arrived + d.nrows * d.ncols * n))) ∧
    (tileInt c o.tile = drainInt d.ofmt → d.dst = 1 → c.cellPoison = [] → (∀ e, latentCause s c.vif die addr (drainSpan d) = some e → fails e addr) ∧
      (latentCause s c.vif die addr (drainSpan d) = none → ∃ t, exec (.matrixOpComplete core) s = .next t ∧ t.bench = s.bench ∧ Claims.DrainedTile s t o d ∧
        let u := (List.range d.nrows).foldl (fun u i => (writeVirt u c.vif die ((addr + i * d.stride) % 2 ^ 64) true
          (natBytes (d.ncols * n) ((List.range d.ncols).foldr (fun j r => (Claims.drained s o d i j).1 % 256 ^ n + 256 ^ n * r) 0))).1) s
        t.mem = (performAt u die (max 5 (slotScope u c d.bv d.slot))).mem)) ∧
    (tileInt c o.tile = drainInt d.ofmt → d.dst = 2 → (¬ mine → fails 0x102 0) ∧
      (mine → 65536 < drainBytes (getCtx s ctx).drain + d.nrows * d.ncols * n → exec (.matrixOpComplete core) s = .next s) ∧
      (mine → drainBytes (getCtx s ctx).drain + d.nrows * d.ncols * n ≤ 65536 → ∃ t, exec (.matrixOpComplete core) s = .next t ∧ t.bench = s.bench ∧
        Claims.DrainedTile s t o d ∧ (∀ m, m ≠ ctx → getCtx t m = getCtx s m) ∧
        (getCtx t ctx).drain = (getCtx s ctx).drain ++ (List.range (d.nrows * d.ncols)).map (fun k =>
          (d.elem + k, d.ofmt, (Claims.drained s o d (k / d.ncols) (k % d.ncols)).1))))) ∧
  (∀ (s : State) (core : Nat) (o : TileOp) (f : F64R), Claims.AtHead s core o → o.instr = .mbyp64 f →
    let c := getCrew s o.crew
    let fmt := recFmt o.ra
    let at' (st : Nat) : Nat := recBase o.ra + st * recStride o.ra
    let elem (st e : Nat) : Nat × Nat := if 24 * st + e % 24 < 64 then bypElem fmt (cellOf c o.tile (e / 24) (24 * st + e % 24)) else (0, 0)
    ((∃ st < 3, spanClobbers s c (at' st) (panelBytes fmt 1536) = true) → exec (.matrixOpComplete core) s = .next (tileFault s core o 0x200 (recBase o.ra))) ∧
    ((∀ st < 3, spanClobbers s c (at' st) (panelBytes fmt 1536) = false) → ∃ t, exec (.matrixOpComplete core) s = .next t ∧
      (getCore t core).engine = (getCore s core).engine.drop 1 ∧ (getWave t o.w).tile = (getWave s o.w).tile - 1 ∧
      t.bench = (List.range 3).foldl (fun m st => m.writeN (crewBench c (at' st)) (panelBytes fmt 1536) (panelNat fmt ((List.range 1536).map (fun e => (elem st e).1)))) s.bench ∧
      (f.fn.getLsbD 5 = false → Claims.TileIs c (getCrew t o.crew) o.tile (cellOf c o.tile)) ∧
      (f.fn.getLsbD 5 = true → tileInt (getCrew t o.crew) o.tile = false ∧ Claims.TileIs c (getCrew t o.crew) o.tile (fun _ _ => 0)))) ∧
  (∀ (s : State) (core : Nat) (o : TileOp) (f : F64R), Claims.AtHead s core o → o.instr = .rstat64 f → let c := getCrew s o.crew
    (f.fn.getLsbD 0 = true → live (getWave s o.w) ≠ 0 → ∃ t, exec (.matrixOpComplete core) s = .next t ∧ Claims.HeadLeft s t core o.w ∧
      sGet (getWave t o.w) f.d.toNat = (tileStat c o.tile).toNat ∧
      (tileStat (getCrew t o.crew) o.tile).getLsbD 6 = (if f.fn.getLsbD 1 then false else (tileStat c o.tile).getLsbD 6)) ∧
    (f.fn.getLsbD 0 = false → ∃ t, exec (.matrixOpComplete core) s = .next t ∧ Claims.HeadLeft s t core o.w ∧
      Claims.TileIs c (getCrew t o.crew) o.tile (cellOf c o.tile) ∧
      ∀ i < 64, ∀ q < 3, let d := f.d.toNat + 2 * q + i / 32
        o.lanes.getLsbD (i % 32) = true → (live (getWave s o.w)).getLsbD (i % 32) = true → d < o.vlimit → d < 8 * (getWave s o.w).gran →
        vGet (getWave t o.w) d (i % 32) = ([(rowStats c o.tile i).1, (rowStats c o.tile i).2.1, (rowStats c o.tile i).2.2.1].getD q 0) % 2 ^ 32)) ∧
  (∀ (s s0 : State) (core tile : Nat) (rest : List Nat) (o : TileOp) (q : LsRec), s.benchPoison = [] →
    let c := getCrew s o.crew
    let x := readLs s c o.rc
    let w := tileValues (fun i j => productCell s c (operandOf o.ra) (weightTile o.rb tile) (panelsOf s c (operandOf o.ra) (weightTile o.rb tile)) i j 0)
    let rs := Claims.streamed x q tile w
    let u := modCrew s o.crew (fun c => tileFlags (setInt (newTile c o.tile (w.map (·.1))) o.tile false) o.tile (flagsOf w ||| flagsOf (rs.map (fun r => (0, r.2)))))
    let y := { x with rows := rs.map (·.1), tiles := (x.tiles + 1) % 2 ^ 32, status := 0 }
    (lsClobbers u c o.rc = false → lsUsed y ≤ sheetCap o.rc → streamTiles s0 s core o q (tile :: rest) = streamTiles s0 (writeLs u c o.rc y) core o q rest) ∧
    (orphan u o = false → lsClobbers u c o.rc = true → streamTiles s0 s core o q (tile :: rest) = tileFault u core o 0x200 (recBase o.rc)) ∧
    (lsClobbers u c o.rc = false → sheetCap o.rc < lsUsed y → let v := cWrite u c (recBase o.rc + 15) 1 1
      streamTiles s0 s core o q (tile :: rest) = tileFault (if orphan v o then s0 else v) core o 0x280 0) ∧
    streamTiles s0 s core o q [] = finishTile (modCrew s o.crew (fun c => newTile c o.tile [])) core o) ∧
  (∀ (s : State) (core : Nat) (o : TileOp) (f : F64P), (∃ rest, (getCore s core).engine = o :: rest) → o.instr = .lstream64 f → o.resumed = false →
    let q := lsRecOf f
    let c := getCrew s o.crew
    (q.init = false → exec (.matrixOpComplete core) s = .next (streamTiles s s core { o with t0 := some (readLs s c o.rc).tiles } q (List.range q.ntiles))) ∧
    (q.init = true → lsClobbers s c o.rc = false → exec (.matrixOpComplete core) s =
      .next (streamTiles s (writeLs (cWrite s c (recBase o.rc) (recLen o.rc * 256) 0) c o.rc (lsInit s c q)) core { o with t0 := some 0 } q (List.range q.ntiles)) ∧
      (lsInit s c q).tiles = 0 ∧ ∀ i < q.nrows, ∃ z, (lsInit s c q).rows[i]? = some z ∧ z.m = 0xFF800000 ∧ z.s = 0 ∧ z.sheet = [] ∧ z.flags = 0 ∧ z.found = 0)) ∧
  (∀ (s : State) (core : Nat) (o : TileOp) (f : F64R), (∃ rest, (getCore s core).engine = o :: rest) → o.instr = .lsmerge64 f → o.resumed = false → s.benchPoison = [] →
    let c := getCrew s o.crew
    let d := readLs s c o.rc
    let x := readLs s c o.ra
    let rs := (d.rows.zip x.rows).zipIdx.map (fun e => if e.2 < d.nrows then mergeRow d e.1.1 e.1.2 else (e.1.1, 0))
    let y := { d with rows := rs.map (·.1), shhi := x.shhi, tiles := (d.tiles + x.tiles) % 2 ^ 32
                      mflags := (d.mflags ||| x.mflags ||| flagsOf (rs.map (fun r => (0, r.2)))) % 32 }
    (lsClobbers s c o.rc = true → exec (.matrixOpComplete core) s = .next (tileFault s core o 0x200 (recBase o.rc))) ∧
    (lsClobbers s c o.rc = false → sheetCap o.rc < lsUsed y → exec (.matrixOpComplete core) s = .next (tileFault s core o 0x280 0)) ∧
    (lsClobbers s c o.rc = false → lsUsed y ≤ sheetCap o.rc → exec (.matrixOpComplete core) s = .next (finishTile (writeLs s c o.rc y) core o))) ∧
  (∀ (s : State) (core : Nat) (o : TileOp) (f : F64P), Claims.AtHead s core o → o.instr = .lsgrad64 f →
    let c := getCrew s o.crew
    let x := readLs s c o.rc
    let nrows := f.w1.toNat / 2 ^ 8 % 64 + 1
    let nvalid := if f.w0.toNat / 2 ^ 24 % 128 = 0 then 64 else f.w0.toNat / 2 ^ 24 % 128
    ∃ t, exec (.matrixOpComplete core) s = .next t ∧ Claims.HeadLeft s t core o.w ∧ t.bench = s.bench ∧ tileInt (getCrew t o.crew) o.tile = false ∧
      Claims.TileIs c (getCrew t o.crew) o.tile (fun i j => if nrows ≤ i ∨ nvalid ≤ j then 0 else
        (gradCell x (x.rows.getD i {}) (f.w0.toNat % 2 ^ 24 + j) f.w3.toNat
          (productCell s c (operandOf o.ra) (operandOf o.rb) (panelsOf s c (operandOf o.ra) (operandOf o.rb)) i j 0).1).1 % 2 ^ 32)) ∧
  (∀ (s : State) (cl i : Nat), (smGet s.gathers [] cl)[i]? = none → exec (.gatherPoolComplete cl i) s = .next s) ∧
  (∀ (s : State) (cl i : Nat) (c : Command), (smGet s.gathers [] cl)[i]? = some c →
    let q := cmdGather c
    let cr := getCrew s c.crew
    let die := cl / 32
    let s1 := { s with gathers := smMod s.gathers [] cl (fun l => l.eraseIdx i) }
    let run := if q.pool then poolBags s1 cr die c {} 0 q.nbag else gatherRows s1 cr die c {} 0 q.nidx
    let fails (u : State) (e a : Nat) : Prop := exec (.gatherPoolComplete cl i) s = .next (cmdFault (lowerEng (slotEnd u cr q.bv q.slot 0 0) c.w) c e a)
    (badOffsets s1 cr c = true → fails s1 0x20A 0) ∧
    (badOffsets s1 cr c = false → q.dsp = false →
      (∀ u e a, run = (u, .error (e, a)) → fails u e a) ∧
      (∀ u t, run = (u, .ok t) → exec (.gatherPoolComplete cl i) s = .next (pushEntry (slotEnd u cr q.bv q.slot (outBytes q) 0) c.w 2
        [c.seq, t.flags % 32 + (if t.oob = 0 then 0 else 2 ^ 8) + (if t.poison then 2 ^ 9 else 0), t.oob, t.first] true)))) ∧
  (∀ (s : State) (cr : Crew) (die : Nat) (c : Command) (a : Tally) (n k : Nat),
    let q := cmdGather c
    let len := q.rowLen * gatherSize q.efmt
    let idx := cRead s cr (c.vb + n * idxBytes q) (idxBytes q)
    (c.vd ≤ idx → ∀ v, writeOut s cr die c (n * len) len 0 false = (v, .ok ()) →
      gatherRows s cr die c a n (k + 1) = gatherRows v cr die c { a with oob := a.oob + 1, first := if a.oob = 0 then n else a.first } (n + 1) k) ∧
    (idx < c.vd → ∀ u v row p, engReadN s cr.vif die q.tsp ((c.va + idx * q.tstride) % 2 ^ 64) len = (u, .ok (row, p)) → writeOut u cr die c (n * len) len row p = (v, .ok ()) →
      gatherRows s cr die c a n (k + 1) = gatherRows v cr die c { a with poison := a.poison || p } (n + 1) k) ∧
    gatherRows s cr die c a n 0 = (s, .ok a)) ∧
  (∀ (s : State) (cr : Crew) (die : Nat) (c : Command) (a : Tally) (b k : Nat),
    let q := cmdGather c
    let lo := offsetAt s cr c b
    ∀ u v acc p a', bagSum s cr die c (List.replicate q.rowLen (2 ^ 31, 0)) false a lo (offsetAt s cr c (b + 1) - lo) = (u, .ok (acc, p, a')) →
      writeOut u cr die c (b * q.rowLen * 4) (q.rowLen * 4) (acc.foldr (fun e r => e.1 + 2 ^ 32 * r) 0) p = (v, .ok ()) →
      poolBags s cr die c a b (k + 1) = poolBags v cr die c { a' with flags := a'.flags ||| flagsOf acc } (b + 1) k ∧
      poolBags s cr die c a b 0 = (s, .ok a))

namespace Sys2Proof.Claims

/-! ### Launch rings, tasks, batches, placement (R116, R299 to R305, R308, R318 to R326, R484) -/

/-- The front end finds packet `p` at TAIL `tail` of ring `r`, whose turn it is; looking leaves `u`. -/
def Turn (s : State) (r p tail : Nat) (u : State) : Prop :=
  lookRing s r = (u, .packet p tail) ∧ ringTurn s (r / 16 / 64) = some r

/-- The packet's offset in its ring. -/
def offOf (s : State) (r tail : Nat) : Nat := tail % (getRing s r).size

/-- The steps of the packets by their OPC. -/
def packetRow (ev : Instr) : Option (Nat × Nat) :=
  match ev with
  | .launch r => some (r, 1)
  | .tasks r => some (r, 2)
  | .nodes r => some (r, 3)
  | .event r => some (r, 4)
  | .waitv r => some (r, 5)
  | _ => none

/-- The newest launch of a package. -/
def Launched (s v : State) (r p : Nat) (l : Launch) : Prop :=
  (getPkg v (r / 16 / 64)).launches = (getPkg s (r / 16 / 64)).launches ++ [l] ∧ l.id = (getPkg s (r / 16 / 64)).nextLaunch ∧
  (getPkg v (r / 16 / 64)).nextLaunch = (getPkg s (r / 16 / 64)).nextLaunch + 1 ∧ l.ring = r ∧ l.vif = r / 16 ∧ l.packet = BitVec.ofNat 512 p ∧ l.complete = false

/-- DIE, FIRST, COUNT, IMAGE of TASKS and NODES, within their limits. -/
def tablePacketOk (p limit reserved : Nat) : Prop :=
  pk p 1 1 ≤ 1 ∧ pk p 2 2 = 0 ∧ pk p reserved (64 - reserved) = 0 ∧ pk p 4 2 + (pk p 6 2 + 1) ≤ limit

/-- A wave as placement leaves it: a compute wave, or a shadow, at its own entry, with the values of its compute wave (R116, R305). -/
def PlacedWave (x : Wave) (l : Launch) (crew w : Nat) (shadow : Bool) (partner : Option Nat) : Prop :=
  let p := l.packet.toNat
  x.status = .running ∧ x.crew = crew ∧ x.idx = w ∧ x.shadow = shadow ∧ x.partner = partner ∧ x.vif = l.vif ∧ x.gran = lGran p ∧
  sGet x 0 = l.next % 2 ^ 32 ∧ sGet x 1 = w ∧ sPair64 x 2 = l.args.toNat ∧ sGet x 4 = lCrews p % 2 ^ 32 ∧ sGet x 5 = l.task % 2 ^ 32 ∧
  (∀ j, 6 ≤ j → sGet x j = 0) ∧ prio x = lPrio p % 8 ∧ x.wsw.getLsbD 11 = shadow ∧ x.v = [] ∧ x.q = [] ∧ (lShadow p = true → x.qmap0 = 0x11111111) ∧
  ∀ ln < 32, ((live x).getLsbD ln = true ↔ 32 * w + ln < lThreads p) ∧
    (32 * w + ln < lThreads p → (getLane x ln).pc = BitVec.ofNat 64 (if shadow then lShentry p else lEntry p) ∧ (getLane x ln).mid = false)

/-- A task entry as it is loaded: READY is set where it is VALID and its count is zero (R319). -/
def loadedTask (x : Nat) : Nat := if x.testBit 31 = true ∧ x % 65536 = 0 then x + 2 ^ 30 else x

end Sys2Proof.Claims

/-- At a ring's turn its packet is taken: a LAUNCH joins the launch list, TASKS and NODES load their tables whole, an EVENT is recorded,
a WAITV lets the ring pass once its word has reached the value and holds it until then; TAIL then passes the packet. A packet that is
malformed, or not known, or across the ring's end, or whose image cannot be read, stops its ring with its REASON; a control block that
cannot be read loses the ring. Out of turn, or with nothing to process, nothing happens. These are `launch`, `tasks`, `nodes`, `event`, `waitv`,
`unknownOpcode` and `straddle` (R299 to R303, R319, R323, R326, R484). -/
def Sys2Proof.Claims.RingPacketsAreTaken : Prop :=
  (∀ (ev : Instr) (s u : State) (r o p tail : Nat), Claims.packetRow ev = some (r, o) → lookRing s r = (u, .packet p tail) →
    (pktOpc p ≠ o ∨ ringTurn s (r / 16 / 64) ≠ some r) → exec ev s = .next s) ∧
  (∀ (ev : Instr) (s u : State) (r o : Nat), Claims.packetRow ev = some (r, o) → (lookRing s r = (u, .idle) ∨ ∃ tail, lookRing s r = (u, .straddle tail)) →
    exec ev s = .next s) ∧
  (∀ (ev : Instr) (s u : State) (r o c : Nat), Claims.packetRow ev = some (r, o) → lookRing s r = (u, .lost c) → exec ev s = .next (loseRing u r c)) ∧
  (∀ (ev : Instr) (s u : State) (r o tail : Nat), Claims.packetRow ev = some (r, o) → lookRing s r = (u, .unread tail) →
    exec ev s = .next (stopRing u r 6 (Claims.offOf s r tail))) ∧
  (∀ (s u : State) (r p tail : Nat), Claims.Turn s r p tail u → pktOpc p = 1 →
    (∀ k, launchReason u r p = some k → exec (.launch r) s = .next (stopRing u r k (Claims.offOf u r tail))) ∧
    (launchReason u r p = none → ∃ v l, exec (.launch r) s = .next (takePacket v r tail) ∧ Claims.Launched u v r p l ∧ l.kind = 0 ∧
      l.ringSeq = (getRing u r).fetched ∧ l.args = BitVec.ofNat 64 (lArgs p) ∧ (getRing v r).fetched = (getRing u r).fetched + 1)) ∧
  (∀ (s u : State) (r p tail : Nat), Claims.Turn s r p tail u → pktOpc p = 2 →
    let die := 2 * (r / 16 / 64) + pk p 1 1
    (¬ Claims.tablePacketOk p 65536 16 → exec (.tasks r) s = .next (stopRing u r 1 (Claims.offOf u r tail))) ∧
    (∀ v l, Claims.tablePacketOk p 65536 16 → readImage u (r / 16) (pk p 8 8) (pk p 6 2 + 1) = (v, .ok l) →
      (l.any badTask = true → exec (.tasks r) s = .next (stopRing v r 1 (Claims.offOf u r tail))) ∧
      (l.any badTask = false → ∃ z, exec (.tasks r) s = .next (takePacket z r tail) ∧ { z with tasks := [], taskUnits := [] } = { v with tasks := [], taskUnits := [] } ∧
        (∀ i < l.length, getTask z die (pk p 4 2 + i) = Claims.loadedTask (l.getD i 0) % 2 ^ 256) ∧
        ∀ i, i < 65536 → (i < pk p 4 2 ∨ pk p 4 2 + l.length ≤ i) → getTask z die i = getTask v die i)) ∧
    (∀ v c, Claims.tablePacketOk p 65536 16 → readImage u (r / 16) (pk p 8 8) (pk p 6 2 + 1) = (v, .error c) →
      exec (.tasks r) s = .next (stopRing v r 6 (Claims.offOf u r tail)))) ∧
  (∀ (s u : State) (r p tail : Nat), Claims.Turn s r p tail u → pktOpc p = 3 →
    let die := 2 * (r / 16 / 64) + pk p 1 1
    (¬ Claims.tablePacketOk p 4096 28 → exec (.nodes r) s = .next (stopRing u r 1 (Claims.offOf u r tail))) ∧
    (∀ v l, Claims.tablePacketOk p 4096 28 → readImage u (r / 16) (pk p 8 8) (pk p 6 2 + 1) = (v, .ok l) →
      (l.any badNode = true → exec (.nodes r) s = .next (stopRing v r 1 (Claims.offOf u r tail))) ∧
      (l.any badNode = false → ∃ z, exec (.nodes r) s = .next (takePacket z r tail) ∧ { z with nodes := [], taskUnits := [] } = { v with nodes := [], taskUnits := [] } ∧
        (∀ i < l.length, getNode z die (pk p 4 2 + i) = l.getD i 0 % 2 ^ 256) ∧ (getUnit z die).store = pk p 16 8 ∧ (getUnit z die).units = pk p 24 4 ∧
        (3 * pk p 24 4 < 4 * occupancy (getUnit v die) → (getUnit z die).depthFirst = true) ∧ (2 * occupancy (getUnit v die) < pk p 24 4 → (getUnit z die).depthFirst = false))) ∧
    (∀ v c, Claims.tablePacketOk p 4096 28 → readImage u (r / 16) (pk p 8 8) (pk p 6 2 + 1) = (v, .error c) →
      exec (.nodes r) s = .next (stopRing v r 6 (Claims.offOf u r tail)))) ∧
  (∀ (s u : State) (r p tail : Nat), Claims.Turn s r p tail u → pktOpc p = 4 →
    let ok : Prop := pk p 1 1 ≤ 1 ∧ pk p 2 6 = 0 ∧ pk p 24 40 = 0
    (¬ ok → exec (.event r) s = .next (stopRing u r 1 (Claims.offOf u r tail))) ∧
    (ok → ∃ v, exec (.event r) s = .next (takePacket v r tail) ∧
      (getRing v r).events = (getRing u r).events ++ [((getRing u r).fetched, pk p 8 8, pk p 16 8, pk p 1 1 == 1, Claims.offOf u r tail)])) ∧
  (∀ (s u : State) (r p tail : Nat), Claims.Turn s r p tail u → pktOpc p = 5 →
    let ok : Prop := pk p 1 7 = 0 ∧ pk p 24 40 = 0
    (¬ ok → exec (.waitv r) s = .next (stopRing u r 1 (Claims.offOf u r tail))) ∧
    (∀ v w, ok → frontRead u (r / 16) (pk p 8 8) 8 = (v, .ok w) →
      (pk p 16 8 ≤ w → exec (.waitv r) s = .next (takePacket (modRing v r (fun x => { x with held := false })) r tail)) ∧
      (w < pk p 16 8 → exec (.waitv r) s = .next (modRing v r (fun x => { x with held := true })))) ∧
    (∀ v c, ok → frontRead u (r / 16) (pk p 8 8) 8 = (v, .error c) →
      exec (.waitv r) s = .next (stopRing (modRing v r (fun x => { x with held := false })) r 6 (Claims.offOf u r tail)))) ∧
  (∀ (s u : State) (r p tail : Nat), Claims.Turn s r p tail u → (pktOpc p = 0 ∨ 6 ≤ pktOpc p) →
    exec (.unknownOpcode r) s = .next (stopRing u r 2 (Claims.offOf s r tail))) ∧
  (∀ (s u : State) (r tail : Nat), lookRing s r = (u, .straddle tail) → exec (.straddle r) s = .next (stopRing u r 3 (Claims.offOf s r tail)))

/-- A recorded EVENT is written once every LAUNCH of its ring before it has completed, in their order, with its interrupt where it asks for
one. A held WAITV looks again and passes once its word has reached the value. A stopped ring whose driver clears ERROR goes on at TAIL,
or where the driver has put TAIL. A stop writes its REASON and offset to ERROR and interrupts. A write that a page refuses writes nothing. That a
faulted EVENT is not tried again, and that later ones of a stopped ring still write, is the model's choice (log entry 70). These
are `eventWrite`, `waitvSatisfied` and `ringRestart` (R301, R303, R484). -/
def Sys2Proof.Claims.EventsAndStopsAreWritten : Prop :=
  (∀ (s : State) (r n addr value : Nat) (irq : Bool) (off : Nat) (rest : List (Nat × Nat × Nat × Bool × Nat)),
    (getRing s r).events = (n, addr, value, irq, off) :: rest →
    (launchesDone s r n = false → exec (.eventWrite r) s = .next s) ∧
    (launchesDone s r n = true → ∀ v, frontWrite (modRing s r (fun x => { x with events := rest })) (r / 16) addr 8 value = (v, .ok ()) →
      ∃ t, exec (.eventWrite r) s = .next t ∧ { t with notes := [] } = { v with notes := [] } ∧
        t.notes = if irq then v.notes ++ [.interrupt (vifPkg (r / 16)) (r / 16 % 64 + 1) 5] else v.notes) ∧
    (launchesDone s r n = true → ∀ v c, frontWrite (modRing s r (fun x => { x with events := rest })) (r / 16) addr 8 value = (v, .error c) →
      exec (.eventWrite r) s = .next (stopRing v r 6 off))) ∧
  (∀ (s : State) (r : Nat), (getRing s r).events = [] → exec (.eventWrite r) s = .next s) ∧
  (∀ (s : State) (vif va n x c : Nat), frontSpan s vif va n 1 = .error c → frontWrite s vif va n x = (s, .error c)) ∧
  (∀ (s : State) (r : Nat), (getRing s r).held = false → exec (.waitvSatisfied r) s = .next s) ∧
  (∀ (s : State) (r : Nat) (tail : Option Nat), ((getRing s r).configured = false ∨ (getRing s r).lost = true) → exec (.ringRestart r tail) s = .next s) ∧
  (∀ (s u v : State) (r p tail w : Nat), (getRing s r).held = true → lookRing s r = (u, .packet p tail) → pktOpc p = 5 →
    frontRead u (r / 16) (pk p 8 8) 8 = (v, .ok w) → pk p 1 7 = 0 → pk p 24 40 = 0 →
    (w < pk p 16 8 → exec (.waitvSatisfied r) s = .next s) ∧
    (pk p 16 8 ≤ w → exec (.waitvSatisfied r) s = .next (takePacket (modRing v r (fun x => { x with held := false })) r tail))) ∧
  (∀ (s u v : State) (r e : Nat), (getRing s r).configured = true → (getRing s r).lost = false → frontRead s (r / 16) ((getRing s r).ctl + 72) 8 = (u, .ok e) →
    (e.testBit 63 = false → ∀ tail, exec (.ringRestart r tail) s = .next s) ∧
    (e.testBit 63 = true → (exec (.ringRestart r none) s = .next (frontWrite u (r / 16) ((getRing s r).ctl + 72) 8 0).1 ∧
      ∀ a, frontWrite u (r / 16) ((getRing s r).ctl + 64) 8 a = (v, .ok ()) →
        exec (.ringRestart r (some a)) s = .next (frontWrite v (r / 16) ((getRing s r).ctl + 72) 8 0).1))) ∧
  (∀ (s v : State) (r k off : Nat), frontWrite s (r / 16) ((getRing s r).ctl + 72) 8 (2 ^ 63 + k * 2 ^ 48 + off) = (v, .ok ()) →
    stopRing s r k off = { v with notes := v.notes ++ [.interrupt (vifPkg (r / 16)) (r / 16 % 64 + 1) 0] }) ∧
  (∀ (s v : State) (r tail : Nat), frontWrite s (r / 16) ((getRing s r).ctl + 64) 8 (tail + 64) = (v, .ok ()) →
    { takePacket s r tail with pkgs := [] } = { v with pkgs := [] } ∧ (getPkg (takePacket s r tail) (r / 16 / 64)).lastVi = r / 16 % 64)

/-- The completions that have reached a task unit apply in task order, each to its entry's successors in slot order: a count falls by one,
and an entry whose count comes to zero is READY. A task that is READY launches with its packet, its batch whole and closed with its node's.
The timer closes an open batch. The units of a frozen interface stand still. A batch's launch that is refused stops its ring at offset 0 and the
batch is never launched (the model's choice, log entry 40). A count that is zero already is 0x201, with the lanes of the `TDONE`. Of the closed batches a node's lowest
comes first (the model's reading, log entry 58), then the deepest in depth-first mode, the shallowest else. These are `taskCompletionApply`,
`taskLaunchFetch`, `batchTimerExpiry` and `batchLaunch` (R308, R318 to R326, R431). -/
def Obligations.TasksAndBatchesLaunch : Prop :=
  (∀ (s : State) (die : Nat), (∀ d ∈ (getUnit s die).done, unitsStopped s d.2.1 = true) → exec (.taskCompletionApply die) s = .next s) ∧
  (∀ (s : State) (die : Nat) (d : Nat × Nat × Nat × Lanes), (getUnit s die).done = [d] → unitsStopped s d.2.1 = false →
    exec (.taskCompletionApply die) s = .next (applyDone (modUnit s die (fun u => { u with done := [] })) die d)) ∧
  (∀ (s : State) (die : Nat) (a b : Nat × Nat × Nat × Lanes), (getUnit s die).done = [a, b] → unitsStopped s a.2.1 = false → unitsStopped s b.2.1 = false → b.1 < a.1 →
    exec (.taskCompletionApply die) s = .next (applyDone (applyDone (modUnit s die (fun u => { u with done := [] })) die b) die a)) ∧
  (∀ (s : State) (w : Nat), unitsStopped s w = true ↔
    (getIface s (getWave s w).vif).frozen = true ∧ (getIface s (getWave s w).vif).exempt = (getCrew s (getWave s w).crew).launch + 1) ∧
  (∀ (s : State) (die x k : Nat), let i := taskSucc x k
    let y := getTask s die i
    let r := decSuccs s die x none 0 [k]
    (y % 65536 = 0 → r = (s, some k, 0)) ∧
    (y % 65536 ≠ 0 → r.2.1 = none ∧ (getTask r.1 die i) % 65536 = y % 65536 - 1 ∧ (∀ j, j ≠ i → j < 65536 → i < 65536 → getTask r.1 die j = getTask s die j) ∧
      ((getTask r.1 die i).testBit 30 = true ↔ (y.testBit 30 = true ∨ (y % 65536 = 1 ∧ y.testBit 31 = true))) ∧
      (r.2.2 = if y % 65536 = 1 ∧ y.testBit 31 = true ∧ y.testBit 30 = false then 2 ^ k else 0))) ∧
  (∀ (s : State) (die : Nat) (d : Nat × Nat × Nat × Lanes), let x := getTask s die (d.1 % 65536)
    let n := min 4 (x / 2 ^ 24 % 8)
    let r := decSuccs s die x none 0 (List.range n)
    let succ (k : Nat) : Nat := if k < n then taskSucc x k else 0xFFFFFFFF
    let v := pushEntry r.1 d.2.1 6 [d.1, succ 0, succ 1, succ 2, succ 3, r.2.2] false
    (r.2.1 = none → applyDone s die d = v) ∧
    (∀ k, r.2.1 = some k → (getWave s d.2.1).status = .running → live (getWave s d.2.1) ≠ 0 → SameElse v (applyDone s die d) ∧
      ∃ p ∈ (getWave (applyDone s die d) (mainWave s d.2.1)).pend, p.cause = 0x201 ∧ p.lanes = d.2.2.2 ∧ p.detail = k)) ∧
  (∀ (s : State) (pkg : Nat), nextTask s pkg = none → exec (.taskLaunchFetch pkg) s = .next s) ∧
  (∀ (s : State) (pkg die i : Nat), nextTask s pkg = some (die, i) →
    let r := (smGet (getUnit s die).loader (0, 0) i).1 - 1
    let off := (smGet (getUnit s die).loader (0, 0) i).2
    let x := getTask s die i
    listFull s pkg = false → (getIface s (r / 16)).frozen = false →
    ∀ u p, frontRead (setTask s die i (x - 2 ^ 30)) (r / 16) (x / 2 ^ 128 % 2 ^ 64) 64 = (u, .ok p) →
      (∀ k, launchReason u r p = some k → exec (.taskLaunchFetch pkg) s = .next (stopRing u r k off)) ∧
      (launchReason u r p = none → ∃ t l, exec (.taskLaunchFetch pkg) s = .next t ∧ Claims.Launched u t r p l ∧ l.kind = 1 ∧
        l.task = 65536 * (die % 2) + i ∧ l.args = BitVec.ofNat 64 (lArgs p))) ∧
  (∀ (s : State) (pkg die i : Nat), nextTask s pkg = some (die, i) → listFull s pkg = true → exec (.taskLaunchFetch pkg) s = .next s) ∧
  (∀ (s : State) (die bin : Nat) (b : Batch), openBatch (getUnit s die) bin = some b →
    (nodeTimer (getNode s die bin) = 0 ∨ (getIface s (nodeVif (getUnit s die) bin)).frozen = true → exec (.batchTimerExpiry die bin) s = .next s) ∧
    (nodeTimer (getNode s die bin) ≠ 0 → (getIface s (nodeVif (getUnit s die) bin)).frozen = false → exec (.batchTimerExpiry die bin) s = .next (closeBatch s die b).1)) ∧
  (∀ (s : State) (die bin : Nat), openBatch (getUnit s die) bin = none → exec (.batchTimerExpiry die bin) s = .next s) ∧
  (∀ (s : State) (die : Nat) (b c : Batch), let u := getUnit s die
    (∀ d ∈ u.batches, d.bin < 4096 ∧ d.num < 2 ^ 32) → nextBatch s die = some b → c ∈ u.batches → c.stage = 1 →
    (getIface s (nodeVif u c.bin)).frozen = false → (lowestBatch u c.bin c.num = true → lowestBatch u b.bin b.num = true) ∧
    (lowestBatch u c.bin c.num = lowestBatch u b.bin b.num → let deep (x : Batch) : Nat := nodeDepth (getNode s die x.bin)
      if u.depthFirst then deep c ≤ deep b else deep b ≤ deep c)) ∧
  (∀ (s : State) (die : Nat), nextBatch s die = none → exec (.batchLaunch die) s = .next s) ∧
  (∀ (s : State) (die : Nat) (b : Batch), nextBatch s die = some b →
    let r := smGet (getUnit s die).nodeRing 0 b.bin - 1
    listFull s (die / 2) = false → (getIface s (r / 16)).frozen = false → ∀ u p, frontRead s (r / 16) (getNode s die b.bin % 2 ^ 64) 64 = (u, .ok p) →
      (∀ k, lCrews p = 1 → launchReason u r p = some k →
        exec (.batchLaunch die) s = .next (stopRing (modUnit u die (fun y => putBatch y { b with stage := 3 })) r k 0)) ∧
      (lCrews p = 1 → launchReason u r p = none → ∃ t l, exec (.batchLaunch die) s = .next t ∧ Claims.Launched u t r p l ∧ l.kind = 2 ∧
        l.batch = some (die, b.bin, b.num) ∧ l.args = BitVec.ofNat 64 (((getUnit s die).store + 16 * b.unit) % 2 ^ 64) ∧
        getUnit t die = putBatch (getUnit u die) { b with stage := 2 }))

/-- The dispatcher of a die places the next crew of the first launch in rank that has room on it and whose producers are done. The crew
takes its slots, bench, tiles, `cv` and `ob` registers of the core; wave `w` of it runs threads 32w on, at the launch's ENTRY, with GRAN,
and in s0 to s5 its crew index, its own index, the arguments, the crew count and the task; with SHADOW a partner of each runs at SHENTRY with
the same values (`crewPlacement`; R116, R304, R305). What DIST 1 of a task's packet names is the model's choice (log entry 69). -/
def Obligations.PlacementStartsCrews : Prop :=
  (∀ (s : State) (die : Nat), rankedLaunches s (die / 2) = [] → exec (.crewPlacement die) s = .next s) ∧
  (∀ (s u : State) (die core : Nat) (l : Launch) (rest : List Launch) (q : Place), rankedLaunches s (die / 2) = l :: rest → nextFrozen s l = none →
    findPlace s l die = some (core, q) → depOf s l l.next = (u, .met) → lSlots l.packet.toNat ≤ 64 →
    let p := l.packet.toNat
    ∃ t, exec (.crewPlacement die) s = .next t ∧ t.nextCrew = u.nextCrew + 1 ∧
      (let c := getCrew t u.nextCrew
       c.launch = l.id ∧ c.idx = l.next ∧ c.core = core ∧ c.vif = l.vif ∧ c.threads = lThreads p ∧ c.waves = lWaves p ∧ c.slots = q.slots ∧
       c.benchBase = q.bench ∧ c.benchSize = lBench p ∧ c.tiles = q.tiles ∧ c.cvs = q.cvs ∧ c.obs = q.obs ∧ c.bound = 0 ∧ c.spilled = false) ∧
      (∀ w < lWaves p, let a := q.slots.getD w 0
        let b := q.slots.getD (lWaves p + w) 0
        Claims.PlacedWave (getWave t a) l u.nextCrew w false (if lShadow p then some b else none) ∧
        (lShadow p = true → Claims.PlacedWave (getWave t b) l u.nextCrew w true (some a)))) ∧
  (∀ (s : State) (die : Nat) (l : Launch) (rest : List Launch), rankedLaunches s (die / 2) = l :: rest → nextFrozen s l = none →
    findPlace s l die = none → exec (.crewPlacement die) s = .next (tryPlace s die rest))

namespace Sys2Proof.Claims

/-! ### Collective contexts (R113, R220, R331 to R341, R428, R437) -/

/-- The steps of the command words by their codes. -/
def wordRow (ev : Instr) : Option (Nat × Nat) :=
  match ev with
  | .send n => some (n, 1)
  | .recv n => some (n, 2)
  | .rscat n => some (n, 3)
  | .agath n => some (n, 4)
  | .mcast n => some (n, 5)
  | .signal n => some (n, 6)
  | .loop n => some (n, 7)
  | .halt n => some (n, 8)
  | _ => none

/-- Context `n` of `s` runs word `c`, of code `code`, within its limits; reading the word leaves `u`. -/
def Runs (s : State) (n code : Nat) (u : State) (c : CmdWord) : Prop :=
  dueWord s n code = some (u, c) ∧ cmdOk (getCtx u n) c = true

/-- Two states agree on everything but context `n`. -/
def SameButCtx (s t : State) (n : Nat) : Prop := { s with ctxs := [] } = { t with ctxs := [] } ∧ ∀ m, m ≠ n → getCtx t m = getCtx s m

/-- The chunks of the shard that a rank owns, and the pieces that they make, each for rank `q`: chunks count on through the word (R342). -/
def shardChunks (x : Context) (c : CmdWord) (r : Nat) : List (Nat × Nat × Nat) := chunksOf x ((shard x c.w3 r).2 - (shard x c.w3 r).1)
def shardPieces (x : Context) (c : CmdWord) (r q : Nat) : List (Nat × Nat × Nat × Nat × Nat) :=
  let base := ((List.range r).map (fun k => (shardChunks x c k).length)).sum
  (shardChunks x c r).map (fun p => (q, base + p.1, (shard x c.w3 r).1 + p.2.1, p.2.2, p.2.1))

/-- The lines that the words of a context wrote, on both dies of its package (R231). -/
def wroteLines (s : State) (n : Nat) : BitVec 256 :=
  (getCtx s (16 * (n / 32 * 2) + n % 16)).wrote ||| (getCtx s (16 * (n / 32 * 2 + 1) + n % 16)).wrote

/-- The rank of a context's own die. -/
def ownRank (x : Context) (n : Nat) : Nat := (rankOf x (ctxDie n)).getD 0

/-- What every packet of a word carries. -/
def FromWord (p : Packet) (x : Context) (n : Nat) (c : CmdWord) (kind : PktKind) : Prop :=
  p.kind = kind ∧ p.total = c.w3 ∧ p.handle = cmdHigh c ∧ p.rank = ownRank x n ∧ p.ctx = ctxNum n ∧ p.src = ctxDie n ∧ p.hub = ctxDie n

end Sys2Proof.Claims

/-- The command words. A word that is due and lies outside its limits faults its context with 0x306. SEND, RECV, RSCAT, AGATH and a wide
SIGNAL take the next number among the words that they are matched with. SEND sends its elements to rank N in chunks; RSCAT sends each
rank the chunks of that rank's shard; AGATH sends the own shard to every other rank; MCAST sends its bytes to the member packages; SIGNAL
counts at its barrier object and, when wide, at that of each member package; LOOP goes back while its count lasts; HALT ends the context
and enters its completion. A member package of another pod gets its packet through an Ultra Ethernet port. An element that reaches a word poisoned
from the drain queue is 0x109. With none due, a context that is being frozen tries its checkpoint. How multicast groups and routes are laid out
among dies, packages and pods, and that a SIGNAL first makes its package's writes visible, is DEDUCED (log entry 41). The words are `send`, `recv`, `rscat`,
`agath`, `mcast`, `signal`, `loop` and `halt` (R231, R253, R336 to R342, R428). -/
def Sys2Proof.Claims.CollectiveWordsRun : Prop :=
  (∀ (ev : Instr) (s : State) (n code : Nat), Claims.wordRow ev = some (n, code) →
    (dueWord s n code = none → exec ev s = .next (ctxCheckpoint s n) ∧ ((getCtx s n).freezing = false → exec ev s = .next s)) ∧
    (∀ u c, dueWord s n code = some (u, c) → cmdOk (getCtx u n) c = false → exec ev s = .next (ctxFault u n 0x306))) ∧
  (∀ (s u : State) (n : Nat) (c : CmdWord), Claims.Runs s n 2 u c → (getCtx u n).begun = false →
    ∃ t, exec (.recv n) s = .next t ∧ Claims.SameButCtx u t n ∧ (getCtx t n).begun = true ∧
      smGet (getCtx t n).recvs 0 (cmdHigh c) = smGet (getCtx u n).recvs 0 (cmdHigh c) + 1) ∧
  (∀ (s u : State) (n : Nat) (c : CmdWord), Claims.Runs s n 1 u c →
    let v := beginWord u n c
    let x := getCtx v n
    (drainBreaks x c = true → exec (.send n) s = .next (ctxFault v n 0x306)) ∧
    (drainBreaks x c = false → exec (.send n) s =
      .next (sendPieces v n c (sendOne n c) ((chunksOf x c.w3).map (fun p => (cmdHigh c, p.1, p.2.1, p.2.2, p.2.1))))) ∧
    (∀ z l m st, (getCtx u n).begun = false → cmdBit c = false → c.w3 ≤ perChunk x →
      readVirt (modCtx v n (fun y => { y with sent := [(cmdHigh c, 0)] })) x.vif (ctxDie n) (cmdAddr c % 2 ^ 64) (elemBytes x * c.w3) = (z, .ok l) →
      l.length = elemBytes x * c.w3 → x.members[cmdHigh c]? = some m → memHere m = true →
      routeTo z (ctxDie n) (memDie m) 0 [entry 4 29 0 0] = some st →
      ∃ t p, exec (.send n) s = .next t ∧ t.packets = z.packets ++ [p] ∧ Claims.FromWord p x n c .send ∧ p.payload = l ∧ p.chunk = 0 ∧
        p.index = smGet (getCtx u n).sends 0 (cmdHigh c) + 1 ∧ p.stack = st ∧ (getCtx t n).sent = [(cmdHigh c, 0)] ∧ (getCtx t n).acks = 1)) ∧
  (∀ (s u : State) (n : Nat) (c : CmdWord), Claims.Runs s n 3 u c →
    let v := beginWord u n c
    let x := getCtx v n
    ((getCtx u n).begun = false → x.words = (getCtx u n).words + 1 ∧ x.begun = true ∧ Claims.SameButCtx u v n) ∧
    (drainBreaks x c = true → exec (.rscat n) s = .next (ctxFault v n 0x306)) ∧
    (drainBreaks x c = false → exec (.rscat n) s =
      .next (sendPieces v n c (contribOne n c) ((List.range (nmem x)).flatMap (fun r => Claims.shardPieces x c r r))))) ∧
  (∀ (s u : State) (n : Nat) (c : CmdWord), Claims.Runs s n 4 u c →
    let v := beginWord u n c
    let x := getCtx v n
    exec (.agath n) s = .next (sendPieces v n c (gatherOne n c)
      (((List.range (nmem x)).filter (· != Claims.ownRank x n)).flatMap (fun q => Claims.shardPieces x c (Claims.ownRank x n) q)))) ∧
  (∀ (s : State) (n : Nat) (c : CmdWord) (q k i j o : Nat), let x := getCtx s n
    (∀ z fl bytes st, contribution s n c i j = (z, .ok (bytes, fl)) → contribRoute z x n (ctxDie n) q k = some st →
      ∃ p, (contribOne n c s (q, k, i, j, o)).packets = z.packets ++ [p] ∧ Claims.FromWord p x n c .rscat ∧ p.payload = bytes ∧ p.chunk = k ∧
        p.index = x.words ∧ p.addr = o * elemBytes x ∧ p.fmt = wire x ∧ p.stack = st) ∧
    (∀ z e, contribution s n c i j = (z, .error e) → contribOne n c s (q, k, i, j, o) = ctxFault z n e) ∧
    (∀ z l, wire x = 0 → withRes x = false → readElems s n c i j = (z, .ok l) →
      contribution s n c i j = (z, .ok (packElems (sourceKind x) l, 0))) ∧
    (∀ z l st, readElems s n c i j = (z, .ok l) → routeRank z x (ctxDie n) q k [entry 4 29 0 0] = some st →
      ∃ p, (gatherOne n c s (q, k, i, j, o)).packets = z.packets ++ [p] ∧ Claims.FromWord p x n c .agath ∧ p.payload = packElems (sourceKind x) l ∧
        p.chunk = k ∧ p.index = x.words ∧ p.addr = o * elemBytes x ∧ p.stack = st) ∧
    (∀ z e, readElems s n c i j = (z, .error e) → gatherOne n c s (q, k, i, j, o) = ctxFault z n e) ∧
    (cmdBit c = true → cmdCode c ≠ 5 → (∃ e ∈ x.drainBad, i ≤ e ∧ e < i + j) → readElems s n c i j = (s, .error 0x109)) ∧
    (∀ m, x.members[q]? = some m → memHere m = true → inPairs x n x.words k = false → memDie m / 2 = ctxDie n / 2 →
      let want (y : Nat) : Nat := if arrival x then y else 0
      let mates := (x.members.filter (fun y => memHere y && memDie y / 2 == ctxDie n / 2)).length
      contribRoute s x n (ctxDie n) q k = some (dieHop (ctxDie n) (memDie m) (entry (cfmt x + 1) 29 0 (want mates) ::
        dieHop (memDie m) (memDie m) [entry (cfmt x + 1) 29 0 (want ((herePkgs x).length + podsOf x - 1)), entry 4 29 0 0])))) ∧
  (∀ (s u : State) (n : Nat) (c : CmdWord), Claims.Runs s n 5 u c →
    ((getCtx u n).begun = true → exec (.mcast n) s = .next u) ∧
    ((getCtx u n).begun = false → exec (.mcast n) s = .next ((List.range ((c.w3 + 4095) / 4096)).foldl (mcastChunk n c)
      (modCtx (beginWord u n c) n (fun x => { x with sent := if c.w3 = 0 then [] else [(0, 0)] }))))) ∧
  (∀ (s z : State) (n k : Nat) (c : CmdWord) (l : List Byte), let x := getCtx s n
    let a := (cmdAddr c + 4096 * k) % 2 ^ 64
    let groups := (List.range 4).filter (fun i => smGet z.groups [] (64 * ctxDie n + 4 * ctxNum n + i) ≠ [])
    ctxRunning x = true → extraPkgs x n = [] → readVirt s x.vif (ctxDie n) a (min 4096 (c.w3 - 4096 * k)) = (z, .ok l) →
    (∀ r m, groups = [] → farRanks x = [r] → x.members[r]? = some m → ∃ p, (mcastChunk n c s k).packets = z.packets ++ [p] ∧
      Claims.FromWord p x n c .mcast ∧ p.payload = l ∧ p.addr = a ∧ p.chunk = k ∧ p.stack = [entry 0 (25 + k % 4) (memDie m) 0, entry 4 29 0 0]) ∧
    (spansPods x = false → ∃ ps, (mcastChunk n c s k).packets = z.packets ++ ps ∧
      (∀ p ∈ ps, Claims.FromWord p x n c .mcast ∧ p.payload = l ∧ p.addr = a ∧ p.chunk = k) ∧
      ps.map (·.stack) = groups.map (fun i => [entry 3 29 0 (4 * ctxNum n + i), entry 4 29 0 0]))) ∧
  (∀ (s u : State) (n : Nat) (c : CmdWord), Claims.Runs s n 6 u c → let x := getCtx u n
    (x.begun = true → exec (.signal n) s = .next u) ∧
    (∀ e, x.begun = false → objAt u x.vif (ctxDie n) (cmdAddr c) = .error e → exec (.signal n) s = .next (ctxFault u n e)) ∧
    (∀ o, x.begun = false → objAt u x.vif (ctxDie n) (cmdAddr c) = .ok o →
      ∃ v y, Claims.SameButCtx u v n ∧ (getCtx v n).begun = true ∧ y = arrive (signalRelease v (ctxDie n) (spansPods x)) o c.w3 (Claims.wroteLines v n).toNat ∧
        (cmdBit c = false → exec (.signal n) s = .next y) ∧
        (∀ r m, cmdBit c = true → pkgCtxs x n = [] → farRanks x = [r] → x.members[r]? = some m →
          ∃ t p, exec (.signal n) s = .next t ∧ t.packets = y.packets ++ [p] ∧ Claims.FromWord p x n c .signal ∧ p.barrier = cmdAddr c ∧
            p.add = c.w3 ∧ p.stack = [entry 0 25 (memDie m) 0, entry 5 29 0 0] ∧ (getCtx t n).words = x.words + 1) ∧
        (∀ m st, cmdBit c = true → pkgCtxs x n = [m] → spansPods x = false → routeTo y (ctxDie n) (ctxDie m) 0 [entry 5 29 0 0] = some st →
          ∃ t p, exec (.signal n) s = .next t ∧ t.packets = y.packets ++ [p] ∧ Claims.FromWord p x n c .signal ∧ p.barrier = cmdAddr c ∧
            p.add = c.w3 ∧ p.stack = st ∧ (getCtx t n).words = x.words + 1))) ∧
  (∀ (s u : State) (n : Nat) (c : CmdWord), Claims.Runs s n 7 u c → let x := getCtx u n
    let w := ctxWord x
    let bad : Prop := (x.loop ≠ 0 ∧ x.loopWord ≠ w) ∨ w < c.w1
    let left := if x.loop = 0 then cmdHigh c - 1 else x.loop - 1
    (bad → exec (.loop n) s = .next (ctxFault u n 0x306)) ∧
    (¬ bad → w + 1 < 32768 → x.stopReq = false → x.freezing = false → ∃ t, exec (.loop n) s = .next t ∧ Claims.SameButCtx u t n ∧
      (getCtx t n).loop = left ∧ (getCtx t n).loopWord = w ∧ (getCtx t n).begun = false ∧ ctxState (getCtx t n) = ctxState x ∧
      ctxWord (getCtx t n) = if left = 0 then w + 1 else w - c.w1)) ∧
  (∀ (s u : State) (n : Nat) (c : CmdWord), Claims.Runs s n 8 u c → ∃ v, Claims.SameButCtx u v n ∧ ctxState (getCtx v n) = 0 ∧
    (getCtx v n).begun = false ∧ ctxWord (getCtx v n) = ctxWord (getCtx u n) ∧
    exec (.halt n) s = .next (pushEntry v (getCtx u n).w 3 [ctxNum n, (getCtx v n).status.toNat, ctxWord (getCtx u n)] true))

/-- A running context whose word cannot be read, is illegal or is reserved faults with that cause; a word whose pieces are sent, received
and acknowledged is done and the next one is due; a word that awaits a contribution too long faults with 0x305, and a context that a
member's abort reaches with 0x307. A context fault sets the state and the CAUSE and tells every other member. A freeze notice holds a
context and a thaw notice releases it, with the member's new die. These are `collBadCommand`, `collReservedCommand`, `wordComplete`,
`collTimeout`, `abortPacket`, `freezeNotice` and `thawNotice` (R113, R337, R340, R428, R437). -/
def Sys2Proof.Claims.CollectiveContextsEnd : Prop :=
  (∀ (s : State) (n : Nat), let x := getCtx s n
    let idle : Prop := ctxRunning x = false ∨ x.begun = true ∨ x.heldBy ≠ 0
    (idle → exec (.collBadCommand n) s = .next s ∧ exec (.collReservedCommand n) s = .next s) ∧
    (∀ u e, ¬ idle → readCmd s n (ctxWord x) = (u, .error e) → exec (.collBadCommand n) s = .next (ctxFault u n e)) ∧
    (∀ u c, ¬ idle → readCmd s n (ctxWord x) = (u, .ok c) →
      (cmdCode c = 0 ∨ 0x40 ≤ cmdCode c → exec (.collBadCommand n) s = .next (ctxFault u n 0x300)) ∧
      (9 ≤ cmdCode c → cmdCode c < 0x40 → exec (.collReservedCommand n) s = .next (ctxFault u n 0x301)) ∧
      (1 ≤ cmdCode c → cmdCode c < 9 → exec (.collBadCommand n) s = .next u ∧ exec (.collReservedCommand n) s = .next u))) ∧
  (∀ (s : State) (n : Nat), let x := getCtx s n
    ((ctxRunning x = false ∨ x.begun = false) → exec (.wordComplete n) s = .next s) ∧
    (∀ u e, ctxRunning x = true → x.begun = true → readCmd s n (ctxWord x) = (u, .error e) → exec (.wordComplete n) s = .next (ctxFault u n e)) ∧
    (∀ u c, ctxRunning x = true → x.begun = true → readCmd s n (ctxWord x) = (u, .ok c) →
      (wordDone x n c = false → exec (.wordComplete n) s = .next u) ∧
      (wordDone x n c = true → ctxWord x + 1 < 32768 → x.stopReq = false → x.freezing = false → ∃ t, exec (.wordComplete n) s = .next t ∧
        Claims.SameButCtx u t n ∧ (getCtx t n).begun = false ∧ (getCtx t n).sent = [] ∧ (getCtx t n).got = [] ∧
        ctxWord (getCtx t n) = ctxWord x + 1 ∧ ctxState (getCtx t n) = 1) ∧
      (wordDone x n c = true → ctxWord x + 1 = 32768 → ∃ v, Claims.SameButCtx u v n ∧ exec (.wordComplete n) s = .next (ctxFault v n 0x306)))) ∧
  (∀ (s : State) (n : Nat), (awaiting s n = true → exec (.collTimeout n) s = .next (ctxFault s n 0x305)) ∧
    (awaiting s n = false → exec (.collTimeout n) s = .next s)) ∧
  (∀ (s : State) (n : Nat), let x := getCtx s n
    (x.aborted = false → exec (.abortPacket n) s = .next s) ∧
    (x.aborted = true → ∃ v, Claims.SameButCtx s v n ∧ getCtx v n = { x with aborted := false } ∧
      exec (.abortPacket n) s = .next (if ctxRunning x then ctxFault v n 0x307 else v))) ∧
  (∀ (s : State) (n k : Nat), k < 1024 → let t := ctxFault s n k
    ctxState (getCtx t n) = 2 ∧ natBits (getCtx t n).status.toNat 29 20 = k ∧ ctxWord (getCtx t n) = ctxWord (getCtx s n) ∧
    (∀ m ∈ otherCtxs (getCtx s n) n, (getCtx t m).aborted = true) ∧
    (∀ m, m ≠ n → m ∉ otherCtxs (getCtx s n) n → getCtx t m = getCtx s m)) ∧
  (∀ (s : State) (n : Nat), ((getCtx s n).freezeIn = 0 → exec (.freezeNotice n) s = .next s) ∧
    ((getCtx s n).freezeIn ≠ 0 → ∃ t, exec (.freezeNotice n) s = .next t ∧ Claims.SameButCtx s t n ∧
      getCtx t n = { getCtx s n with freezeIn := (getCtx s n).freezeIn - 1, heldBy := (getCtx s n).heldBy + 1 })) ∧
  (∀ (s : State) (n : Nat), (getCtx s n).thawIn = [] → exec (.thawNotice n) s = .next s) ∧
  (∀ (s : State) (n r die : Nat) (rest : List (Nat × Nat)), (getCtx s n).thawIn = (r, die) :: rest → die < 1024 →
    ∃ t, exec (.thawNotice n) s = .next t ∧ Claims.SameButCtx s t n ∧ let x := getCtx s n
      let y := getCtx t n
      { y with members := [] } = { x with members := [], thawIn := rest, heldBy := x.heldBy - 1 } ∧ y.members.length = x.members.length ∧
      (∀ j, j ≠ r → y.members[j]? = x.members[j]?) ∧
      ∀ m, x.members[r]? = some m → ∃ m', y.members[r]? = some m' ∧ memDie m' = die ∧ memPod m' = memPod m ∧
        natBits m'.toNat 41 0 = natBits m.toNat 41 0)

namespace Sys2Proof.Claims

/-! ### Packets, links and bulk reservation (R67, R342 to R351) -/

/-- The steps of a packet's top entry by their operation codes. -/
def hubRow (ev : Instr) : Option (Nat × Nat) :=
  match ev with
  | .fwd id => some (id, 0)
  | .addF32 id => some (id, 1)
  | .addBf16 id => some (id, 2)
  | .routeMcast id => some (id, 3)
  | .deliver id => some (id, 4)
  | .routeSignal id => some (id, 5)
  | _ => none

/-- Packet `p` lies at its hub, with entry `e` on top of the rest of its stack, no route error, and no older bulk packet before it (R330). -/
def AtTop (s : State) (p : Packet) (e : Word) (rest : List Word) : Prop :=
  getPkt s p.id = some p ∧ p.stack = e :: rest ∧ atHub p = true ∧ routeError p = false ∧ bulkTurn s p = true

/-- States that agree on everything but packets. -/
def SameButPkts (s t : State) : Prop := { s with packets := [] } = { t with packets := [] }

/-- States that agree on everything but one link and the packets. -/
def SameButLink (s t : State) (l : Nat) : Prop :=
  { s with ports := [], packets := [] } = { t with ports := [], packets := [] } ∧ ∀ j, j ≠ l → getPort t j = getPort s j

/-- States that agree on everything but packets and the next number. -/
def SameButArrival (s t : State) : Prop := { s with packets := [], nextId := 0 } = { t with packets := [], nextId := 0 }

/-- A packet comes in at the hub of a die by a port: a droppable one beyond three quarters of the bulk buffer is dropped, a bulk one without
room stays as it was, any other lies there, behind those that came before (R330, R351). -/
def EntersHub (s t : State) (p q : Packet) (die port : Nat) : Prop :=
  (p.drop = true → 786432 < bulkBytes s die → getPkt t p.id = some { q with hub := die, dropped := 1 }) ∧
  (p.drop = false ∨ bulkBytes s die ≤ 786432 → bulk p = true → 1048576 < bulkBytes s die + p.payload.length → t = s) ∧
  (p.drop = false ∨ bulkBytes s die ≤ 786432 → bulk p = false ∨ bulkBytes s die + p.payload.length ≤ 1048576 →
    getPkt t p.id = some { q with hub := die, ingress := port, arr := s.nextId })

/-- What is left when a packet is lost for good: of a word its context faults, of a remote access the lane takes its own cause. -/
def Lost (s : State) (p : Packet) (cause lane : Nat) : State :=
  if ofWord p = true then ctxFault (delPkt s p.id) (ctxSrc p) cause else badLane (delPkt s p.id) p lane

/-- The flits of a packet in order, numbered from `q`. -/
def flitsOf (p : Packet) (q : Nat) : List Flit :=
  (List.range (flitCount p)).map (fun i => ⟨(q + i) % 4096, p.id, i + 1 == flitCount p⟩)

/-- States that agree on everything but bulk reservation `i`, which is `b` in the second. -/
def BulkIs (s t : State) (i : Nat) (b : Bulk) : Prop :=
  { s with bulks := [], calendar := [], packets := [] } = { t with bulks := [], calendar := [], packets := [] } ∧ t.bulks[i]? = some b ∧
  ∀ j, j ≠ i → t.bulks[j]? = s.bulks[j]?

end Sys2Proof.Claims

/-- A packet acts by its top entry, which it leaves behind; with no such entry on top at a hub, or behind an older bulk packet that can act, the
step changes nothing. FWD takes it to the other die, or onto the link of the first rail that works, which it enters as flits once the retry buffer has room, or onto Ultra Ethernet;
with no rail its context, or the lane of its remote access, faults with 0x30A. DELIVER writes a multicast's bytes, or a word's bytes for the
word that it belongs to, performed at device scope. SIGNAL makes what its package wrote visible and counts LEN at the barrier object, with the
signature of what its context has written. A multicast entry becomes one packet for each target
of its group, on the rail of its chunk. ADD combines at a reduction unit, the left operand first, once its share of the combine buffer has room
and its word runs, in arrival mode behind another from a lower port. A packet with a route error faults its sender's context with 0x308; one
whose tag fails is sent again once and then faults it with 0x309; of a remote access either is 0x109 for the lane. `fwd`, `addF32`, `addBf16`, `routeMcast`, `deliver`, `routeSignal`, `routeErrorNotice` and
`resendRequest` complete (R67, R342 to R347, R350). The congestion entry and request of a far packet follow log entry 15, LEN of a SIGNAL and ARG of an ADD
entry log entry 13, a group's PORT and the context that a packet's fault goes to log entry 41, and that a failing tag is told by a resend
request log entry 42. -/
def Obligations.PacketsTakeTheirRoutes : Prop :=
  (∀ (ev : Instr) (s : State) (id op : Nat), Claims.hubRow ev = some (id, op) →
    (getPkt s id = none → exec ev s = .next s) ∧
    (∀ p, getPkt s id = some p → (atHub p = false ∨ routeError p = true ∨ (p.stack.head?.map entOp) ≠ some op ∨ bulkTurn s p = false) →
      exec ev s = .next s)) ∧
  (∀ (s : State) (p : Packet) (e : Word) (rest : List Word), Claims.AtTop s p e rest → entOp e = 0 →
    let q := { p with stack := rest, dst := entDie e }
    (entPort e = 24 → ∃ t, exec (.fwd p.id) s = .next t ∧ Claims.EntersHub s t p q (entDie e) 24 ∧
      (p.drop = false ∨ bulkBytes s (entDie e) ≤ 786432 → Claims.SameButArrival s t)) ∧
    (entPort e = 29 → exec (.fwd p.id) s = .next (setPkt s q)) ∧
    (25 ≤ entPort e → entPort e ≤ 28 → ∃ t r, exec (.fwd p.id) s = .next t ∧ getPkt t p.id = some { q with out := 2 ^ 20 + (entPort e - 25) } ∧
      { t with packets := [], netReqs := [], nextId := 0 } = { s with packets := [], netReqs := [], nextId := 0 } ∧
      t.netReqs = s.netReqs ++ [r] ∧ r.coll = ctxSrc p + 1 ∧ r.pkt = p.id ∧ r.target = entDie e / 2 ∧ r.bytes = p.payload.length) ∧
    (entPort e < 24 → liveRail s (entPort e) (p.hub / 2) (entDie e / 2) = none →
      exec (.fwd p.id) s = .next (Claims.Lost s p 0x30A 0x30A)) ∧
    (∀ r, entPort e < 24 → liveRail s (entPort e) (p.hub / 2) (entDie e / 2) = some r →
      let l := linkOut (p.hub / 2) r
      (outranked s p l = true → exec (.fwd p.id) s = .next s) ∧
      (512 < (getPort s l).retry.length + flitCount p → exec (.fwd p.id) s = .next s) ∧
      (outranked s p l = false → (getPort s l).retry.length + flitCount p ≤ 512 → ∃ t, exec (.fwd p.id) s = .next t ∧ Claims.SameButLink s t l ∧
        getPkt t p.id = some { q with out := l + 1 } ∧ (getPort t l).wire = (getPort s l).wire ++ Claims.flitsOf p (getPort s l).sendSeq ∧
        (getPort t l).retry = (getPort s l).retry ++ Claims.flitsOf p (getPort s l).sendSeq ∧
        (getPort t l).sendSeq = ((getPort s l).sendSeq + flitCount p) % 4096))) ∧
  (∀ (s : State) (p : Packet) (e : Word), Claims.AtTop s p e [] → entOp e = 4 → p.kind = .mcast →
    (ctxIface s (ctxHub p) = none → exec (.deliver p.id) s = .next (ctxFault (delPkt s p.id) (ctxSrc p) 0x102)) ∧
    (∀ v u c, ctxIface s (ctxHub p) = some v → deliverBytes s { p with stack := [] } v p.addr p.payload p.poison = (u, .error c) →
      exec (.deliver p.id) s = .next (ctxFault (delPkt u p.id) (ctxSrc p) c)) ∧
    (∀ v u, ctxIface s (ctxHub p) = some v → deliverBytes s { p with stack := [] } v p.addr p.payload p.poison = (u, .ok ()) →
      ∃ t, exec (.deliver p.id) s = .next t ∧ { t with packets := [], ctxs := [] } = { u with packets := [], ctxs := [] } ∧ getPkt t p.id = none ∧
        (getCtx t (ctxSrc p)).acks = if p.acked then (getCtx u (ctxSrc p)).acks else (getCtx u (ctxSrc p)).acks - 1)) ∧
  (∀ (s : State) (p : Packet) (vif va : Nat) (l : List Byte) (bad : List Nat),
    (∀ u c, writeColl s vif p.hub va l = (u, .error c) → deliverBytes s p vif va l bad = (u, .error c)) ∧
    (∀ u, writeColl s vif p.hub va l = (u, .ok ()) →
      deliverBytes s p vif va l [] = (noteWritten (performAt u p.hub 5) (ctxHub p) vif p.hub va l.length, .ok ()))) ∧
  (∀ (s : State) (p : Packet) (e : Word), Claims.AtTop s p e [] → entOp e = 4 → (p.kind = .request ∨ p.kind = .response) → exec (.deliver p.id) s = .next s) ∧
  (∀ (s : State) (p : Packet) (e : Word), Claims.AtTop s p e [] → entOp e = 4 → p.kind ∈ [.send, .rscat, .agath] →
    let q := { p with stack := [] }
    let x := getCtx s (ctxHub p)
    let k := wireKind (cfmtKind (cfmt x)) p.fmt
    let sums := p.kind = .rscat
    let bytes := if sums then packElems (sourceKind x) (castElems k (sourceKind x) (unpackElems k p.payload)).1 else p.payload
    let bad := if sums then scalePoison k.width (sourceKind x).width p.poison else p.poison
    (matchWord s q = .wait → exec (.deliver p.id) s = .next s) ∧
    (matchWord s q = .bad → exec (.deliver p.id) s = .next (ctxFault s (ctxHub p) 0x306)) ∧
    (∀ c u a, matchWord s q = .word c → deliverBytes s q x.vif ((cmdAddr c + p.addr) % 2 ^ 64) bytes bad = (u, .error a) →
      exec (.deliver p.id) s = .next (ctxFault (delPkt u p.id) (ctxHub p) a)) ∧
    (∀ c u, matchWord s q = .word c → deliverBytes s q x.vif ((cmdAddr c + p.addr) % 2 ^ 64) bytes bad = (u, .ok ()) →
      ∃ t, exec (.deliver p.id) s = .next t ∧ { t with packets := [], ctxs := [] } = { u with packets := [], ctxs := [] } ∧ getPkt t p.id = none ∧
        (getCtx t (ctxHub p)).got = (getCtx u (ctxHub p)).got ++ [(if sums then 0 else p.rank, p.chunk)])) ∧
  (∀ (s : State) (p : Packet) (e : Word), Claims.AtTop s p e [] → entOp e = 5 →
    (ctxIface s (ctxHub p) = none → exec (.routeSignal p.id) s = .next (ctxFault (delPkt s p.id) (ctxSrc p) 0x102)) ∧
    (∀ v c, ctxIface s (ctxHub p) = some v → objAt s v p.hub p.barrier = .error c →
      exec (.routeSignal p.id) s = .next (ctxFault (delPkt s p.id) (ctxSrc p) c)) ∧
    (∀ v o, ctxIface s (ctxHub p) = some v → objAt s v p.hub p.barrier = .ok o →
      let u := signalRelease s p.hub (spansPods (getCtx s (ctxSrc p)))
      let len := if p.kind = .signal then p.add else p.payload.length
      ∃ t, exec (.routeSignal p.id) s = .next t ∧
      { t with packets := [], ctxs := [] } = { arrive u o len (Claims.wroteLines u (ctxHub p)).toNat with packets := [], ctxs := [] } ∧ getPkt t p.id = none)) ∧
  (∀ (s : State) (p : Packet) (e : Word) (rest : List Word), Claims.AtTop s p e rest → entOp e = 3 →
    let ts := smGet s.groups [] (64 * p.hub + entArg e % 64)
    let rail (a : Word) : Nat := (entPort a + p.chunk) % 24
    let down : Prop := ∃ t ∈ ts, railUp s (rail t) (p.hub / 2) (entDie t / 2) = false
    (down → exec (.routeMcast p.id) s = .next (ctxFault (delPkt s p.id) (ctxSrc p) 0x30A)) ∧
    (¬ down → ∃ t ps, exec (.routeMcast p.id) s = .next t ∧ t.packets = (delPkt s p.id).packets ++ ps ∧
      ps.map (·.stack) = ts.map (fun a => dieHop p.hub (railDie (p.hub / 2) (rail a)) (entry 0 (rail a) (railDie (entDie a / 2) (rail a)) 0 ::
        dieHop (railDie (entDie a / 2) (rail a)) (entDie a) rest)) ∧
      (∀ q ∈ ps, q.kind = p.kind ∧ q.payload = p.payload ∧ q.hub = p.hub ∧ q.addr = p.addr ∧ q.chunk = p.chunk ∧ q.orig = q.stack ∧ q.origHub = p.hub) ∧
      (p.acked = true ∨ p.kind = .agath → t.ctxs = s.ctxs))) ∧
  (∀ (s : State) (p : Packet) (e : Word) (rest : List Word), Claims.AtTop s p e rest →
    (entOp e = 1 → exec (.addF32 p.id) s = .next (reduceAt .fp32 s { p with stack := rest } e)) ∧
    (entOp e = 2 → exec (.addBf16 p.id) s = .next (reduceAt .bf16 s { p with stack := rest } e)) ∧
    ∀ k, (shareRoom s { p with stack := rest } = false ∨ earlierPort s { p with stack := rest } e = true) → reduceAt k s { p with stack := rest } e = s) ∧
  (∀ (s : State) (p : Packet) (k : FKind) (want : Nat), s.held.find? (fun h => sameNode h p) = none →
    (want ≤ 1 → joinArrival k s p want = emit s p) ∧ (1 < want → joinArrival k s p want = hold s p 1)) ∧
  (∀ (s : State) (p : Packet) (h : Held) (k : FKind) (want : Nat), s.held.find? (fun h => sameNode h p) = some h → h.count + 1 < want →
    ∃ q, (joinArrival k s p want).held = (dropHeld s h.pkt).held ++ [⟨h.die, h.count + 1, q⟩] ∧ q.payload = (addPayload k h.pkt.payload p.payload).1 ∧
      q.stack = h.pkt.stack ∧ getPkt (joinArrival k s p want) p.id = none) ∧
  (∀ (p : Packet), (headerBytes p).length = 80 ∧ packetBytes p = headerBytes p ++ p.payload ++ natBytes 4 (crc32c (headerBytes p ++ p.payload)) ∧
    ((headerBytes p).take 1 = natBytes 1 p.ver) ∧ ((headerBytes p).drop 40).take 8 = natBytes 8 0 ∧
    ∀ k e, p.stack[k]? = some e → p.stack.length ≤ 8 → ((headerBytes p).drop (48 + 4 * (8 - p.stack.length + k))).take 4 = natBytes 4 e.toNat) ∧
  (∀ (s : State) (id : Nat), getPkt s id = none → exec (.routeErrorNotice id) s = .next s ∧ exec (.resendRequest id) s = .next s) ∧
  (∀ (s : State) (p : Packet) (o : Op) (cause : Nat), getOp s p.index = some o → ∃ o', getOp (badLane s p cause) p.index = some o' ∧
    { badLane s p cause with ops := [] } = { s with ops := [] } ∧ { o' with lanes := [] } = { o with lanes := [] } ∧
    o'.lanes = o.lanes.map (fun a => if a.lane ≠ p.rank then a else if isDone a then { a with stage := .bad cause, data := p.total } else { a with stage := .bad cause })) ∧
  (∀ (s : State) (p : Packet), getPkt s p.id = some p → atHub p = false →
    exec (.routeErrorNotice p.id) s = .next s ∧ exec (.resendRequest p.id) s = .next s) ∧
  (∀ (s : State) (p : Packet), getPkt s p.id = some p → atHub p = true →
    (routeError p = true → exec (.routeErrorNotice p.id) s = .next (Claims.Lost s p 0x308 0x109)) ∧
    (routeError p = false → exec (.routeErrorNotice p.id) s = .next s) ∧
    (let ends : Prop := p.ingress ≠ 29 ∧ ∀ e ∈ p.stack, entOp e ≠ 0
     (¬ ends → exec (.resendRequest p.id) s = .next s) ∧
      (ends → p.resent = true → exec (.resendRequest p.id) s = .next (Claims.Lost s p 0x309 0x109)) ∧
      (ends → p.resent = false → ∃ t, exec (.resendRequest p.id) s = .next t ∧ Claims.SameButPkts s t ∧
        getPkt t p.id = some { p with resent := true, stack := p.orig, hub := p.origHub, dst := p.origHub, ingress := 29 })))

/-- (The slot of a grant, and which packets are of the reserved class, are the model's choice, log entry 42.) A link end takes the flit that it
expects and no other: the next sequence number, an acknowledgement after the sixteenth; a flit that is
damaged or out of order is dropped and answered once with the last good number. A whole packet enters its hub by the bulk buffer's rule, where one
of the reserved class that finds no room waits, or at a switch goes on to the link into its package. An acknowledgement frees the held flits up to its number; a
negative one frees them and has the rest sent again in order. Eight replays without progress take the port down. The bulk class: a dropped
packet's sender gathers, asks, is granted a window by the target's calendar, and sends what is pending, the dropped ones again, within its
quota. `flitReceive`, `ack`, `nak`, `ackTimer`, `nakRepeatTimer`, `replayTimer`, `portDown`, `dropNotice`, `dropGatherTimer`,
`reservationRequest`, `reservationGrant` and `reservedWindowStart` complete (R349 to R351). -/
def Obligations.LinksAndReservations : Prop :=
  (∀ (s : State) (l : Nat) (good : Bool), ((getPort s l).wire = [] ∨ linkUp s l = false) → exec (.flitReceive l good) s = .next s) ∧
  (∀ (s : State) (l : Nat) (good : Bool) (f : Flit) (rest : List Flit), (getPort s l).wire = f :: rest → linkUp s l = true → let t := getPort s l
    (good = false ∨ f.seq ≠ t.recvSeq → ∃ u, exec (.flitReceive l good) s = .next u ∧ Claims.SameButLink s u l ∧ u.packets = s.packets ∧
      getPort u l = { t with wire := rest, nakSent := true, nakIn := if t.nakSent then t.nakIn else some ((t.recvSeq + 4095) % 4096) }) ∧
    (good = true → f.seq = t.recvSeq → f.last = false → ∃ u, exec (.flitReceive l good) s = .next u ∧ Claims.SameButLink s u l ∧ u.packets = s.packets ∧
      (getPort u l).recvSeq = (t.recvSeq + 1) % 4096 ∧ (getPort u l).wire = rest ∧ (getPort u l).nakSent = false ∧
      (t.unacked < 15 → (getPort u l).unacked = t.unacked + 1 ∧ (getPort u l).ackIn = t.ackIn) ∧
      (15 ≤ t.unacked → (getPort u l).unacked = 0 ∧ (getPort u l).ackIn = some f.seq)) ∧
    (∀ p, good = true → f.seq = t.recvSeq → f.last = true → getPkt s f.pkt = some p → p.out = l + 1 → l % 2 = 1 →
      ∃ u, exec (.flitReceive l good) s = .next u ∧ Claims.EntersHub s u p { p with out := 0 } p.dst (linkRail l) ∧ (∀ j, j ≠ l → getPort u j = getPort s j) ∧
        (u ≠ s → (getPort u l).recvSeq = (t.recvSeq + 1) % 4096 ∧ (getPort u l).wire = rest)) ∧
    (∀ p, good = true → f.seq = t.recvSeq → f.last = true → getPkt s f.pkt = some p → p.out = l + 1 → l % 2 = 0 →
      let i := linkIn (p.dst / 2) (linkRail l)
      ∃ v, Claims.SameButLink s v l ∧ v.packets = s.packets ∧ (getPort v l).recvSeq = (t.recvSeq + 1) % 4096 ∧ (getPort v l).wire = rest ∧
        exec (.flitReceive l good) s = .next (switchOut (setPkt v { p with out := i + 1, ingress := 31 }) i))) ∧
  (∀ (s : State) (l : Nat), let t := getPort s l
    (t.ackIn = none → exec (.ack l) s = .next s) ∧
    (∀ n, t.ackIn = some n → ∃ u, exec (.ack l) s = .next (switchOut u l) ∧ Claims.SameButLink s u l ∧ u.packets = s.packets ∧
      (getPort u l).ackIn = none ∧ (getPort u l).wire = t.wire ∧
      (∀ i, t.retry.findIdx? (fun f => f.seq == n) = some i → (getPort u l).retry = t.retry.drop (i + 1) ∧ (getPort u l).replays = 0) ∧
      ((∀ f ∈ t.retry, f.seq ≠ n) → (getPort u l).retry = t.retry ∧ (getPort u l).replays = t.replays)) ∧
    (t.nakIn = none → exec (.nak l) s = .next s) ∧
    (∀ n, t.nakIn = some n → ∃ u, exec (.nak l) s = .next (switchOut u l) ∧ Claims.SameButLink s u l ∧ u.packets = s.packets ∧
      (getPort u l).nakIn = none ∧ (getPort u l).wire = t.wire ++ (getPort u l).retry ∧
      (∀ i, t.retry.findIdx? (fun f => f.seq == n) = some i → (getPort u l).retry = t.retry.drop (i + 1)) ∧
      ((∀ f ∈ t.retry, f.seq ≠ n) → (getPort u l).retry = t.retry ∧ (t.retry ≠ [] → (getPort u l).replays = t.replays + 1))) ∧
    (t.unacked = 0 → exec (.ackTimer l) s = .next s) ∧
    (t.unacked ≠ 0 → ∃ u, exec (.ackTimer l) s = .next u ∧ Claims.SameButLink s u l ∧ u.packets = s.packets ∧
      getPort u l = { t with unacked := 0, ackIn := some ((t.recvSeq + 4095) % 4096) }) ∧
    (t.nakSent = false → exec (.nakRepeatTimer l) s = .next s) ∧
    (t.nakSent = true → ∃ u, exec (.nakRepeatTimer l) s = .next u ∧ Claims.SameButLink s u l ∧ u.packets = s.packets ∧
      getPort u l = { t with nakIn := some ((t.recvSeq + 4095) % 4096) }) ∧
    (∃ u, exec (.replayTimer l) s = .next u ∧ Claims.SameButLink s u l ∧ u.packets = s.packets ∧
      (t.retry = [] → getPort u l = t) ∧ (t.retry ≠ [] → getPort u l = { t with wire := t.wire ++ t.retry, replays := t.replays + 1 }))) ∧
  (∀ (s : State) (l : Nat), ((linkUp s l = false ∨ (getPort s l).replays < 8) → exec (.portDown l) s = .next s) ∧
    (linkUp s l = true → 8 ≤ (getPort s l).replays → ∃ t, exec (.portDown l) s = .next t ∧ (getPort t (linkOut (linkPkg l) (linkRail l))).up = false ∧
      ∀ p ∈ t.packets, p.out ≠ linkOut (linkPkg l) (linkRail l) + 1 ∧ p.out ≠ linkIn (linkPkg l) (linkRail l) + 1)) ∧
  (∀ (s : State) (i : Nat), s.bulks[i]? = none → exec (.dropGatherTimer i) s = .next s ∧ exec (.reservationGrant i) s = .next s ∧
    exec (.reservedWindowStart i) s = .next s ∧ ∀ slot, exec (.reservationRequest i slot) s = .next s) ∧
  (∀ (s : State) (id : Nat), getPkt s id = none → exec (.dropNotice id) s = .next s) ∧
  (∀ (s : State) (p : Packet), getPkt s p.id = some p →
    (p.dropped ≠ 1 → exec (.dropNotice p.id) s = .next s) ∧
    (p.dropped = 1 → ∃ (t : State) (b : Bulk) (i : Nat), exec (.dropNotice p.id) s = .next t ∧ getPkt t p.id = some { p with dropped := 2, hub := p.origHub } ∧
      t.bulks[i]? = some b ∧ b.src = p.origHub ∧ b.dst = p.dst ∧ b.gathering = true)) ∧
  (∀ (s : State) (i : Nat) (b : Bulk), s.bulks[i]? = some b →
    (b.gathering = false ∨ b.requested = true → exec (.dropGatherTimer i) s = .next s) ∧
    (b.gathering = true → b.requested = false → ∃ t, exec (.dropGatherTimer i) s = .next t ∧ t.packets = s.packets ∧
      Claims.BulkIs s t i { b with gathering := false, requested := true, bytes := pendingBytes s b }) ∧
    (let g := grantFor s (b.dst / 2) b.bytes
     (∀ slot, (b.requested = false ∨ b.granted = true ∨ slot ≠ g.1) → exec (.reservationRequest i slot) s = .next s) ∧
      (b.requested = true → b.granted = false → ∃ t, exec (.reservationRequest i g.1) s = .next t ∧ t.packets = s.packets ∧
        Claims.BulkIs s t i { b with granted := true, start := g.1, window := g.2.1, quota := g.2.2 } ∧
        ∀ k < g.2.1, (b.dst / 2, g.1 + k) ∈ t.calendar) ∧
      (0 < g.2.1 → g.2.2 = min b.bytes 4194304 ∧ s.podTime + 2000 ≤ 1000 * g.1 ∧ g.1 + g.2.1 ≤ (s.podTime + 999) / 1000 + 1000 ∧
        ∀ k < g.2.1, (b.dst / 2, g.1 + k) ∉ s.calendar)) ∧
    (b.granted = true → b.scheduled = false → ∃ t, exec (.reservationGrant i) s = .next t ∧ t.packets = s.packets ∧
      Claims.BulkIs s t i { b with scheduled := true }) ∧
    (b.granted = false ∨ b.scheduled = true → exec (.reservationGrant i) s = .next s) ∧
    (b.scheduled = false → exec (.reservedWindowStart i) s = .next s) ∧
    (b.scheduled = true → b.quota = 0 → ∃ t, exec (.reservedWindowStart i) s = .next t ∧ t.packets = s.packets ∧
      Claims.BulkIs s t i { b with granted := false, scheduled := false, requested := true, bytes := pendingBytes s b }) ∧
    (b.scheduled = true → b.quota ≠ 0 → ∃ t, exec (.reservedWindowStart i) s = .next t ∧ t.bulks.length + 1 = s.bulks.length ∧
      t = { sendReserved s b.quota (pendingBulk s b) with bulks := s.bulks.eraseIdx i }) ∧
    (∀ p, pendingBulk s b = [p] → p.dropped ≠ 0 → getPkt (sendReserved s b.quota [p]) p.id =
      some { p with dropped := 0, hub := p.origHub, dst := p.origHub, ingress := 29, stack := p.orig, drop := decide (b.quota < p.payload.length) }) ∧
    (∀ p, pendingBulk s b = [p] → p.dropped = 0 → getPkt (sendReserved s b.quota [p]) p.id =
      some { p with drop := decide (b.quota < p.payload.length) }))

namespace Sys2Proof.Claims

/-! ### Ultra Ethernet requests and CXL events (R354 to R364) -/

/-- The steps that act on a request. -/
def reqRow (ev : Instr) : Option Nat :=
  match ev with
  | .netRequest q => some q
  | .busyAnswer q => some q
  | .busyResendTimer q => some q
  | .netResponse q _ => some q
  | .staleNotice q => some q
  | .netRetryTimer q => some q
  | _ => none

/-- Two states agree on everything but the requests. -/
def SameButReqs (s t : State) : Prop := { s with netReqs := [] } = { t with netReqs := [] }

/-- The answer that denies every lane of a request. -/
def Denied (s t : State) (r : NetReq) : Prop :=
  SameButReqs s t ∧ ∃ q, getReq t r.id = some q ∧ q.stage = 2 ∧ q.causes = r.lanes.map (fun l => (l, 0x383))

/-- The permission bit of a region entry that an access needs. -/
def permBit (k : OpKind') : Nat := match k with | .rget => 144 | .rput => 145 | _ => 146

end Sys2Proof.Claims

/-- A request that may leave does its release steps and reaches its target: it waits there for its region's context, is dropped by a full
miss buffer, or is applied once. An invalid region, a missing permission or an offset beyond its length denies every lane with 0x383, a
generation that differs makes the request stale, and else each lane reads or writes at the home of its bytes; an atomic request's old
values are kept, and kept values answer a request that comes again. A package none of whose Ethernet ports works loses the request, and
its timer runs (log entries 15 and 19). A target with no room for old values answers busy, and the request
leaves again after a wait. A region's context is the 32 bytes of its entry in the table that RTAB names, and a full cache loses its oldest
(log entries 9 and 15). What a request to another pod comes back with is open (log entry 15). `netRequest`, `busyAnswer`, `busyResendTimer`
and `regionContextFill` complete (R354, R355, R356, R359, R360). -/
def Obligations.NetworkRequestsAreApplied : Prop :=
  (∀ (ev : Instr) (s : State) (id : Nat), Claims.reqRow ev = some id → getReq s id = none → exec ev s = .next s) ∧
  (∀ (s : State) (r : NetReq), getReq s r.id = some r →
    let up := (ethFrom s (reqDie s r / 2) 0).isSome
    (reqDue s r = false ∨ (up = true ∧ otherPod r = false ∧ targetBusy s r = true) → exec (.netRequest r.id) s = .next s) ∧
    (reqDue s r = true → up = false → exec (.netRequest r.id) s = .next (setReq (leaves s r) { r with sent := true, stage := 5 })) ∧
    (reqDue s r = true → up = true → otherPod r = true → ∃ t q, exec (.netRequest r.id) s = .next t ∧ getReq t r.id = some q ∧ q.sent = true ∧
      q.stage ∈ [2, 3, 5] ∧ { t with netReqs := [], free := 0 } = { leaves s r with netReqs := [], free := 0 }) ∧
    (reqDue s r = true → up = true → otherPod r = false → targetBusy s r = false → let u := leaves s r
      let q := { r with sent := true }
      (contextMissing u q = false → exec (.netRequest r.id) s = .next (applyReq u q)) ∧
      (contextMissing u q = true → 256 ≤ missCount u (netDie u q) → exec (.netRequest r.id) s = .next (setReq u { q with stage := 5 })) ∧
      (contextMissing u q = true → missCount u (netDie u q) < 256 → getReq u r.id ≠ none → ∃ t, exec (.netRequest r.id) s = .next t ∧
        { t with netReqs := [], nextId := 0 } = { u with netReqs := [], nextId := 0 } ∧ getReq t r.id = some { q with stage := 1, arr := u.nextId })) ∧
    (reqDue s r = true → up = true → otherPod r = false → targetBusy s r = true → exec (.busyAnswer r.id) s = .next (setReq (leaves s r) { r with sent := true, stage := 4 })) ∧
    (reqDue s r = false ∨ up = false ∨ otherPod r = true ∨ targetBusy s r = false → exec (.busyAnswer r.id) s = .next s) ∧
    (r.stage ≠ 4 → exec (.busyResendTimer r.id) s = .next s) ∧
    (r.stage = 4 → ∃ t, exec (.busyResendTimer r.id) s = .next t ∧ Claims.SameButReqs s t ∧ getReq t r.id = some { r with stage := 0 })) ∧
  (∀ (s : State) (r : NetReq) (o : Op) (v : Nat), (getReq s r.id).isSome = true → getOp s r.op = some o → netIface s r = some v →
    let e := getRegion s v r.region
    let accs := o.lanes.filter (fun a => r.lanes.contains a.lane)
    let beyond : Prop := ∃ a ∈ accs, rgLen e < netOffset a.addr + opBytes o
    (rgValid e = false → Claims.Denied s (applyReq s r) r) ∧
    (rgValid e = true → rgGen e ≠ r.gen → Claims.SameButReqs s (applyReq s r) ∧ getReq (applyReq s r) r.id = some { r with stage := 3 }) ∧
    (rgValid e = true → rgGen e = r.gen → (e.testBit (Claims.permBit o.kind) = false ∨ beyond) → Claims.Denied s (applyReq s r) r) ∧
    (rgValid e = true → rgGen e = r.gen → e.testBit (Claims.permBit o.kind) = true → ¬ beyond →
      (∀ vs cs, o.kind = .ratom → atomKept s r = some (vs, cs) →
        Claims.SameButReqs s (applyReq s r) ∧ getReq (applyReq s r) r.id = some { r with stage := 2, values := vs, causes := cs }) ∧
      ((o.kind = .ratom → atomKept s r = none) → let z := netLanes s v (netDie s r) (rgBase e) o accs
        Claims.SameButReqs (if o.kind = .ratom then { z.1 with atomCache := z.1.atomCache ++ [(netDie z.1 r, r.id, z.2.1, z.2.2)] } else z.1) (applyReq s r) ∧
        getReq (applyReq s r) r.id = some { r with stage := 2, values := z.2.1, causes := z.2.2 }))) ∧
  (∀ (s : State) (v die base : Nat) (o : Op) (a : LaneAcc), let va := (base + netOffset a.addr) % 2 ^ 64
    let n := opBytes o
    (canonical va = false → netLane s v die base o a = (s, .error 0x383)) ∧
    (canonical va = true → (∀ u c, translate s v die va (if o.kind = .rget then 0 else 1) false = (u, .error c) →
      netLane s v die base o a = (u, .error 0x383))) ∧
    (canonical va = true → ∀ u t, translate s v die va (if o.kind = .rget then 0 else 1) false = (u, .ok t) →
      (poisoned u t.pa n = true → (o.kind = .rget → netLane s v die base o a = (u, .error 0x109)) ∧
        (o.kind = .ratom → netLane s v die base o a = (u, .error 0x105))) ∧
      (poisoned u t.pa n = false → o.kind = .rget →
        (o.fn4 / 4 ≠ 1 → netLane s v die base o a = ((readDieN u (homeDie t.pa) t.pa n).1, .ok (readDieN u (homeDie t.pa) t.pa n).2)) ∧
        (o.fn4 / 4 = 1 → netLane s v die base o a = (u, .ok (homeRead u t.pa n)))) ∧
      (o.kind = .rput → ∃ w, netLane s v die base o a = (w, .ok 0)))) ∧
  (∀ (die region : Nat) (s : State), missWaiters s die region = [] → exec (.regionContextFill die region) s = .next s) ∧
  (∀ (die region : Nat) (s : State) (r : NetReq), missWaiters s die region = [r.id] → getReq s r.id = some r →
    let mine := s.regionCache.filter (fun c => c.1 == die)
    let e := homeRead s (regionAddr s (region / 65536) (region % 65536)) 32
    let kept := match mine with | [] => s.regionCache | c :: _ => if 2048 ≤ mine.length then s.regionCache.erase c else s.regionCache
    let u := pruneRegions { s with regionCache := kept ++ [(die, region)], regions := smSet s.regions 0 region (BitVec.ofNat 256 e) }
    (targetBusy u r = true → exec (.regionContextFill die region) s = .next (setReq u { r with stage := 4 })) ∧
    (targetBusy u r = false → exec (.regionContextFill die region) s = .next (applyReq u { r with stage := 0 })))

/-- An answer that comes back adjusts the congestion window of its destination and finishes its lanes: a read's registers take the values, a
lane with a cause becomes a deferred fault, and the access ends once no lane is left. A stale request's lanes take 0x381; a request whose
timer passes leaves again, with a window of 4,096 bytes, and after seven retries its lanes take 0x380. Kept atomic values go when they are
acknowledged or expire, an entry whose request still waits being kept (log entry 43). A window stays between 4 KiB and 4 MiB. A lost CXL response gives 0x109 and poisons what was to be written; a
dynamic-capacity event interrupts the driver of function 0 with vector 4 (log entry 44). `netResponse`, `staleNotice`, `netRetryTimer`, `responseAck`, `atomicCacheExpiry`,
`dcdExtentAdded`, `dcdExtentRelease` and `cxlResponseTimeout` complete (R355, R358, R359, R363, R364). -/
def Obligations.NetworkAnswersAndCxlEvents : Prop :=
  (∀ (s : State) (r : NetReq) (rtt : Nat), getReq s r.id = some r →
    (r.stage ≠ 2 → exec (.netResponse r.id rtt) s = .next s) ∧
    (r.stage = 2 → let u := { s with congest := smMod s.congest (0, 0, 0) r.entry (congestUpdate s.podTime rtt) }
      (r.coll = 0 → exec (.netResponse r.id rtt) s = .next (netFinish u r r.causes)) ∧
      (r.coll ≠ 0 → getPkt s r.pkt = none → exec (.netResponse r.id rtt) s = .next (delReq u r.id)) ∧
      ∀ p, r.coll ≠ 0 → getPkt s r.pkt = some p → ∃ t, exec (.netResponse r.id rtt) s = .next t ∧ getReq t r.id = none ∧ getPkt t p.id = none ∧
        (p.acked = false → p.kind ≠ .agath → (getCtx t (ctxSrc p)).acks = (getCtx s (ctxSrc p)).acks - 1)) ∧
    (∀ o, r.stage = 2 → r.coll = 0 → r.causes = [] → getOp s r.op = some o → o.kind = .rget → (∀ a ∈ o.lanes, a.lane < 32 ∧ a.lane ∈ r.lanes) →
      (o.lanes.map (·.lane)).Nodup → o.counter = 1 → ∃ t, exec (.netResponse r.id rtt) s = .next t ∧ getReq t r.id = none ∧ getOp t r.op = none ∧
        t.mem = s.mem ∧ t.bench = s.bench ∧ (getWave t o.w).ld = (getWave s o.w).ld - 1 ∧
        Claims.LaneLoads (getWave s o.w) (getWave t o.w) o (fun a => loadExtend o.sz (smGet r.values 0 a.lane))) ∧
    (r.stage ≠ 3 → exec (.staleNotice r.id) s = .next s) ∧
    (∀ o, r.stage = 3 → getOp s r.op = some o → (∃ a ∈ o.lanes, a.lane ∈ r.lanes) → ∃ t o', exec (.staleNotice r.id) s = .next t ∧
      getReq t r.id = none ∧ getOp t r.op = some o' ∧ t.mem = s.mem ∧
      ∀ a ∈ o.lanes, a.lane ∈ r.lanes → ∃ b ∈ o'.lanes, b.lane = a.lane ∧ b.stage = .bad 0x381) ∧
    (r.stage = 4 ∨ r.sent = false → exec (.netRetryTimer r.id) s = .next s) ∧
    (r.stage ≠ 4 → r.sent = true →
      ∃ u, { u with congest := [] } = { s with congest := [] } ∧ (smGet u.congest (0, 0, 0) r.entry).1 = 4096 ∧
        (7 ≤ r.retries → exec (.netRetryTimer r.id) s =
          .next (if r.coll ≠ 0 then ctxFault u (r.coll - 1) 0x380 else netFinish u r (r.lanes.map (fun l => (l, 0x380))))) ∧
        (r.retries < 7 → exec (.netRetryTimer r.id) s = .next (setReq u
          { r with retries := r.retries + 1, stage := if r.stage = 1 then 1 else 0, values := [], causes := [] })))) ∧
  (∀ (s : State) (q : Nat), ((getReq s q).isSome = true → exec (.responseAck q) s = .next s) ∧
    (getReq s q = none → ∃ t, exec (.responseAck q) s = .next t ∧ { t with atomCache := [] } = { s with atomCache := [] } ∧
      ∀ c, c ∈ t.atomCache ↔ c ∈ s.atomCache ∧ c.2.1 ≠ q)) ∧
  (∀ (s : State) (die i : Nat), ((s.atomCache.filter (fun c => c.1 == die))[i]? = none → exec (.atomicCacheExpiry die i) s = .next s) ∧
    ∀ c, (s.atomCache.filter (fun c => c.1 == die))[i]? = some c →
      ((getReq s c.2.1).isSome = true → exec (.atomicCacheExpiry die i) s = .next s) ∧
      (getReq s c.2.1 = none → exec (.atomicCacheExpiry die i) s = .next { s with atomCache := s.atomCache.erase c })) ∧
  (∀ (now t : Nat) (c : Nat × Nat × Nat), (c.1 = 0 ∨ (4096 ≤ c.1 ∧ c.1 ≤ 4194304)) →
    4096 ≤ (congestUpdate now t c).1 ∧ (congestUpdate now t c).1 ≤ 4194304) ∧
  (∀ (now t w b at' : Nat), 0 < w → 0 < b → b - 1 + 5000 < t → (at' ≠ 0 → now < at' - 1 + t → (congestUpdate now t (w, b, at')).1 = w) ∧
    (at' = 0 ∨ at' - 1 + t ≤ now → congestUpdate now t (w, b, at') = (max 4096 (w - w * 4 * (t - (b - 1) - 5000) / (10 * t)), b, now + 1))) ∧
  (∀ (pkg port base len : Nat) (s : State), let good : Prop := port < 4 ∧ len ≠ 0 ∧ base % 4096 = 0
    (good → exec (.dcdExtentAdded pkg port base len) s = .next { s with notes := s.notes ++ [.interrupt pkg 0 4] } ∧
      exec (.dcdExtentRelease pkg port base len) s = .next { s with notes := s.notes ++ [.interrupt pkg 0 4] }) ∧
    (¬ good → exec (.dcdExtentAdded pkg port base len) s = .next s ∧ exec (.dcdExtentRelease pkg port base len) s = .next s)) ∧
  (∀ (s : State) (id : Nat), getOp s id = none → exec (.cxlResponseTimeout id) s = .next s) ∧
  (∀ (s : State) (o : Op), getOp s o.id = some o →
    (o.lanes.any (cxlLane o) = false ∨ unblocked s o = false → exec (.cxlResponseTimeout o.id) s = .next s) ∧
    (o.lanes.any (cxlLane o) = true → unblocked s o = true → ∃ t, exec (.cxlResponseTimeout o.id) s = .next t ∧
      getOp t o.id = some { o with lanes := o.lanes.map (fun a => if cxlLane o a then { a with stage := .bad 0x109 } else a) } ∧
      { t with ops := [], poison := [] } = { s with ops := [], poison := [] } ∧ (opWrites o.kind = false → t.poison = s.poison) ∧
      (opWrites o.kind = true → ∀ a ∈ o.lanes, cxlLane o a = true → ∀ pa, stagePa a = some pa → poisoned t pa (opBytes o) = true)))

namespace Sys2Proof.Claims

/-! ### Commands of the host (R159, R194, R206, R299, R353, R354, R370 to R379, R403, R404, R425, R440 to R447) -/

/-- The driver's commands: the head of each, and whether its fields lie outside their limits or name nothing. -/
def vfRow (s : State) (ev : Instr) : Option (CmdHead × Bool) :=
  match ev with
  | .regionModeSwitch c base len => some (c, !ownRange c.pkg base len)
  | .invalidate c _ _ => some (c, false)
  | .bmread c first n => some (c, n == 0 || first + n > partField s (cmdVif c) 24 8)
  | .esload c die image => some (c, die ≥ 2 || !(List.range 1024).all (fun i => schedOk (natBits image (128 * i + 127) (128 * i))))
  | .phaseset c die value => some (c, die ≥ 2 || value ≥ 65536)
  | .ringcfg c ring base size ctl =>
    some (c, ring ≥ 16 || base % 4096 != 0 || base ≥ 2 ^ 64 || !ringSize size || ctl % 64 != 0 || ctl ≥ 2 ^ 64)
  | .rdesc c (.remote i e) => some (c, i ≥ 4096 || natBits e.toNat 255 128 != 0 || natBits e.toNat 72 40 != 0)
  | .rdesc c (.region i e) => some (c, i ≥ 65536 || e.toNat ≥ 2 ^ 148)
  | .bufmap c i e => some (c, i ≥ partField s (cmdVif c) 40 2 || !bufOk e.toNat)
  | .wavectlResume c l k => some (c, (namedHalt s (cmdVif c) l k).isNone)
  | .wavectlEnd c l k => some (c, (namedHalt s (cmdVif c) l k).isNone)
  | .wavectlFrame c l k => some (c, (namedHalt s (cmdVif c) l k).isNone)
  | .sysopVacate c base cores => some (c, base ≥ 2 ^ 64 || cores ≥ 2 ^ 32)
  | .sysopFreeze c base size => some (c, base ≥ 2 ^ 64 || size ≥ 2 ^ 32 || !hasFeature s (cmdVif c) 11)
  | .sysopThaw c base => some (c, base ≥ 2 ^ 64 || !hasFeature s (cmdVif c) 11)
  | .ctrread c counter unit _ => some (c, (ctrUnit s c counter unit).isNone)
  | _ => none

/-- The management function's commands. -/
def mgmtRow (ev : Instr) : Option (CmdHead × Bool) :=
  match ev with
  | .partset c vi e => some (c, vi ≥ 64 || !partOk e.toNat)
  | .lctset c vi i e => some (c, vi ≥ 64 || i ≥ 256 || natBits e.toNat 14 8 != 0)
  | .linkctlRetrain c port => some (c, port ≥ 24)
  | .linkctlDisable c port => some (c, port ≥ 24)
  | .powercap c watts => some (c, watts < 600 || watts > 2600)
  | .featlock c vi e => some (c, vi ≥ 64 || e.toNat ≥ 4096)
  | _ => none

/-- A command of `u` ends in `t`: its record stands in the completion area of its queue, if that is configured, written behind all that the
package has written; then comes its interrupt, where it asks for one. A result that the manual does not state is a free value. -/
def Ends (u t : State) (c : CmdHead) (status : Nat) (result : Option Nat) : Prop :=
  ∃ r f, (∀ x, result = some x → r = x ∧ f = u.free) ∧
    let q := getQueue u (queueKey c)
    let v := { u with free := f }
    let w := if queueSet q = true then
        modQueue (homeBytes (flushFar v c.pkg (fun _ => true)) (q.area + 16 * q.records % (q.size / 4)) 16
          (c.tag.toNat + 2 ^ 32 * status + 2 ^ 64 * r)) (queueKey c) (fun q => { q with records := q.records + 1 })
      else v
    t = { w with notes := w.notes ++ .completion c.pkg c.fn c.tag status r :: (if c.tag.getLsbD 31 then [.interrupt c.pkg c.fn 2] else []) }

/-- Its function reaches a package that is READY. -/
def Reaches (s : State) (c : CmdHead) : Prop := c.pkg < Config.packages ∧ c.fn ≤ Config.interfaces ∧ (getPkg s c.pkg).ready = true

/-- The command is taken from its queue, which changes nothing else: a command tried again, one whose function has no ring or that the
table of commands does not list, or the one that stands next in the ring, in `u`. -/
def Taken (s u : State) (c : CmdHead) (ev : Instr) : Prop :=
  let q := getQueue s (queueKey c)
  (q.again = true ∧ u = modQueue s (queueKey c) (fun q => { q with again := false })) ∨
  (q.again = false ∧ (queueSet q = false ∨ opcOf ev = none) ∧ u = s) ∨
  (q.again = false ∧ queueSet q = true ∧ q.taken ≠ q.head ∧ rawBad (ringCommand s q) = false ∧ opcOf ev = some (rawOpc (ringCommand s q)) ∧
    rawTag (ringCommand s q) = c.tag ∧ u = modQueue s (queueKey c) (fun q => { q with taken := q.taken + 64 }))

/-- Nothing of its queue waits, and no `SYSOP` command is in progress on the command's interface. -/
def QueueFree (s : State) (c : CmdHead) : Prop :=
  (getQueue s (queueKey c)).held = [] ∧ (c.fn ≠ 0 → ∀ o, (getIface s (cmdVif c)).sysop = some o → o.cmd = none)

/-- The command waits in its queue, behind those that wait already. -/
def Waits (u t : State) (c : CmdHead) (ev : Instr) : Prop := t = modQueue u (queueKey c) (fun q => { q with held := q.held ++ [ev] })

/-- The command of an interface's driver runs, in `u`. -/
def VfRuns (s u : State) (ev : Instr) (c : CmdHead) : Prop :=
  vfRow s ev = some (c, false) ∧ Reaches s c ∧ c.fn ≠ 0 ∧ Taken s u c ev ∧ QueueFree u c ∧ enabled s (cmdVif c) = true

/-- A command of the management function runs, in `u`. -/
def MgmtRuns (s u : State) (ev : Instr) (c : CmdHead) : Prop :=
  mgmtRow ev = some (c, false) ∧ Reaches s c ∧ c.fn = 0 ∧ Taken s u c ev ∧ QueueFree u c

end Sys2Proof.Claims

/-- A command for a function that the package does not have does nothing; one that finds the package not READY gets completer abort. A command
is taken in the order of its ring, and waits in its queue behind one that is still executed; one that waits is tried again. A ring's command
with an unknown OPC or a reserved byte that is not zero ends with STATUS 1. A driver's command ends with STATUS 1 where its fields lie outside
their limits or it names nothing, and with 3 where its interface is not ENABLED; else it has its effect and ends with STATUS 0. A buffer's
change waits for the DEVL in flight, a WAVECTL for a drain and for a spilled crew. The queue, the results, and the statuses of mailbox
commands are log entry 19, those of SYSOP log entry 18, and the place of the region table log entry 15. A switch to HC writes the range
back; an invalidation drops translations, those of waiting accesses too; schedules, phases, rings, remote descriptors, regions and buffers are
written; counters are read and cleared; halted waves go on, end or are delivered. The commands are `regionModeSwitch`, `invalidate`, `bmread`,
`esload`, `phaseset`, `ringcfg`, `rdesc`, `bufmap`, `ctrread`, `wavectlResume`, `wavectlEnd`, `wavectlFrame`, `sysopVacate`, `sysopFreeze`
and `sysopThaw` (R194, R206, R299, R354, R370 to R376, R403, R404, R425, R440 to R444). -/
def Obligations.DriverCommandsComplete : Prop :=
  (∀ (s : State) (ev : Instr) (c : CmdHead) (bad : Bool), (Claims.vfRow s ev = some (c, bad) ∨ Claims.mgmtRow ev = some (c, bad)) →
    ((Config.packages ≤ c.pkg ∨ Config.interfaces < c.fn) → exec ev s = .next s) ∧
    (c.pkg < Config.packages → c.fn ≤ Config.interfaces → (getPkg s c.pkg).ready = false →
      exec ev s = .next { s with notes := s.notes ++ [.abort c.pkg c.fn] })) ∧
  (∀ (s : State) (ev : Instr) (c : CmdHead) (bad : Bool), (Claims.vfRow s ev = some (c, bad) ∨ Claims.mgmtRow ev = some (c, bad)) → Claims.Reaches s c →
    ((¬ ∃ u, Claims.Taken s u c ev) → exec ev s = .next s) ∧
    ∀ u, Claims.Taken s u c ev → ¬ Claims.QueueFree u c → ∃ t, exec ev s = .next t ∧ Claims.Waits u t c ev) ∧
  (∀ (s u : State) (ev : Instr) (c : CmdHead) (bad : Bool), Claims.vfRow s ev = some (c, bad) → Claims.Reaches s c → Claims.Taken s u c ev →
    Claims.QueueFree u c →
    (c.fn = 0 ∨ bad = true → ∃ t, exec ev s = .next t ∧ Claims.Ends u t c 1 none) ∧
    (c.fn ≠ 0 → bad = false → enabled s (cmdVif c) = false → ∃ t, exec ev s = .next t ∧ Claims.Ends u t c 3 none)) ∧
  (∀ (s : State) (k : Nat), let q := getQueue s k
    let c : CmdHead := ⟨k / 65, k % 65, rawTag (ringCommand s q)⟩
    queueSet q = true → q.taken ≠ q.head → (getPkg s (k / 65)).ready = true → Claims.QueueFree s c → rawBad (ringCommand s q) = true →
      ∃ t, badCommand k s = .next t ∧ Claims.Ends (modQueue s k (fun q => { q with taken := q.taken + 64 })) t c 1 none) ∧
  (∀ (s t : State) (k : Nat) (ev : Instr) (rest : List Instr), (getQueue s k).held = ev :: rest →
    exec ev (modQueue s k (fun q => { q with held := [], again := true })) = .next t →
    ((getQueue t k).held = [] → heldCommand s k = some (modQueue t k (fun q => { q with held := rest, again := false }))) ∧
    ((getQueue t k).held ≠ [] → heldCommand s k = none)) ∧
  (∀ (s₀ s : State) (c : CmdHead) (base len : Nat), Claims.VfRuns s₀ s (.regionModeSwitch c base len) c → ∃ u t,
    exec (.regionModeSwitch c base len) s₀ = .next t ∧ Claims.Ends u t c 0 none ∧
    { u with grain := [] } = { ((s.cache.map (fun kv => kv.1 % 2 ^ 53)).filter
      (fun l => inSpan (base / 128 * 128) (base % 128 + len) (l * 128))).eraseDups.foldl (fun s l => switchLine s c.pkg l) s with grain := [] }) ∧
  (∀ (s₀ s : State) (c : CmdHead) (base len : Nat), Claims.VfRuns s₀ s (.invalidate c base len) c → ∃ u t,
    exec (.invalidate c base len) s₀ = .next t ∧ Claims.Ends u t c 0 none ∧
    { u with tlb := [], ops := [], walks := [], atomPend := [], ctr := [], nextId := 0 }
      = { s with tlb := [], ops := [], walks := [], atomPend := [], ctr := [], nextId := 0 } ∧
    (∀ e, e ∈ u.tlb ↔ e ∈ s.tlb ∧ ¬ (e.vif = cmdVif c ∧ e.vbase < base + len ∧ base < e.vbase + e.size)) ∧
    ∀ o ∈ u.ops, ∀ a ∈ o.lanes, staleLane u (cmdVif c) base len o a = false) ∧
  (∀ (s₀ s : State) (c : CmdHead) (first n : Nat), Claims.VfRuns s₀ s (.bmread c first n) c →
    (∃ u t r, exec (.bmread c first n) s₀ = .next t ∧ Claims.Ends u t c 0 (some r)) ∧
    (first % 8 + n ≤ 8 → let i := partField s (cmdVif c) 8 8 + first / 8
      let b := (readDie s (2 * c.pkg) i 1).2
      ∃ t, exec (.bmread c first n) s₀ = .next t ∧
        Claims.Ends (writeDie (readDie s (2 * c.pkg) i 1).1 (2 * c.pkg) i (b - (b &&& ((2 ^ n - 1) * 2 ^ (first % 8))))) t c 0
          (some (b / 2 ^ (first % 8) % 2 ^ n)))) ∧
  (∀ (s₀ s : State) (c : CmdHead) (die image : Nat), Claims.VfRuns s₀ s (.esload c die image) c → ∃ u t,
    exec (.esload c die image) s₀ = .next t ∧ Claims.Ends u t c 0 none ∧ { u with evict := [] } = { s with evict := [] } ∧
    (∀ i < 1024, (smGet u.evict 0 (1024 * (2 * c.pkg + die) + i)).toNat = natBits image (128 * i + 127) (128 * i)) ∧
    ∀ j, j / 1024 ≠ 2 * c.pkg + die → smGet u.evict 0 j = smGet s.evict 0 j) ∧
  (∀ (s₀ s : State) (c : CmdHead) (die value : Nat), Claims.VfRuns s₀ s (.phaseset c die value) c → ∃ u t,
    exec (.phaseset c die value) s₀ = .next t ∧ Claims.Ends u t c 0 none ∧ { u with phase := [] } = { s with phase := [] } ∧
    getPhase u (2 * c.pkg + die) = value ∧ ∀ d, d ≠ 2 * c.pkg + die → getPhase u d = getPhase s d) ∧
  (∀ (s₀ s : State) (c : CmdHead) (ring base size ctl : Nat), Claims.VfRuns s₀ s (.ringcfg c ring base size ctl) c → ∃ u t,
    exec (.ringcfg c ring base size ctl) s₀ = .next t ∧ Claims.Ends u t c 0 none ∧ { u with rings := [] } = { s with rings := [] } ∧
    let k := 16 * cmdVif c + ring
    getRing u k = { getRing s k with configured := true, base := base, size := size, ctl := ctl, held := false, lost := false } ∧
    ∀ j, j ≠ k → getRing u j = getRing s j) ∧
  (∀ (s₀ s : State) (c : CmdHead) (i : Nat) (e : BitVec 256), Claims.VfRuns s₀ s (.rdesc c (.region i e)) c → ∃ u t,
    exec (.rdesc c (.region i e)) s₀ = .next t ∧ Claims.Ends u t c 0 none ∧
    { u with regions := [], regionCache := [] } = { homeBytes s (regionAddr s (cmdVif c) i) 32 e.toNat with regions := [], regionCache := [] } ∧
    (∀ x, x ∈ u.regionCache ↔ x ∈ s.regionCache ∧ x.2 ≠ 65536 * cmdVif c + i) ∧
    ∀ kv ∈ u.regions, kv ∈ s.regions ∧ kv.1 ≠ 65536 * cmdVif c + i) ∧
  (∀ (s₀ s : State) (c : CmdHead) (i : Nat) (e : BitVec 256), Claims.VfRuns s₀ s (.rdesc c (.remote i e)) c → ∃ t,
    exec (.rdesc c (.remote i e)) s₀ = .next t ∧
    Claims.Ends (homeBytes s (partField s (cmdVif c) 48 8 + 16 * i) 16 e.toNat) t c 0 none) ∧
  (∀ (s₀ s : State) (c : CmdHead) (i : Nat) (e : BitVec 256), Claims.VfRuns s₀ s (.bufmap c i e) c → let a := partField s (cmdVif c) 32 8 + 32 * i
    (devlOn s (cmdVif c) i = true → ∃ t, exec (.bufmap c i e) s₀ = .next t ∧ Claims.Waits s t c (.bufmap c i e)) ∧
    (devlOn s (cmdVif c) i = false → ∃ u t, exec (.bufmap c i e) s₀ = .next t ∧ Claims.Ends (homeBytes u a 32 e.toNat) t c 0 none ∧
      { u with latent := [] } = { s with latent := [] })) ∧
  (∀ (s₀ s : State) (c : CmdHead) (counter unit u : Nat) (clear : Bool), Claims.VfRuns s₀ s (.ctrread c counter unit clear) c →
    ctrUnit s c counter unit = some u → ∃ v t, exec (.ctrread c counter unit clear) s₀ = .next t ∧
      Claims.Ends v t c 0 (some (smGet s.ctr 0 (8 * u + counter))) ∧ { v with ctr := [] } = { s with ctr := [] } ∧
      ∀ k, smGet v.ctr 0 k = if clear = true ∧ k = 8 * u + counter then 0 else smGet s.ctr 0 k) ∧
  (∀ (s₀ s : State) (ev : Instr) (c : CmdHead) (l k w : Nat), Claims.VfRuns s₀ s ev c → namedHalt s (cmdVif c) l k = some w →
    let busy : Prop := (getIface s (cmdVif c)).sysop ≠ none ∨ (getCrew s (getWave s w).crew).spilled = true
    let m := mainWave s w
    (busy → ev = .wavectlResume c l k ∨ ev = .wavectlEnd c l k ∨ ev = .wavectlFrame c l k → ∃ t, exec ev s₀ = .next t ∧ Claims.Waits s t c ev) ∧
    (¬ busy → ev = .wavectlResume c l k → ∃ t, exec ev s₀ = .next t ∧ Claims.Ends (resumeHalted s w) t c 0 none) ∧
    (¬ busy → ev = .wavectlEnd c l k → ∃ u t, exec ev s₀ = .next t ∧ Claims.Ends (endLanes u w (live (getWave u w))) t c 0 none ∧
      u = if (getWave s w).shadow then withdrawWaits s w else withdrawPair s w) ∧
    (∀ e, ¬ busy → ev = .wavectlFrame c l k → (getWave s m).status = .halted 0x3E4 e → handlerValid s m e = true →
      ∃ t, exec ev s₀ = .next t ∧ Claims.Ends (takeTrap (unhalt s m .stopped) m) t c 0 none) ∧
    (¬ busy → ev = .wavectlFrame c l k → (∀ e, (getWave s m).status = .halted 0x3E4 e → handlerValid s m e = false) →
      ∃ t, exec ev s₀ = .next t ∧ Claims.Ends s t c 1 none)) ∧
  (∀ (s₀ s : State) (c : CmdHead) (base cores : Nat), Claims.VfRuns s₀ s (.sysopVacate c base cores) c →
    (∀ e, sysopCause s (cmdVif c) 0 base cores (cores != 0) = some e →
      ∃ t, exec (.sysopVacate c base cores) s₀ = .next t ∧ Claims.Ends s t c (if e = 0x3C0 then 4 else 1) none) ∧
    (sysopCause s (cmdVif c) 0 base cores (cores != 0) = none → (cores = 0 → ∃ t, exec (.sysopVacate c base cores) s₀ = .next t ∧
        Claims.Ends (giveBack s (cmdVif c) driverHold) t c 0 (some 0)) ∧
      (cores ≠ 0 → exec (.sysopVacate c base cores) s₀ =
        .next (startOp s (cmdVif c) { kind := 0, base := base, size := cores, cmd := some c } 8)))) ∧
  (∀ (s₀ s : State) (c : CmdHead) (base size : Nat), Claims.VfRuns s₀ s (.sysopFreeze c base size) c →
    (∀ e, sysopCause s (cmdVif c) 1 base size true = some e →
      ∃ t, exec (.sysopFreeze c base size) s₀ = .next t ∧ Claims.Ends s t c (if e = 0x3C0 then 4 else 1) none) ∧
    (sysopCause s (cmdVif c) 1 base size true = none → ∃ t o, exec (.sysopFreeze c base size) s₀ = .next t ∧
      (getIface t (cmdVif c)).sysop = some o ∧ o.kind = 1 ∧ o.cmd = some c ∧ (getIface t (cmdVif c)).frozen = true)) ∧
  (∀ (s₀ s : State) (c : CmdHead) (base : Nat), Claims.VfRuns s₀ s (.sysopThaw c base) c →
    (∀ e, sysopCause s (cmdVif c) 2 base 0 true = some e →
      ∃ t, exec (.sysopThaw c base) s₀ = .next t ∧ Claims.Ends s t c (if e = 0x3C0 then 4 else 1) none) ∧
    (sysopCause s (cmdVif c) 2 base 0 true = none → ∃ t, exec (.sysopThaw c base) s₀ = .next t ∧
      (getIface t (cmdVif c)).sysop = some { kind := 2, base := base, cmd := some c }))

/-- The management function's commands: one whose fields lie outside their limits ends with STATUS 1, one of another function with 2; a
partition that shares a resource with another ENABLED interface ends with 4. Else entry, link, cap or features are written; a written FEATEN
is locked. A trained UALink port works afresh, another works, or it stays down and is reported; at boot the last port's end sets
READY (log entry 19: the ports' numbers, and that Ethernet and CXL ports train at boot only). `partset`, `lctset`, `linkctlRetrain`, `linkctlDisable`, `powercap`,
`featlock` and `linkTrainingComplete` complete (R377 to R379, R445, R447). -/
def Obligations.ManagementCommandsComplete : Prop :=
  (∀ (s u : State) (ev : Instr) (c : CmdHead) (bad : Bool), Claims.mgmtRow ev = some (c, bad) → Claims.Reaches s c → Claims.Taken s u c ev →
    Claims.QueueFree u c →
    (bad = true → ∃ t, exec ev s = .next t ∧ Claims.Ends u t c 1 none) ∧
    (bad = false → c.fn ≠ 0 → ∃ t, exec ev s = .next t ∧ Claims.Ends u t c 2 none)) ∧
  (∀ (s₀ s : State) (c : CmdHead) (vi : Nat) (e : BitVec 2048), Claims.MgmtRuns s₀ s (.partset c vi e) c →
    (partConflict s c.pkg vi e.toNat = true → ∃ t, exec (.partset c vi e) s₀ = .next t ∧ Claims.Ends s t c 4 none) ∧
    (partConflict s c.pkg vi e.toNat = false → ∃ u t, exec (.partset c vi e) s₀ = .next t ∧ Claims.Ends u t c 0 none ∧
      { u with part := [] } = { s with part := [] } ∧ ∀ k, smGet u.part 0 k = if k = 64 * c.pkg + vi then e else smGet s.part 0 k)) ∧
  (∀ (s₀ s : State) (c : CmdHead) (vi i : Nat) (e : BitVec 16), Claims.MgmtRuns s₀ s (.lctset c vi i e) c → ∃ u t, exec (.lctset c vi i e) s₀ = .next t ∧
    Claims.Ends u t c 0 none ∧ { u with lct := [] } = { s with lct := [] } ∧
    ∀ k, smGet u.lct 0 k = if k = 256 * (64 * c.pkg + vi) + i then e else smGet s.lct 0 k) ∧
  (∀ (s₀ s : State) (c : CmdHead) (port : Nat), Claims.MgmtRuns s₀ s (.linkctlRetrain c port) c → let l := 2 * (24 * c.pkg + port)
    ((getPort s l).up = true → ∃ t, exec (.linkctlRetrain c port) s₀ = .next t ∧ Claims.Ends s t c 0 none) ∧
    ((getPort s l).up = false → ∃ u t, exec (.linkctlRetrain c port) s₀ = .next t ∧ Claims.Ends u t c 0 none ∧ Claims.SameButLink s u l ∧
      u.packets = s.packets ∧ getPort u l = { getPort s l with training := true })) ∧
  (∀ (s₀ s : State) (c : CmdHead) (port : Nat), Claims.MgmtRuns s₀ s (.linkctlDisable c port) c → ∃ t, exec (.linkctlDisable c port) s₀ = .next t ∧
    Claims.Ends (takeDown s c.pkg port) t c 0 none ∧ (getPort t (2 * (24 * c.pkg + port))).up = false) ∧
  (∀ (s : State) (port : Nat), port < 24 * Config.packages → let t := getPort s (2 * port)
    (t.training = false → ∀ ok, exec (.linkTrainingComplete port ok) s = .next s) ∧
    (t.training = true → (∃ u, exec (.linkTrainingComplete port true) s = .next (bootDone u (port / 24)) ∧ { u with ports := [] } = { s with ports := [] } ∧
        getPort u (2 * port) = {} ∧ getPort u (2 * port + 1) = {} ∧ ∀ j, j / 2 ≠ port → getPort u j = getPort s j) ∧
      ∃ v, Claims.SameButLink s v (2 * port) ∧ v.packets = s.packets ∧ getPort v (2 * port) = { t with training := false } ∧
        exec (.linkTrainingComplete port false) s = .next (bootDone (logError v (port / 24) none
          { die := 2 * (port / 24) + port % 24 / 12, kind := .port, index := port % 24, cls := .trainingFailure, addr := port % 24 }) (port / 24)))) ∧
  (∀ (s : State) (p k : Nat), k < 12 → let port := 24 * Config.packages + 12 * p + k
    (port ∉ s.linkTrain → ∀ ok, exec (.linkTrainingComplete port ok) s = .next s) ∧
    (port ∈ s.linkTrain → let u := { s with linkTrain := s.linkTrain.erase port }
      exec (.linkTrainingComplete port true) s = .next (bootDone u p) ∧
      exec (.linkTrainingComplete port false) s = .next (bootDone (logError { u with linkDown := u.linkDown ++ [port] } p none
        { die := 2 * p + (if k < 8 then k / 4 else (k - 8) / 2), kind := .port, index := 24 + k, cls := .trainingFailure, addr := 24 + k }) p))) ∧
  (∀ (s : State) (p : Nat),
    let trained : Prop := (∀ k < 12, 24 * Config.packages + 12 * p + k ∉ s.linkTrain) ∧ ∀ r < 24, (getPort s (2 * (24 * p + r))).training = false
    ((getPkg s p).booting = false ∨ ¬ trained → bootDone s p = s) ∧
    ((getPkg s p).booting = true → trained → { bootDone s p with pkgs := [] } = { s with pkgs := [] } ∧
      getPkg (bootDone s p) p = { getPkg s p with booting := false, ready := true } ∧ ∀ q, q ≠ p → getPkg (bootDone s p) q = getPkg s q)) ∧
  (∀ (s₀ s : State) (c : CmdHead) (watts : Nat), Claims.MgmtRuns s₀ s (.powercap c watts) c → ∃ u t, exec (.powercap c watts) s₀ = .next t ∧
    Claims.Ends u t c 0 none ∧ { u with pkgs := [] } = { s with pkgs := [] } ∧ getPkg u c.pkg = { getPkg s c.pkg with cap := watts } ∧
    ∀ k, k ≠ c.pkg → getPkg u k = getPkg s k) ∧
  (∀ (s₀ s : State) (c : CmdHead) (vi : Nat) (e : BitVec 256), Claims.MgmtRuns s₀ s (.featlock c vi e) c → ∃ u t, exec (.featlock c vi e) s₀ = .next t ∧
    Claims.Ends u t c 0 none ∧ { u with ifaces := [] } = { s with ifaces := [] } ∧
    let f := getIface s (64 * c.pkg + vi)
    getIface u (64 * c.pkg + vi) = (if f.featLocked then f else { f with featEn := some e, featLocked := true }) ∧
    ∀ k, k ≠ 64 * c.pkg + vi → getIface u k = getIface s k)

namespace Sys2Proof.Claims

/-! ### Resets, power, failures, system operations, and the whole machine (R377, R424 to R438, R446, R447, R450) -/

/-- What a reset of package `p` leaves of another package's own state. -/
def OthersStay (s t : State) (p : Nat) : Prop :=
  ∀ q, q ≠ p → getPkg t q = getPkg s q ∧ (∀ i < 64, getIface t (64 * q + i) = getIface s (64 * q + i)) ∧
    (∀ c < 256, getCore t (256 * q + c) = getCore s (256 * q + c)) ∧ (∀ n < 32, getCtx t (32 * q + n) = getCtx s (32 * q + n)) ∧
    ∀ l < 48, getPort t (48 * q + l) = getPort s (48 * q + l)

/-- The tables by package are in their canonical form. -/
def TablesWf (s : State) : Prop :=
  smWf {} s.pkgs = true ∧ smWf {} s.ifaces = true ∧ smWf {} s.cores = true ∧ smWf {} s.ctxs = true ∧ smWf {} s.ports = true ∧ smWf {} s.cmdqs = true ∧ smWf {} s.waves = true

/-- Package `p` after a reset, whose boot found its image good or not: with a good one every port trains and READY waits for the last of
them; with a bad one no port works. -/
def PackageFresh (t : State) (p : Nat) (good : Bool) : Prop :=
  getPkg t p = { ready := false, bootErr := !good, booting := good } ∧
  (∀ r < 24, getPort t (2 * (24 * p + r)) = { up := false, training := good } ∧ getPort t (2 * (24 * p + r) + 1) = {}) ∧
  (∀ k < 12, 24 * Config.packages + 12 * p + k ∈ (if good = true then t.linkTrain else t.linkDown)) ∧
  (∀ k < 65, getQueue t (65 * p + k) = {}) ∧ (∀ i < 64, getIface t (64 * p + i) = {} ∧ smGet t.part 0 (64 * p + i) = 0) ∧ (∀ c < 256, getCore t (256 * p + c) = {}) ∧
  (∀ n < 32, getCtx t (32 * p + n) = {}) ∧ (∀ r < 1024, getRing t (1024 * p + r) = {}) ∧
  (∀ kv ∈ t.crews, vifPkg kv.2.vif ≠ p) ∧ (∀ kv ∈ t.cache, cachePkg kv.1 ≠ p) ∧ ∀ e ∈ t.tlb, vifPkg e.vif ≠ p

end Sys2Proof.Claims

/-- Resets. A cold or a device reset leaves the package as it is after reset, and no other package changed. A device reset keeps its memory,
after the caches have written back what they hold and the remote descriptors are cleared; a cold one leaves it empty; a good boot
image starts the training of every port, behind the last of which READY is set; a bad one leaves READY clear, BOOTERR set and every port down.
A reset of an interface takes away its crews, launches, rings, tables and translations, keeps its logs and the lock of its features, and ends
the command that its queue executes, a SYSOP or one that waits, with STATUS 5; its queue goes. The power control lowers the clock by a step over the cap,
raises it below, and holds 800 MHz while a die is hot, from 105 degrees down to 95. `coldReset`, `deviceReset`, `interfaceReset` and
`powerControlTick` complete (R5, R446, R447, R450; log entry 19). -/
def Obligations.ResetsAndPowerControl : Prop :=
  (∀ (s : State) (p : Nat) (good : Bool), Config.packages ≤ p →
    exec (.coldReset p good) s = .next s ∧ exec (.deviceReset p good) s = .next s ∧ ∀ w a b, exec (.powerControlTick p w a b) s = .next s) ∧
  (∀ (s : State) (p : Nat), p < Config.packages → Claims.TablesWf s →
    ∀ good,
    (∃ t, exec (.deviceReset p good) s = .next t ∧ Claims.PackageFresh t p good ∧ Claims.OthersStay s t p ∧ t.bench = s.bench ∧
      t.mem = (clearDescriptors (writeBack s p) p).mem ∧ t.poison = (clearDescriptors (writeBack s p) p).poison ∧
      ((∀ kv ∈ s.cache, cachePkg kv.1 ≠ p) → (∀ v, vifPkg v = p → partField s v 48 8 = 0) → t.mem = s.mem ∧ t.poison = s.poison) ∧ (∀ w, w / 16384 = p → getWave t w = {}) ∧ ∀ w, w / 16384 ≠ p → getWave t w = getWave s w) ∧
    ∃ t, exec (.coldReset p good) s = .next t ∧ Claims.PackageFresh t p good ∧ Claims.OthersStay s t p ∧
      (∀ kv ∈ t.mem, packageMemory p kv.1 = false) ∧ (∀ kv ∈ t.bench, kv.1 / 2 ^ 27 ≠ p) ∧ ∀ kv ∈ (clearDescriptors s p).mem, packageMemory p kv.1 = false → kv ∈ t.mem) ∧
  (∀ (s : State) (v : Nat), Config.interfaces * Config.packages ≤ v → exec (.interfaceReset v) s = .next s) ∧
  (∀ (s : State) (v : Nat), v < Config.interfaces * Config.packages → ∃ u t, exec (.interfaceReset v) s = .next t ∧
    (∀ kv ∈ u.crews, kv.2.vif ≠ v) ∧ (∀ l ∈ (getPkg u (vifPkg v)).launches, l.vif ≠ v) ∧ (∀ kv ∈ u.rings, kv.1 / 16 ≠ v) ∧ (∀ kv ∈ u.lct, kv.1 / 256 ≠ v) ∧
    (∀ kv ∈ u.regions, kv.1 / 65536 ≠ v) ∧ (∀ e ∈ u.tlb, e.vif ≠ v) ∧ (∀ k ∈ u.walks, k.vif ≠ v) ∧ u.part = s.part ∧
    getIface u v = { haltLog := (getIface s v).haltLog, errors := (getIface s v).errors, overflow := (getIface s v).overflow
                     featLocked := (getIface s v).featLocked } ∧
    let k := 65 * vifPkg v + v % 64 + 1
    let gone (x : State) : State := { x with cmdqs := x.cmdqs.filter (fun kv => kv.1 != k) }
    (commandOn s v = none → t = gone u) ∧ (∀ c, commandOn s v = some c → ∃ x, Claims.Ends u x c 5 none ∧ t = gone x) ∧
    (∀ o, (getIface s v).sysop = some o → o.cmd ≠ none → commandOn s v = o.cmd) ∧
    ((∀ o, (getIface s v).sysop = some o → o.cmd = none) → commandOn s v = ((getQueue s k).held.head?.bind cmdHead))) ∧
  (∀ (s : State) (p watts t0 t1 : Nat), p < Config.packages → ∃ t, exec (.powerControlTick p watts t0 t1) s = .next t ∧
    { t with pkgs := [], podTime := 0 } = { s with pkgs := [], podTime := 0 } ∧ (∀ q, q ≠ p → getPkg t q = getPkg s q) ∧
    let k := getPkg s p
    let hot := decide (105 < max t0 t1) || (k.hot && decide (95 ≤ max t0 t1))
    getPkg t p = { k with hot := hot, watts := watts, temp0 := t0, temp1 := t1
                          clock := if hot = true then 8 else if k.cap < watts then max 8 (k.clock - 1) else min 16 (k.clock + 1) } ∧
    t.podTime = if p = 0 then (s.podTime + 1000000) % 2 ^ 64 else s.podTime)

/-- The failure of a core and the system operations' ends. A core that fails leaves the interface's table of logical cores, its crews stop,
and they are saved once drained. A drain that takes too long cancels the crews' commands. An operation completes once its crews are drained
and, for a FREEZE, its contexts are at rest; it ends by giving D, or its command a result. One that fails resumes what it stopped.
`coreFailure`, `drainEngineTimeout` and `systemOpComplete` complete (R377, R425 to R430, R433, R435, R438). The cause of a failing THAW, an
image that does not fit and the records of a failed core's crews are log entries 18, 17 and 1. -/
def Obligations.SystemOperationsComplete : Prop :=
  (∀ (s : State) (core : Nat), (getCore s core).failed = true → exec (.coreFailure core) s = .next s) ∧
  (∀ (s : State) (core : Nat), (getCore s core).failed = false → ∃ t, exec (.coreFailure core) s = .next t ∧ (getCore t core).failed = true ∧
    (∀ v n, n < 256 → smWf 0 s.lct = true → physCore t v n ≠ some core) ∧
    (∀ v n, n < 256 → smWf 0 s.lct = true → physCore s v n ≠ some core → physCore t v n = physCore s v n) ∧
    (∀ v, coreVif s core = some v → crewsOn s core ≠ [] → core ∈ (getIface t v).failing)) ∧
  (∀ (s : State) (v : Nat), let l := (drainingCrews s v).filter (fun ci => !(crewCommands s ci).isEmpty)
    (l = [] → exec (.drainEngineTimeout v) s = .next s) ∧
    (l ≠ [] → ∃ t, exec (.drainEngineTimeout v) s = .next t ∧
      { t with ifaces := [] } = { l.foldl cancelCrew s with ifaces := [] } ∧
      ∀ o, (getIface s v).sysop = some o → (getIface t v).sysop = some { o with timedOut := true })) ∧
  (∀ (s : State) (v : Nat),
    (∀ c, (getIface s v).failing.find? (fun c => (crewsOn s c).all (fun kv => drained s kv.1)) = some c →
      exec (.systemOpComplete v) s = .next (completeFailure s v c)) ∧
    ((getIface s v).failing.find? (fun c => (crewsOn s c).all (fun kv => drained s kv.1)) = none →
      ((getIface s v).sysop = none → exec (.systemOpComplete v) s = .next s) ∧
      ∀ o, (getIface s v).sysop = some o →
        (((∃ ci ∈ o.crews, drained s ci = false) ∨ (o.kind = 1 ∧ ctxsAtRest s v = false)) → exec (.systemOpComplete v) s = .next s) ∧
        ((∀ ci ∈ o.crews, drained s ci = true) → (o.kind = 1 → ctxsAtRest s v = true) →
          (o.kind = 0 → exec (.systemOpComplete v) s = .next (match saveCores s v o.crews o.base o.cores with
            | (u, .ok ()) => finishOp u v o (some o.cores.length)
            | (_, .error e) => failOp s v o e)) ∧
          (o.kind = 1 → exec (.systemOpComplete v) s = .next (match writeImage s v o with
            | (u, .ok n) => finishOp (if n = 0 then s else u) v o (some n)
            | (_, .error e) => failOp s v o e)) ∧
          (o.kind = 2 → ∃ y, (getIface y v).frozen = false ∧ exec (.systemOpComplete v) s = .next (match readArea s v o.base 4096 with
            | (_, .error e) => failOp s v o e
            | (u, .ok h) => if headerOk h = false then failOp s v o 0x3C2 else
              match readArea u v o.base (bytesAt h 16 8) with
              | (_, .error e) => failOp s v o e
              | (_, .ok im) => if crc32c (natBytes (bytesAt h 16 8 - 4096) (im / 256 ^ 4096)) ≠ bytesAt im 64 4 then failOp s v o 0x3C2 else
                match thawCause s v im with
                | some c => failOp s v o c
                | none => finishOp y v o none))))) ∧
  (∀ (s : State) (v w d : Nat) (o : SysOp), o.w = some w → o.cmd = none → (getWave s w).crew = o.crew → (getWave s w).status ≠ .absent →
    (getIface (finishOp s v o (some d)) v).sysop = none ∧ getWave (finishOp s v o (some d)) w = readyBehind (sPut (getWave s w) o.d d) ∧
    ∀ j, j ≠ w → getWave (finishOp s v o (some d)) j = getWave s j) ∧
  (∀ (s : State) (v d : Nat) (o : SysOp) (c : CmdHead), o.w = none → o.cmd = some c →
    Claims.Ends (modIface s v (fun f => { f with sysop := none })) (finishOp s v o (some d)) c 0 (some d)) ∧
  (∀ (s : State) (v e : Nat) (o : SysOp) (c : CmdHead), o.w = none → o.cmd = some c → o.crews = [] → o.kind = 2 →
    Claims.Ends (modIface s v (fun f => { f with sysop := none })) (failOp s v o e) c 1 none)

/-- The machine after reset: nothing is resident, every memory is empty and in its canonical form, nothing is due, every package is READY
with its ports up, at 1.6 GHz and a cap of 2,600 W (R114, R446, R447; log entries 2 to 6 and 19). -/
def Obligations.ResetState : Prop :=
  memoriesWf State.reset ∧ State.reset.agenda = [] ∧ State.reset.turns = [] ∧ State.reset.mem = [] ∧ State.reset.bench = [] ∧
  State.reset.ops = [] ∧ State.reset.crews = [] ∧ State.reset.waves = [] ∧ State.reset.wave = {} ∧ State.reset.cur = 0 ∧ State.reset.notes = [] ∧
  (∀ w, (getWave State.reset w).status = .absent) ∧ (∀ p, (getPkg State.reset p).ready = true ∧ (getPkg State.reset p).clock = 16 ∧
    (getPkg State.reset p).cap = 2600 ∧ (getPkg State.reset p).launches = []) ∧ (∀ v, enabled State.reset v = false) ∧
  (∀ l, (getPort State.reset l).up = true) ∧ State.reset.linkTrain = [] ∧ State.reset.linkDown = [] ∧ State.reset.cmdqs = [] ∧ (∀ n, ctxState (getCtx State.reset n) = 0) ∧ (∀ r, (getRing State.reset r).configured = false)

/-- No instruction is refused and none stops the machine: every step that an instruction or an event takes has a next state, in every
state. -/
def Obligations.NoInstructionIsRefused : Prop :=
  (∀ (i : Instr) (s : State), ∃ t, exec i s = .next t) ∧ ∀ s : State, ∃ t, step s = .next t

/-- Every step keeps the memories' canonical form: addresses strictly rise, and no entry equals what an unlisted address reads as. -/
def Obligations.StepKeepsTheMemoriesCanonical : Prop :=
  ∀ s t : State, memoriesWf s → step s = .next t → memoriesWf t

/-- IDIV and IREM complete where no executing lane of a TRAP form divides by zero: D takes the quotient or the remainder of R140. With
TRAP, a zero divisor in an executing lane is 0x015: the lanes that divide by zero fault, and nothing is written (R140). -/
def Obligations.DivisionCompletesOrTraps : Prop :=
  Claims.DivisionCompletes ∧ Claims.DivisionByZeroTraps

/-- SEL takes A in the lanes where the predicate register C holds, B in the others (R145); that an 8-bit immediate of SEL is sign-extended
is the model's choice, which R134 and R145 do not state (log entry 31). MOV to a vector register or a scalar takes its source; to a
predicate register, whether the source is not zero; to a mask other than k0, where a lane executes, the source's 32 bits, and then the
waits on masks are evaluated; to k0 it is 0x002 (R144, R24, R88). The predicate instructions and ISETP complete: each executing lane's bit
of the destination takes its value, every other lane keeps its bit, and no flag is raised (R146, R170, R35). -/
def Obligations.MovesSelectionAndPredicatesComplete : Prop :=
  Claims.MovesAndSelectionComplete ∧ Claims.PredicateInstructionsComplete

/-- FSETP that raises no enabled exception completes: the bits of the executing lanes take the truth of the comparison, the others keep
theirs, and the sticky flags take the flags raised (R107, R146). A floating instruction, FSETP among them, that raises an enabled
exception faults precisely with the cause of the lowest enabled flag, 0x010 to 0x014: the sticky flags are set and no destination is
written (R46). -/
def Obligations.FloatingComparisonsAndTraps : Prop :=
  Claims.FloatingComparisonCompletes ∧ Claims.EnabledFloatingExceptionTraps

/-- JOIN and LEAVE, in both sizes, complete: `join32`, `join64`, `leave32` and `leave64` write their mask and evaluate the waits on masks;
with no lane executing they only go on; a destination k0 is 0x002. What the evaluation does: a live lane whose wait is over is parked no
more, and nothing else changes (R171, R173, R24, R88). WAITM completes, in both sizes: `waitm32` and `waitm64` take the executing lanes
out of their mask and park them on it with the fall-through header as PC; those lanes leave the path, and the waits on masks are
evaluated, so that a lane whose mask is then empty does not stay parked; no other lane, register or mask changes. With no lane executing
it only goes on. In a handler, and on k0, it is 0x002 (R172, R173, R415, R24). -/
def Obligations.MaskInstructionsAndWaits : Prop :=
  Claims.MaskInstructionsComplete ∧ Claims.WaitmParksItsLanes

/-- PART and LANEID complete: `part32` and `part64` set LANEPART to the code of their width where an active lane executes them, and the
waits on masks are evaluated; with no lane executing they only go on, and a width other than 2, 4, 8, 16 or 32 is 0x002 (R175, R124);
`laneid32` gives each executing lane its number, or its number within its tile (R176). REDUCE and SCAN (`reduce64`, `scan64`) that raise
no enabled exception complete: each executing lane takes its tile's tree or scan, and the sticky flags take what the executing lanes'
trees raised; an enabled exception faults precisely instead, with the cause of the lowest enabled flag (R64, R65, R181, R46). -/
def Obligations.PartitionsAndReductionsComplete : Prop :=
  Claims.PartitionInstructionsComplete ∧ Claims.ReductionsComplete

/-- BRA and CALL complete, in both sizes (`bra32`, `bra96`, `call32`, `call96`): every executing lane goes to the header at its distance
from the instruction and leaves the path, a call pushes the stroke's fall-through header, nothing else changes, and the rest of the path
goes on; a lane whose return stack holds 16 entries makes CALL fault precisely with 0x018, and no lane branches (R165, R166, R168). BRX
and RET complete: `brx64` sends each executing lane to the header that its own pair A holds, and its link form writes the fall-through
header to D; `ret32` sends it to the top entry of its return stack, which it pops, and faults precisely with 0x019 where an executing
lane's stack is empty. The lanes leave the path, and nothing else changes (R166, R167, R168). NOP and EXIT complete: `nop32`, and an
`exit32` that no lane executes, only go on; `exit32` takes its executing lanes out of every mask, k0 among them, leaves none of them
parked on a mask, and writes no register; while a live lane is left, nothing but masks, lanes, paths, waits and the crew's route tags
changes, and when none is left the wave has ended (R169, R31). -/
def Obligations.BranchesAndExitComplete : Prop :=
  Claims.BranchesAndCallsComplete ∧ Claims.IndirectBranchesComplete ∧ Claims.NopAndExitComplete

/-- Taking a trap (R408, R410, R411, R414): the lanes of the delivered cause are all those of the raising wave that met it; for a stopped
wave with a cause to deliver, no handler running, a vector entry that is valid and a frame that can be written, the event enters the
handler: each field of the frame is stored at its place, and what is not a wave is as these stores and the withdrawal of the pair's waits
leave it; every live lane stands at the handler's header, s0 and s1 hold the frame's address, s2 the cause, s3 its lanes, INTRAP is set,
STEP, BOFF, LANEPART and ORDP are zero, no cause stands, and the wave runs. A cause that comes while a handler runs, a vector entry that
is not valid, and a frame that cannot be written halt the wave for the driver, with 0x3E2 and the cause, 0x3E4 and the cause, and 0x3E3
and the cause of the frame's own access; a wave that halts keeps its registers, waits and continuations (R422). -/
def Obligations.TrapDeliveryOrHalt : Prop :=
  Claims.TrapDeliveryEntersTheHandler ∧ Claims.UndeliverableTrapHaltsTheWave

/-- TRET (`tret32`) outside a handler is 0x006 for the lanes that execute it; in a handler it completes by returning: once the wave's own
stores before it are performed it restores what the frame holds, and the entries of the frame are issued again (R417 to R419); where one
of those stores leaves a cause to deliver, the wave stops for it first. With no lane executing it only goes on. What a return restores
(R417, R185): from a frame whose header, records and entries can be read and are valid, for a wave without a shadow, s0 to s7, WSW[23:16]
and LANEPART as saved, ORDP, and each lane's PC, HEAD, MID and return stack; a lane whose PC the handler changed leaves the masks k1 to
k11, and one whose live bit it cleared has ended (of a lane captured dead the model ignores the live bit, log entry 54); INTRAP clears,
and the entries wait to be issued again. A header that cannot be read, or that is invalid, halts the wave with 0x3E3. -/
def Obligations.TrapReturnCompletes : Prop :=
  Claims.TrapReturn ∧ Claims.TrapReturnRestoresTheFrame

/-- LD, ST, ATOM, RED, CWB and CINV complete by entering one operation: the executing lanes' addresses, the data of D, the order and scope
of the pending slot or the defaults; LD or ST rises by one, the slot clears, and no register, and but for an atomic's own cached copies no
byte or line, changes (R238 to R252, R265). Both sizes of LD, ST, ATOM and RED are meant, and `cwb64` and `cinv64` with `.all` too, whose
addresses are checked and not used. Where the same instructions enter nothing (R242 to R245, R88): with no lane executing they only
consume their slot and go on; an order or scope that they do not take is 0x002 and a register beyond the allocation 0x008, whatever the
guard holds; an address that fails a check faults precisely with the lowest cause, for the lanes that met it; without a replay entry the
path holds at the instruction and its slot keeps the order and scope taken. -/
def Obligations.MemoryInstructionsIssueOrFault : Prop :=
  Claims.MemoryInstructionsIssue ∧ Claims.MemoryInstructionsFault

/-- ORD, FENCE, REL, ACQ and DEVL complete (`ord64`, `fence32`, `fence64`, `rel64`, `acq64`, `devl64`). ORD leaves its order and scope in
its path's slot. FENCE enters a fence; a relaxed one is 0x002. REL and ACQ enter a release of a 64-bit value and an acquire into D, at A's
pair, with their own order and scope, or fault precisely with the lowest cause of their address. DEVL enters its operation at lane 0's
address. With no lane executing they only go on; without a replay entry they hold. No other register, and no byte, changes (R244, R256 to
R259, R243). PREF completes, in both sizes (`pref64`, `pref96`), with no effect but on copies of lines, counters and translations: every
register, every mask, every count and every operation stays, its slot clears, and a fault of its access is dropped; an order that is not
relaxed, or on the bench a scope beyond the crew's, is 0x002 (R264, R245). -/
def Obligations.OrderingAndPrefetchIssue : Prop :=
  Claims.OrderingInstructionsIssue ∧ Claims.PrefetchChangesNoRegister

/-- WAITA completes (the fence of a seq_cst read comes before each attempt, which is the model's choice, log entry 22): its read in hand,
`waita64` ends at once where the value differs from D, which takes it; an equal value parks every active lane of the path at the fall-
through header, watching the location with its comparison value, and D stays. In a handler it is 0x002 (R261, R415). POLL completes: its
read in hand, `poll64` succeeds where its condition holds: D takes the value and BOFF is zero. Where it fails, BOFF rises by one up to 8,
no register changes, and its path holds at it, to continue with the order and scope it took (R263). Where WAITA and POLL read nothing, or
their read fails (R242, R243, R245, R482): an order or scope that they do not take is 0x002; with no lane executing they consume their
slot and go on; an address that fails a check faults precisely; without a replay entry they hold; a fault of the read stands for all
active lanes, which stay at the instruction, and the slot keeps the order and scope taken, once path B's instruction of the cycle has
issued too. -/
def Obligations.WaitsAndPollsOnValues : Prop :=
  Claims.WaitOnAddress ∧ Claims.PollSucceedsOrBacksOff ∧ Claims.WaitingReadsStop

/-- CSRR completes: `csrr32` and `csrr64` give their scalar the value of the control register that they name; with no lane executing they
only go on; a number that names none is 0x002 whatever the guard holds, for CSRW too (R123, R381, R88). CSRW completes: what `csrw32` and
`csrw64` write (R124 to R131, R381, R173): STEP, BOFF, PRIO and LANEPART of WSW, a BOFF beyond 8 or a LANEPART beyond 4 being 0x002, and
behind it the waits on masks are evaluated; the flags and the enables of FCSR as their bits; a QMAP word whole, or 0x002 or 0x206; the two
halves of TVBASE, aligned to 8 KiB and canonical; nothing for the registers that are only read. An 0x002 comes whatever the guard holds,
and with no lane executing nothing else happens (R88). -/
def Obligations.ControlRegisterAccesses : Prop :=
  Claims.ControlRegisterReads ∧ Claims.ControlRegisterWrites

/-- BARI completes: `bari64` arms a bench slot at once, behind the arrivals that have reached it (TARGET, PHASE as it was, ARRIVED zero,
AUTO and SCOPE of FN), every other byte unchanged; a memory object, too, at its issue, by an operation counted in ST, which stands with
its cause where its address meets one. That pending arrivals are applied first is the model's order (log entry 35). A target of zero or
from 2^48 on is 0x002 whatever the guard holds; waves parked on the object make it 0x200, precisely, so that the model reads WAITERS at
issue (log entry 32), a slot outside the bench 0x101, a unit that tracks 64 objects 0x207, a memory address 0x104 or 0x107 (R388 to R390,
R405). With no lane executing it only goes on. BADD completes: `badd64` is an operation counted in ST that will add its count at its
scope: to a bench slot, whose counting unit begins to track it, or to a memory object; without a replay entry it holds, with no lane
executing it only goes on; a slot outside the bench is 0x101, a unit that tracks 64 objects 0x207, a memory address 0x104 or 0x107 (R389,
R392). -/
def Obligations.BarrierInstructionsComplete : Prop :=
  Claims.BariArms ∧ Claims.BaddIssues

/-- BART completes: `bart64` binds the crew to a tag that is free, with OWNER, PKG and EXPECT of its operands on each die of the set, or
that the set holds with the same EXPECT and PKG and has room in: BOUND rises by one. Another owner is 0x102, any other state 0x20C.
`.free` takes the crew out again: BOUND and, on each die of the set, EXPECT fall; a tag whose EXPECT is zero is free, and where the crews
left have all arrived the round ends (R25, R398, R399). That a member count is taken modulo 2^15, the width of EXPECT, is the model's
inference (log entry 59). With no lane executing it only goes on. WAITB.tag completes: with `waitbTag64` every active lane parks on the
tag; the crew arrives exactly when its last live lane has parked, and at EXPECT arrivals of the set's dies the round ends, at the last
arrival in the model (log entry 35): ROUND rises and ARRIVED is zero on each. In a handler it is 0x002 whatever the guard holds, of a crew
not bound 0x20C; with no lane executing it only goes on (R400, R415). -/
def Obligations.RouteTagInstructionsComplete : Prop :=
  Claims.RouteTagsBindAndFree ∧ Claims.WaitbTagParksAndArrives

/-- RSV sets a record to its words and the lowest free run of operand-buffer units of the count it asks for; RLS frees one, whose words
stay (R270); CVDECL declares threads B to B + C - 1 of a register, in round zero with no credit (`rsv64`, `rls64`, `cvdecl64`). Nothing
else changes, and with no lane executing nothing at all. A shadow's is 0x002; a record out of range is 0x287, one with no free run of
units 0x288 (R266, R271, R272, R275). SIGN, in both sizes (`sign32`, `sign64`), adds its lanes' threads to the signatures of its register.
When every declared thread has signed, the round closes: ROUND rises and the signatures empty; what is armed enters the matrix engine in
order, or, with nothing armed, CREDIT rises, 0x286 at 15. A lane whose thread is not declared is 0x284, one that has signed 0x282, all of
an undeclared register 0x28C; with no lane executing it only goes on (R276, R277). -/
def Obligations.MatrixDeclarationsAndSignatures : Prop :=
  Claims.MatrixDeclarationsComplete ∧ Claims.SignClosesRounds

/-- COLL.start, stop and status (`collStart64`, `collStop64`, `collStatus64`) name a context of the wave's die below 16 (0x002, whatever
the guard holds) that its interface is assigned (0x102). Status gives D the STATUS word. Stop leaves a context that does not run as it is,
marks one whose word has begun, and idles another. Start of a context that runs or is stopped is 0x302, of a misaligned list or descriptor
0x107, of one not canonical 0x104; else ENG rises and the context runs at word 0, or has faulted with what loading its descriptor and
table met. With no lane executing they only go on (R331 to R335, R338). PHASE changes its die's phase register alone (`phase32`,
`phase64`); `PHASE #0` is 0x002 whatever the guard holds. TDONE (`tdone64`) of an entry that is VALID reaches the entry's task unit as a
completion behind those that have, with its lanes, and is 0x209 else. SPAWN (`spawn64`) of registers beyond the allocation is 0x008
whatever the guard holds, of a node with no descriptor 0x20B; else each executing lane in turn appends its record of SIZE registers, to
the open batch of the node while one is; a store without room, or the freeze of a task unit, holds the path; the lanes whose write faults
append nothing and are faulted after issue. With no lane executing they only go on (R88, R318, R322 to R325, R327, R431). The model's
choices: an open batch has its whole store, a record that finds no room holds the whole instruction, and the lanes of a faulted write read
their registers again when they issue again (log entry 40). -/
def Obligations.CollectiveAndTaskInstructions : Prop :=
  Claims.CollectiveInstructionsComplete ∧ Claims.TaskInstructionsComplete

/-- A unit that is no instruction, and an instruction of a feature that the interface has disabled, raise their cause and have no effect:
0x001, 0x002, 0x003 and 0x004 by R91, the disabled feature 0x004 by R379. A unit's reserved fields are judged when it is read, before its
feature (0x002 before 0x004), which is the model's choice of the order in step 3 (log entry 23); of an instruction of a disabled feature
that itself raises a precise cause below 0x004, that cause stands and not 0x004 (R92). A vector register at or beyond the wave's
allocation is 0x008, before any effect (R85, R160): stated of every instruction of `Claims.aluRow`. -/
def Obligations.IllegalWordsAndRegistersFault : Prop :=
  Claims.IllegalWordsRaiseTheirCause ∧ Claims.UnallocatedRegisterFaults

/-- A precise fault has no effect of its instruction: in the state that it leaves, no register, counter or byte of memory has moved from
`u`, its cause stands for the pair's trap, the wave has stopped, and the lanes of its path stand at the instruction (R406, R407). How a
path goes on behind an instruction of `n` bytes (R73, R168, R127): to the next instruction while its stroke has one; at the stroke's end
its lanes stand at the fall-through header and the ORDP slots are clear, but for those that continuations keep; a path that no lane is
left on ends; the other path keeps its place, and takes the turn where it is issuing. A path that holds at its instruction ends its stroke
there: its lanes stand at the instruction, as a continuation that waits for its condition (R28). A path that parks leaves every active
lane waiting at the fall-through header, off the path (R261, R393). A wave that steps (R126, R420): STEP is set and no handler runs. It
issues path A alone. An instruction that retires is followed by the trap 0x3E1 for its path's lanes, with STEPPED set; they stand behind
it. One that ends the stroke without retiring, because it is held or parks, raises nothing, and neither does one that faults raise
anything but its own fault. -/
def Obligations.FaultsStopAndPathsGoOn : Prop :=
  Claims.PreciseFaultStopsAtTheInstruction ∧ Claims.PathGoesOnBehindTheInstruction ∧ Claims.SteppedInstructionTraps

/-- A die that lacks a line of the other die's L2 takes it, shared; the holder's M turns to O and its E to S; of a CXL line that the other
die wrote and the pool has not completed it sees the pool's bytes and keeps no copy. A die that is told of the other's write drops its
copy, and the owner there holds the only one. A victim's dirty bytes go to its home and the line goes. A home asks a holder that its
filter names to give a line up, once; the holder's dirty bytes come home and its copies go; a pooled node snoops so too. These are
`otherDieRead`, `otherDieWrite`, `l2Eviction`, `backInvalidation`, `backInvalidationAnswer` and `bisnp` (R203 to R207, R235). An
uncorrectable error poisons the 32-byte granule it strikes and no other, in memory, a vault or a cache, on a bench, in a register file, in
the accumulators, in a packet, in a drain queue or in a combine buffer; every byte outside it stays; it is logged, for a wave's or a
crew's unit with a copy to the interface. Where nothing stands at the place, nothing is struck. A corrected one counts, changes no data,
and is logged with its unit (`uncorrectableError`, `correctedError`; R253, R448, R449). How an error names its place, and the numbers of
the units, are the model's choice (log entry 24); the granule's bytes are free values. -/
def Obligations.CoherenceKeepsBytesAndErrorsPoison : Prop :=
  Claims.CoherenceStepsKeepTheBytes ∧ Claims.ErrorsPoisonAndAreLogged

/-- At a ring's turn its packet is taken: a LAUNCH joins the launch list, TASKS and NODES load their tables whole, an EVENT is recorded, a
WAITV lets the ring pass once its word has reached the value and holds it until then; TAIL then passes the packet. A packet that is
malformed, or not known, or across the ring's end, or whose image cannot be read, stops its ring with its REASON; a control block that
cannot be read loses the ring. Out of turn, or with nothing to process, nothing happens. These are `launch`, `tasks`, `nodes`, `event`,
`waitv`, `unknownOpcode` and `straddle` (R299 to R303, R319, R323, R326, R484). A recorded EVENT is written once every LAUNCH of its ring
before it has completed, in their order, with its interrupt where it asks for one. A held WAITV looks again and passes once its word has
reached the value. A stopped ring whose driver clears ERROR goes on at TAIL, or where the driver has put TAIL. A stop writes its REASON
and offset to ERROR and interrupts. A write that a page refuses writes nothing. That a faulted EVENT is not tried again, and that later
ones of a stopped ring still write, is the model's choice (log entry 70). These are `eventWrite`, `waitvSatisfied` and `ringRestart`
(R301, R303, R484). -/
def Obligations.LaunchRingsRun : Prop :=
  Claims.RingPacketsAreTaken ∧ Claims.EventsAndStopsAreWritten

/-- The command words. A word that is due and lies outside its limits faults its context with 0x306. SEND, RECV, RSCAT, AGATH and a wide
SIGNAL take the next number among the words that they are matched with. SEND sends its elements to rank N in chunks; RSCAT sends each rank
the chunks of that rank's shard; AGATH sends the own shard to every other rank; MCAST sends its bytes to the member packages; SIGNAL
counts at its barrier object and, when wide, at that of each member package; LOOP goes back while its count lasts; HALT ends the context
and enters its completion. A member package of another pod gets its packet through an Ultra Ethernet port. An element that reaches a word
poisoned from the drain queue is 0x109. With none due, a context that is being frozen tries its checkpoint. How multicast groups and
routes are laid out among dies, packages and pods, and that a SIGNAL first makes its package's writes visible, is DEDUCED (log entry 41).
The words are `send`, `recv`, `rscat`, `agath`, `mcast`, `signal`, `loop` and `halt` (R231, R253, R336 to R342, R428). A running context
whose word cannot be read, is illegal or is reserved faults with that cause; a word whose pieces are sent, received and acknowledged is
done and the next one is due; a word that awaits a contribution too long faults with 0x305, and a context that a member's abort reaches
with 0x307. A context fault sets the state and the CAUSE and tells every other member. A freeze notice holds a context and a thaw notice
releases it, with the member's new die. These are `collBadCommand`, `collReservedCommand`, `wordComplete`, `collTimeout`, `abortPacket`,
`freezeNotice` and `thawNotice` (R113, R337, R340, R428, R437). -/
def Obligations.CollectiveContextsRun : Prop :=
  Claims.CollectiveWordsRun ∧ Claims.CollectiveContextsEnd

/-- An allocator's pass (`allocatorPass`) grants what fits in rank order, a spilled crew's restore among it, and stops at the first that
does not; a request that another grant to its wave has left beyond the wave's limit faults with 0x009 instead (the model's choice, log
entry 55); with nothing asked nothing changes. In a grow stall, where no request fits and every lane waits, with one crew on the core and
no lane waiting for anything else, the GROWs of that crew fault with 0x202, and the allocator has none of them any more. With more crews,
the last in rank is spilled, unless an operation still writes its vector registers, and a pass follows (`growSpill`); it is restored when
it is first in rank and fits: its waves run again with the registers that they had (`spillRestore`; R158 to R161). Window granules are a
crew's, in the order of log entry 56. A wave that has ended and has nothing left in flight gives up its slot, and the allocator passes,
but while its crew has cancelled commands to issue again; the last of its crew ends the crew (`waveSlotRelease`). A completion entry goes
to the lowest register that names its engine, behind those it holds, up to 8; it is dropped where none does, and ENG falls with those that
count (`engineEntryPush`; R30, R158, R169, R308, R427). -/
def Obligations.AllocationAndRelease : Prop :=
  Claims.AllocatorGrantsSpillsAndRestores ∧ Claims.SlotsAndEntriesAreReleased
end

