-- ==== Sys2Proof/Laws/Exec.lean ====
section
/-! SUPPORT. Each arm of `exec`, one rewriting lemma for each constructor. -/

namespace Sys2Proof.Machine

@[simp] theorem exec_mov32 (f) (s : State) : exec (.mov32 f) s = execMov32 f s := rfl
@[simp] theorem exec_mov64 (f) (s : State) : exec (.mov64 f) s = execMov64 f s := rfl
@[simp] theorem exec_movi32 (f) (s : State) : exec (.movi32 f) s = execMovi32 f s := rfl
@[simp] theorem exec_movi96 (f) (s : State) : exec (.movi96 f) s = execMovi96 f s := rfl
@[simp] theorem exec_sel64 (f) (s : State) : exec (.sel64 f) s = execSel64 f s := rfl
@[simp] theorem exec_sel96 (f) (s : State) : exec (.sel96 f) s = execSel96 f s := rfl
@[simp] theorem exec_lea64 (f) (s : State) : exec (.lea64 f) s = execLea64 f s := rfl
@[simp] theorem exec_lea96 (f) (s : State) : exec (.lea96 f) s = execLea96 f s := rfl
@[simp] theorem exec_isetp64 (f) (s : State) : exec (.isetp64 f) s = execIsetp64 f s := rfl
@[simp] theorem exec_isetp96 (f) (s : State) : exec (.isetp96 f) s = execIsetp96 f s := rfl
@[simp] theorem exec_fsetp64 (f) (s : State) : exec (.fsetp64 f) s = execFsetp64 f s := rfl
@[simp] theorem exec_fsetp96 (f) (s : State) : exec (.fsetp96 f) s = execFsetp96 f s := rfl
@[simp] theorem exec_bfe64 (f) (s : State) : exec (.bfe64 f) s = execBfe64 f s := rfl
@[simp] theorem exec_bfi64 (f) (s : State) : exec (.bfi64 f) s = execBfi64 f s := rfl
@[simp] theorem exec_iadd32 (f) (s : State) : exec (.iadd32 f) s = execIadd32 f s := rfl
@[simp] theorem exec_iadd32i (f) (s : State) : exec (.iadd32i f) s = execIadd32i f s := rfl
@[simp] theorem exec_iadd64 (f) (s : State) : exec (.iadd64 f) s = execIadd64 f s := rfl
@[simp] theorem exec_iadd96 (f) (s : State) : exec (.iadd96 f) s = execIadd96 f s := rfl
@[simp] theorem exec_isub32 (f) (s : State) : exec (.isub32 f) s = execIsub32 f s := rfl
@[simp] theorem exec_isub64 (f) (s : State) : exec (.isub64 f) s = execIsub64 f s := rfl
@[simp] theorem exec_imul32 (f) (s : State) : exec (.imul32 f) s = execImul32 f s := rfl
@[simp] theorem exec_imul32i (f) (s : State) : exec (.imul32i f) s = execImul32i f s := rfl
@[simp] theorem exec_imul64 (f) (s : State) : exec (.imul64 f) s = execImul64 f s := rfl
@[simp] theorem exec_imul96 (f) (s : State) : exec (.imul96 f) s = execImul96 f s := rfl
@[simp] theorem exec_imad64 (f) (s : State) : exec (.imad64 f) s = execImad64 f s := rfl
@[simp] theorem exec_imad96 (f) (s : State) : exec (.imad96 f) s = execImad96 f s := rfl
@[simp] theorem exec_imulh64 (f) (s : State) : exec (.imulh64 f) s = execImulh64 f s := rfl
@[simp] theorem exec_idiv64 (f) (s : State) : exec (.idiv64 f) s = execIdiv64 f s := rfl
@[simp] theorem exec_irem64 (f) (s : State) : exec (.irem64 f) s = execIrem64 f s := rfl
@[simp] theorem exec_iabs32 (f) (s : State) : exec (.iabs32 f) s = execIabs32 f s := rfl
@[simp] theorem exec_iabs64 (f) (s : State) : exec (.iabs64 f) s = execIabs64 f s := rfl
@[simp] theorem exec_imin32 (f) (s : State) : exec (.imin32 f) s = execImin32 f s := rfl
@[simp] theorem exec_imin64 (f) (s : State) : exec (.imin64 f) s = execImin64 f s := rfl
@[simp] theorem exec_imax32 (f) (s : State) : exec (.imax32 f) s = execImax32 f s := rfl
@[simp] theorem exec_imax64 (f) (s : State) : exec (.imax64 f) s = execImax64 f s := rfl
@[simp] theorem exec_shl32 (f) (s : State) : exec (.shl32 f) s = execShl32 f s := rfl
@[simp] theorem exec_shl32i (f) (s : State) : exec (.shl32i f) s = execShl32i f s := rfl
@[simp] theorem exec_shl64 (f) (s : State) : exec (.shl64 f) s = execShl64 f s := rfl
@[simp] theorem exec_shr32 (f) (s : State) : exec (.shr32 f) s = execShr32 f s := rfl
@[simp] theorem exec_shr32i (f) (s : State) : exec (.shr32i f) s = execShr32i f s := rfl
@[simp] theorem exec_shr64 (f) (s : State) : exec (.shr64 f) s = execShr64 f s := rfl
@[simp] theorem exec_sar32 (f) (s : State) : exec (.sar32 f) s = execSar32 f s := rfl
@[simp] theorem exec_sar32i (f) (s : State) : exec (.sar32i f) s = execSar32i f s := rfl
@[simp] theorem exec_sar64 (f) (s : State) : exec (.sar64 f) s = execSar64 f s := rfl
@[simp] theorem exec_rot32 (f) (s : State) : exec (.rot32 f) s = execRot32 f s := rfl
@[simp] theorem exec_rot32i (f) (s : State) : exec (.rot32i f) s = execRot32i f s := rfl
@[simp] theorem exec_rot64 (f) (s : State) : exec (.rot64 f) s = execRot64 f s := rfl
@[simp] theorem exec_popc32 (f) (s : State) : exec (.popc32 f) s = execPopc32 f s := rfl
@[simp] theorem exec_popc64 (f) (s : State) : exec (.popc64 f) s = execPopc64 f s := rfl
@[simp] theorem exec_clz32 (f) (s : State) : exec (.clz32 f) s = execClz32 f s := rfl
@[simp] theorem exec_clz64 (f) (s : State) : exec (.clz64 f) s = execClz64 f s := rfl
@[simp] theorem exec_and32 (f) (s : State) : exec (.and32 f) s = execAnd32 f s := rfl
@[simp] theorem exec_and32i (f) (s : State) : exec (.and32i f) s = execAnd32i f s := rfl
@[simp] theorem exec_and64 (f) (s : State) : exec (.and64 f) s = execAnd64 f s := rfl
@[simp] theorem exec_and96 (f) (s : State) : exec (.and96 f) s = execAnd96 f s := rfl
@[simp] theorem exec_or32 (f) (s : State) : exec (.or32 f) s = execOr32 f s := rfl
@[simp] theorem exec_or32i (f) (s : State) : exec (.or32i f) s = execOr32i f s := rfl
@[simp] theorem exec_or64 (f) (s : State) : exec (.or64 f) s = execOr64 f s := rfl
@[simp] theorem exec_or96 (f) (s : State) : exec (.or96 f) s = execOr96 f s := rfl
@[simp] theorem exec_xor32 (f) (s : State) : exec (.xor32 f) s = execXor32 f s := rfl
@[simp] theorem exec_xor32i (f) (s : State) : exec (.xor32i f) s = execXor32i f s := rfl
@[simp] theorem exec_xor64 (f) (s : State) : exec (.xor64 f) s = execXor64 f s := rfl
@[simp] theorem exec_xor96 (f) (s : State) : exec (.xor96 f) s = execXor96 f s := rfl
@[simp] theorem exec_not32 (f) (s : State) : exec (.not32 f) s = execNot32 f s := rfl
@[simp] theorem exec_not64 (f) (s : State) : exec (.not64 f) s = execNot64 f s := rfl
@[simp] theorem exec_brev32 (f) (s : State) : exec (.brev32 f) s = execBrev32 f s := rfl
@[simp] theorem exec_brev64 (f) (s : State) : exec (.brev64 f) s = execBrev64 f s := rfl
@[simp] theorem exec_fadd32 (f) (s : State) : exec (.fadd32 f) s = execFadd32 f s := rfl
@[simp] theorem exec_fadd64 (f) (s : State) : exec (.fadd64 f) s = execFadd64 f s := rfl
@[simp] theorem exec_fadd96 (f) (s : State) : exec (.fadd96 f) s = execFadd96 f s := rfl
@[simp] theorem exec_fmul32 (f) (s : State) : exec (.fmul32 f) s = execFmul32 f s := rfl
@[simp] theorem exec_fmul64 (f) (s : State) : exec (.fmul64 f) s = execFmul64 f s := rfl
@[simp] theorem exec_fmul96 (f) (s : State) : exec (.fmul96 f) s = execFmul96 f s := rfl
@[simp] theorem exec_ffma64 (f) (s : State) : exec (.ffma64 f) s = execFfma64 f s := rfl
@[simp] theorem exec_ffma96 (f) (s : State) : exec (.ffma96 f) s = execFfma96 f s := rfl
@[simp] theorem exec_fmin32 (f) (s : State) : exec (.fmin32 f) s = execFmin32 f s := rfl
@[simp] theorem exec_fmin64 (f) (s : State) : exec (.fmin64 f) s = execFmin64 f s := rfl
@[simp] theorem exec_fmin96 (f) (s : State) : exec (.fmin96 f) s = execFmin96 f s := rfl
@[simp] theorem exec_fmax32 (f) (s : State) : exec (.fmax32 f) s = execFmax32 f s := rfl
@[simp] theorem exec_fmax64 (f) (s : State) : exec (.fmax64 f) s = execFmax64 f s := rfl
@[simp] theorem exec_fmax96 (f) (s : State) : exec (.fmax96 f) s = execFmax96 f s := rfl
@[simp] theorem exec_frnd64 (f) (s : State) : exec (.frnd64 f) s = execFrnd64 f s := rfl
@[simp] theorem exec_hfma264 (f) (s : State) : exec (.hfma264 f) s = execHfma264 f s := rfl
@[simp] theorem exec_hfma296 (f) (s : State) : exec (.hfma296 f) s = execHfma296 f s := rfl
@[simp] theorem exec_cvt64 (f) (s : State) : exec (.cvt64 f) s = execCvt64 f s := rfl
@[simp] theorem exec_frcp64 (f) (s : State) : exec (.frcp64 f) s = execFrcp64 f s := rfl
@[simp] theorem exec_fsqrt64 (f) (s : State) : exec (.fsqrt64 f) s = execFsqrt64 f s := rfl
@[simp] theorem exec_frsq64 (f) (s : State) : exec (.frsq64 f) s = execFrsq64 f s := rfl
@[simp] theorem exec_fexp264 (f) (s : State) : exec (.fexp264 f) s = execFexp264 f s := rfl
@[simp] theorem exec_flog264 (f) (s : State) : exec (.flog264 f) s = execFlog264 f s := rfl
@[simp] theorem exec_fsinpi64 (f) (s : State) : exec (.fsinpi64 f) s = execFsinpi64 f s := rfl
@[simp] theorem exec_fcospi64 (f) (s : State) : exec (.fcospi64 f) s = execFcospi64 f s := rfl
@[simp] theorem exec_ftanh64 (f) (s : State) : exec (.ftanh64 f) s = execFtanh64 f s := rfl
@[simp] theorem exec_quant64 (f) (s : State) : exec (.quant64 f) s = execQuant64 f s := rfl
@[simp] theorem exec_deq64 (f) (s : State) : exec (.deq64 f) s = execDeq64 f s := rfl
@[simp] theorem exec_requant64 (f) (s : State) : exec (.requant64 f) s = execRequant64 f s := rfl
@[simp] theorem exec_cvt864 (f) (s : State) : exec (.cvt864 f) s = execCvt864 f s := rfl
@[simp] theorem exec_scale64 (f) (s : State) : exec (.scale64 f) s = execScale64 f s := rfl
@[simp] theorem exec_grow32 (f) (s : State) : exec (.grow32 f) s = execGrow32 f s := rfl
@[simp] theorem exec_grow64 (f) (s : State) : exec (.grow64 f) s = execGrow64 f s := rfl
@[simp] theorem exec_shrink32 (f) (s : State) : exec (.shrink32 f) s = execShrink32 f s := rfl
@[simp] theorem exec_shrink64 (f) (s : State) : exec (.shrink64 f) s = execShrink64 f s := rfl
@[simp] theorem exec_laneid32 (f) (s : State) : exec (.laneid32 f) s = execLaneid32 f s := rfl
@[simp] theorem exec_part32 (f) (s : State) : exec (.part32 f) s = execPart32 f s := rfl
@[simp] theorem exec_part64 (f) (s : State) : exec (.part64 f) s = execPart64 f s := rfl
@[simp] theorem exec_pand32 (f) (s : State) : exec (.pand32 f) s = execPand32 f s := rfl
@[simp] theorem exec_pand64 (f) (s : State) : exec (.pand64 f) s = execPand64 f s := rfl
@[simp] theorem exec_por32 (f) (s : State) : exec (.por32 f) s = execPor32 f s := rfl
@[simp] theorem exec_por64 (f) (s : State) : exec (.por64 f) s = execPor64 f s := rfl
@[simp] theorem exec_pxor32 (f) (s : State) : exec (.pxor32 f) s = execPxor32 f s := rfl
@[simp] theorem exec_pxor64 (f) (s : State) : exec (.pxor64 f) s = execPxor64 f s := rfl
@[simp] theorem exec_pnot32 (f) (s : State) : exec (.pnot32 f) s = execPnot32 f s := rfl
@[simp] theorem exec_pnot64 (f) (s : State) : exec (.pnot64 f) s = execPnot64 f s := rfl
@[simp] theorem exec_join32 (f) (s : State) : exec (.join32 f) s = execJoin32 f s := rfl
@[simp] theorem exec_join64 (f) (s : State) : exec (.join64 f) s = execJoin64 f s := rfl
@[simp] theorem exec_leave32 (f) (s : State) : exec (.leave32 f) s = execLeave32 f s := rfl
@[simp] theorem exec_leave64 (f) (s : State) : exec (.leave64 f) s = execLeave64 f s := rfl
@[simp] theorem exec_waitm32 (f) (s : State) : exec (.waitm32 f) s = execWaitm32 f s := rfl
@[simp] theorem exec_waitm64 (f) (s : State) : exec (.waitm64 f) s = execWaitm64 f s := rfl
@[simp] theorem exec_bra32 (f) (s : State) : exec (.bra32 f) s = execBra32 f s := rfl
@[simp] theorem exec_bra96 (f) (s : State) : exec (.bra96 f) s = execBra96 f s := rfl
@[simp] theorem exec_call32 (f) (s : State) : exec (.call32 f) s = execCall32 f s := rfl
@[simp] theorem exec_call96 (f) (s : State) : exec (.call96 f) s = execCall96 f s := rfl
@[simp] theorem exec_shfl64 (f) (s : State) : exec (.shfl64 f) s = execShfl64 f s := rfl
@[simp] theorem exec_push64 (f) (s : State) : exec (.push64 f) s = execPush64 f s := rfl
@[simp] theorem exec_vote64 (f) (s : State) : exec (.vote64 f) s = execVote64 f s := rfl
@[simp] theorem exec_reduce64 (f) (s : State) : exec (.reduce64 f) s = execReduce64 f s := rfl
@[simp] theorem exec_scan64 (f) (s : State) : exec (.scan64 f) s = execScan64 f s := rfl
@[simp] theorem exec_brx64 (f) (s : State) : exec (.brx64 f) s = execBrx64 f s := rfl
@[simp] theorem exec_nop32 (f) (s : State) : exec (.nop32 f) s = execNop32 f s := rfl
@[simp] theorem exec_ret32 (f) (s : State) : exec (.ret32 f) s = execRet32 f s := rfl
@[simp] theorem exec_tret32 (f) (s : State) : exec (.tret32 f) s = execTret32 f s := rfl
@[simp] theorem exec_bkpt32 (f) (s : State) : exec (.bkpt32 f) s = execBkpt32 f s := rfl
@[simp] theorem exec_trap32 (f) (s : State) : exec (.trap32 f) s = execTrap32 f s := rfl
@[simp] theorem exec_exit32 (f) (s : State) : exec (.exit32 f) s = execExit32 f s := rfl
@[simp] theorem exec_ld64 (f) (s : State) : exec (.ld64 f) s = execLd64 f s := rfl
@[simp] theorem exec_ld96 (f) (s : State) : exec (.ld96 f) s = execLd96 f s := rfl
@[simp] theorem exec_st64 (f) (s : State) : exec (.st64 f) s = execSt64 f s := rfl
@[simp] theorem exec_st96 (f) (s : State) : exec (.st96 f) s = execSt96 f s := rfl
@[simp] theorem exec_atom64 (f) (s : State) : exec (.atom64 f) s = execAtom64 f s := rfl
@[simp] theorem exec_atom96 (f) (s : State) : exec (.atom96 f) s = execAtom96 f s := rfl
@[simp] theorem exec_red64 (f) (s : State) : exec (.red64 f) s = execRed64 f s := rfl
@[simp] theorem exec_red96 (f) (s : State) : exec (.red96 f) s = execRed96 f s := rfl
@[simp] theorem exec_waita64 (f) (s : State) : exec (.waita64 f) s = execWaita64 f s := rfl
@[simp] theorem exec_poll64 (f) (s : State) : exec (.poll64 f) s = execPoll64 f s := rfl
@[simp] theorem exec_pref64 (f) (s : State) : exec (.pref64 f) s = execPref64 f s := rfl
@[simp] theorem exec_pref96 (f) (s : State) : exec (.pref96 f) s = execPref96 f s := rfl
@[simp] theorem exec_cwb64 (f) (s : State) : exec (.cwb64 f) s = execCwb64 f s := rfl
@[simp] theorem exec_cinv64 (f) (s : State) : exec (.cinv64 f) s = execCinv64 f s := rfl
@[simp] theorem exec_devl64 (f) (s : State) : exec (.devl64 f) s = execDevl64 f s := rfl
@[simp] theorem exec_rput64 (f) (s : State) : exec (.rput64 f) s = execRput64 f s := rfl
@[simp] theorem exec_rput96 (f) (s : State) : exec (.rput96 f) s = execRput96 f s := rfl
@[simp] theorem exec_rget64 (f) (s : State) : exec (.rget64 f) s = execRget64 f s := rfl
@[simp] theorem exec_rget96 (f) (s : State) : exec (.rget96 f) s = execRget96 f s := rfl
@[simp] theorem exec_ratom64 (f) (s : State) : exec (.ratom64 f) s = execRatom64 f s := rfl
@[simp] theorem exec_ratom96 (f) (s : State) : exec (.ratom96 f) s = execRatom96 f s := rfl
@[simp] theorem exec_ord64 (f) (s : State) : exec (.ord64 f) s = execOrd64 f s := rfl
@[simp] theorem exec_rel64 (f) (s : State) : exec (.rel64 f) s = execRel64 f s := rfl
@[simp] theorem exec_acq64 (f) (s : State) : exec (.acq64 f) s = execAcq64 f s := rfl
@[simp] theorem exec_fence32 (f) (s : State) : exec (.fence32 f) s = execFence32 f s := rfl
@[simp] theorem exec_fence64 (f) (s : State) : exec (.fence64 f) s = execFence64 f s := rfl
@[simp] theorem exec_wait64 (f) (s : State) : exec (.wait64 f) s = execWait64 f s := rfl
@[simp] theorem exec_bari64 (f) (s : State) : exec (.bari64 f) s = execBari64 f s := rfl
@[simp] theorem exec_waitb64 (f) (s : State) : exec (.waitb64 f) s = execWaitb64 f s := rfl
@[simp] theorem exec_waitbTag64 (f) (s : State) : exec (.waitbTag64 f) s = execWaitbTag64 f s := rfl
@[simp] theorem exec_bart64 (f) (s : State) : exec (.bart64 f) s = execBart64 f s := rfl
@[simp] theorem exec_badd64 (f) (s : State) : exec (.badd64 f) s = execBadd64 f s := rfl
@[simp] theorem exec_csrr32 (f) (s : State) : exec (.csrr32 f) s = execCsrr32 f s := rfl
@[simp] theorem exec_csrr64 (f) (s : State) : exec (.csrr64 f) s = execCsrr64 f s := rfl
@[simp] theorem exec_csrw32 (f) (s : State) : exec (.csrw32 f) s = execCsrw32 f s := rfl
@[simp] theorem exec_csrw64 (f) (s : State) : exec (.csrw64 f) s = execCsrw64 f s := rfl
@[simp] theorem exec_vacate64 (f) (s : State) : exec (.vacate64 f) s = execVacate64 f s := rfl
@[simp] theorem exec_freeze64 (f) (s : State) : exec (.freeze64 f) s = execFreeze64 f s := rfl
@[simp] theorem exec_thaw64 (f) (s : State) : exec (.thaw64 f) s = execThaw64 f s := rfl
@[simp] theorem exec_rsv64 (f) (s : State) : exec (.rsv64 f) s = execRsv64 f s := rfl
@[simp] theorem exec_rls64 (f) (s : State) : exec (.rls64 f) s = execRls64 f s := rfl
@[simp] theorem exec_cvdecl64 (f) (s : State) : exec (.cvdecl64 f) s = execCvdecl64 f s := rfl
@[simp] theorem exec_sign32 (f) (s : State) : exec (.sign32 f) s = execSign32 f s := rfl
@[simp] theorem exec_sign64 (f) (s : State) : exec (.sign64 f) s = execSign64 f s := rfl
@[simp] theorem exec_mma64 (f) (s : State) : exec (.mma64 f) s = execMma64 f s := rfl
@[simp] theorem exec_mdrain64 (f) (s : State) : exec (.mdrain64 f) s = execMdrain64 f s := rfl
@[simp] theorem exec_mbyp64 (f) (s : State) : exec (.mbyp64 f) s = execMbyp64 f s := rfl
@[simp] theorem exec_rstat64 (f) (s : State) : exec (.rstat64 f) s = execRstat64 f s := rfl
@[simp] theorem exec_lstream64 (f) (s : State) : exec (.lstream64 f) s = execLstream64 f s := rfl
@[simp] theorem exec_lsmerge64 (f) (s : State) : exec (.lsmerge64 f) s = execLsmerge64 f s := rfl
@[simp] theorem exec_lsgrad64 (f) (s : State) : exec (.lsgrad64 f) s = execLsgrad64 f s := rfl
@[simp] theorem exec_cpy64 (f) (s : State) : exec (.cpy64 f) s = execCpy64 f s := rfl
@[simp] theorem exec_plane64 (f) (s : State) : exec (.plane64 f) s = execPlane64 f s := rfl
@[simp] theorem exec_gather64 (f) (s : State) : exec (.gather64 f) s = execGather64 f s := rfl
@[simp] theorem exec_pool64 (f) (s : State) : exec (.pool64 f) s = execPool64 f s := rfl
@[simp] theorem exec_collStart64 (f) (s : State) : exec (.collStart64 f) s = execCollStart64 f s := rfl
@[simp] theorem exec_collStop64 (f) (s : State) : exec (.collStop64 f) s = execCollStop64 f s := rfl
@[simp] theorem exec_collStatus64 (f) (s : State) : exec (.collStatus64 f) s = execCollStatus64 f s := rfl
@[simp] theorem exec_spawn64 (f) (s : State) : exec (.spawn64 f) s = execSpawn64 f s := rfl
@[simp] theorem exec_tdone64 (f) (s : State) : exec (.tdone64 f) s = execTdone64 f s := rfl
@[simp] theorem exec_phase32 (f) (s : State) : exec (.phase32 f) s = execPhase32 f s := rfl
@[simp] theorem exec_phase64 (f) (s : State) : exec (.phase64 f) s = execPhase64 f s := rfl
@[simp] theorem exec_issueArbitration (core) (s : State) : exec (.issueArbitration core) s = execIssueArbitration core s := rfl
@[simp] theorem exec_progressOverride (core) (s : State) : exec (.progressOverride core) s = execProgressOverride core s := rfl
@[simp] theorem exec_continuationReady (w) (i) (s : State) : exec (.continuationReady w i) s = execContinuationReady w i s := rfl
@[simp] theorem exec_deferredFaultFound (op) (s : State) : exec (.deferredFaultFound op) s = execDeferredFaultFound op s := rfl
@[simp] theorem exec_trapDelivery (w) (s : State) : exec (.trapDelivery w) s = execTrapDelivery w s := rfl
@[simp] theorem exec_loadDataReturn (op) (s : State) : exec (.loadDataReturn op) s = execLoadDataReturn op s := rfl
@[simp] theorem exec_storePerformed (op) (s : State) : exec (.storePerformed op) s = execStorePerformed op s := rfl
@[simp] theorem exec_atomResultReturn (op) (s : State) : exec (.atomResultReturn op) s = execAtomResultReturn op s := rfl
@[simp] theorem exec_pageWalkComplete (walk) (s : State) : exec (.pageWalkComplete walk) s = execPageWalkComplete walk s := rfl
@[simp] theorem exec_activeMessage (op) (s : State) : exec (.activeMessage op) s = execActiveMessage op s := rfl
@[simp] theorem exec_otherDieRead (die) (line) (s : State) : exec (.otherDieRead die line) s = execOtherDieRead die line s := rfl
@[simp] theorem exec_otherDieWrite (die) (line) (s : State) : exec (.otherDieWrite die line) s = execOtherDieWrite die line s := rfl
@[simp] theorem exec_l2Eviction (level) (unit) (line) (s : State) : exec (.l2Eviction level unit line) s = execL2Eviction level unit line s := rfl
@[simp] theorem exec_backInvalidation (line) (holder) (s : State) : exec (.backInvalidation line holder) s = execBackInvalidation line holder s := rfl
@[simp] theorem exec_backInvalidationAnswer (line) (holder) (s : State) : exec (.backInvalidationAnswer line holder) s = execBackInvalidationAnswer line holder s := rfl
@[simp] theorem exec_bisnp (pkg) (line) (s : State) : exec (.bisnp pkg line) s = execBisnp pkg line s := rfl
@[simp] theorem exec_regionModeSwitch (c) (base) (len) (s : State) : exec (.regionModeSwitch c base len) s = execRegionModeSwitch c base len s := rfl
@[simp] theorem exec_fenceComplete (op) (s : State) : exec (.fenceComplete op) s = execFenceComplete op s := rfl
@[simp] theorem exec_devlPerformed (op) (s : State) : exec (.devlPerformed op) s = execDevlPerformed op s := rfl
@[simp] theorem exec_waitaWake (w) (i) (s : State) : exec (.waitaWake w i) s = execWaitaWake w i s := rfl
@[simp] theorem exec_waitaTimeout (w) (i) (s : State) : exec (.waitaTimeout w i) s = execWaitaTimeout w i s := rfl
@[simp] theorem exec_waitaReread (w) (i) (s : State) : exec (.waitaReread w i) s = execWaitaReread w i s := rfl
@[simp] theorem exec_uncorrectableError (space) (addr) (s : State) : exec (.uncorrectableError space addr) s = execUncorrectableError space addr s := rfl
@[simp] theorem exec_correctedError (die) (unit) (addr) (s : State) : exec (.correctedError die unit addr) s = execCorrectedError die unit addr s := rfl
@[simp] theorem exec_allocatorPass (core) (s : State) : exec (.allocatorPass core) s = execAllocatorPass core s := rfl
@[simp] theorem exec_growSpill (core) (s : State) : exec (.growSpill core) s = execGrowSpill core s := rfl
@[simp] theorem exec_spillRestore (core) (crew) (s : State) : exec (.spillRestore core crew) s = execSpillRestore core crew s := rfl
@[simp] theorem exec_waveSlotRelease (w) (s : State) : exec (.waveSlotRelease w) s = execWaveSlotRelease w s := rfl
@[simp] theorem exec_engineEntryPush (e) (s : State) : exec (.engineEntryPush e) s = execEngineEntryPush e s := rfl
@[simp] theorem exec_copyCommandStart (core) (ch) (s : State) : exec (.copyCommandStart core ch) s = execCopyCommandStart core ch s := rfl
@[simp] theorem exec_copyFlitDelivery (core) (ch) (s : State) : exec (.copyFlitDelivery core ch) s = execCopyFlitDelivery core ch s := rfl
@[simp] theorem exec_copyBlockVerified (core) (ch) (s : State) : exec (.copyBlockVerified core ch) s = execCopyBlockVerified core ch s := rfl
@[simp] theorem exec_chanTagFail (core) (ch) (s : State) : exec (.chanTagFail core ch) s = execChanTagFail core ch s := rfl
@[simp] theorem exec_copyBlockRefetch (core) (ch) (s : State) : exec (.copyBlockRefetch core ch) s = execCopyBlockRefetch core ch s := rfl
@[simp] theorem exec_copyComplete (core) (ch) (s : State) : exec (.copyComplete core ch) s = execCopyComplete core ch s := rfl
@[simp] theorem exec_gatherPoolComplete (cluster) (i) (s : State) : exec (.gatherPoolComplete cluster i) s = execGatherPoolComplete cluster i s := rfl
@[simp] theorem exec_matrixOpComplete (core) (s : State) : exec (.matrixOpComplete core) s = execMatrixOpComplete core s := rfl
@[simp] theorem exec_launch (ring) (s : State) : exec (.launch ring) s = execLaunch ring s := rfl
@[simp] theorem exec_tasks (ring) (s : State) : exec (.tasks ring) s = execTasks ring s := rfl
@[simp] theorem exec_nodes (ring) (s : State) : exec (.nodes ring) s = execNodes ring s := rfl
@[simp] theorem exec_event (ring) (s : State) : exec (.event ring) s = execEvent ring s := rfl
@[simp] theorem exec_waitv (ring) (s : State) : exec (.waitv ring) s = execWaitv ring s := rfl
@[simp] theorem exec_eventWrite (ring) (s : State) : exec (.eventWrite ring) s = execEventWrite ring s := rfl
@[simp] theorem exec_waitvSatisfied (ring) (s : State) : exec (.waitvSatisfied ring) s = execWaitvSatisfied ring s := rfl
@[simp] theorem exec_ringRestart (ring) (tail) (s : State) : exec (.ringRestart ring tail) s = execRingRestart ring tail s := rfl
@[simp] theorem exec_crewPlacement (die) (s : State) : exec (.crewPlacement die) s = execCrewPlacement die s := rfl
@[simp] theorem exec_taskCompletionApply (die) (s : State) : exec (.taskCompletionApply die) s = execTaskCompletionApply die s := rfl
@[simp] theorem exec_taskLaunchFetch (pkg) (s : State) : exec (.taskLaunchFetch pkg) s = execTaskLaunchFetch pkg s := rfl
@[simp] theorem exec_batchTimerExpiry (die) (bin) (s : State) : exec (.batchTimerExpiry die bin) s = execBatchTimerExpiry die bin s := rfl
@[simp] theorem exec_batchLaunch (die) (s : State) : exec (.batchLaunch die) s = execBatchLaunch die s := rfl
@[simp] theorem exec_send (ctx) (s : State) : exec (.send ctx) s = execSend ctx s := rfl
@[simp] theorem exec_recv (ctx) (s : State) : exec (.recv ctx) s = execRecv ctx s := rfl
@[simp] theorem exec_rscat (ctx) (s : State) : exec (.rscat ctx) s = execRscat ctx s := rfl
@[simp] theorem exec_agath (ctx) (s : State) : exec (.agath ctx) s = execAgath ctx s := rfl
@[simp] theorem exec_mcast (ctx) (s : State) : exec (.mcast ctx) s = execMcast ctx s := rfl
@[simp] theorem exec_signal (ctx) (s : State) : exec (.signal ctx) s = execSignal ctx s := rfl
@[simp] theorem exec_loop (ctx) (s : State) : exec (.loop ctx) s = execLoop ctx s := rfl
@[simp] theorem exec_halt (ctx) (s : State) : exec (.halt ctx) s = execHalt ctx s := rfl
@[simp] theorem exec_collBadCommand (ctx) (s : State) : exec (.collBadCommand ctx) s = execCollBadCommand ctx s := rfl
@[simp] theorem exec_collReservedCommand (ctx) (s : State) : exec (.collReservedCommand ctx) s = execCollReservedCommand ctx s := rfl
@[simp] theorem exec_wordComplete (ctx) (s : State) : exec (.wordComplete ctx) s = execWordComplete ctx s := rfl
@[simp] theorem exec_collTimeout (ctx) (s : State) : exec (.collTimeout ctx) s = execCollTimeout ctx s := rfl
@[simp] theorem exec_abortPacket (ctx) (s : State) : exec (.abortPacket ctx) s = execAbortPacket ctx s := rfl
@[simp] theorem exec_freezeNotice (ctx) (s : State) : exec (.freezeNotice ctx) s = execFreezeNotice ctx s := rfl
@[simp] theorem exec_thawNotice (ctx) (s : State) : exec (.thawNotice ctx) s = execThawNotice ctx s := rfl
@[simp] theorem exec_fwd (pkt) (s : State) : exec (.fwd pkt) s = execFwd pkt s := rfl
@[simp] theorem exec_addF32 (pkt) (s : State) : exec (.addF32 pkt) s = execAddF32 pkt s := rfl
@[simp] theorem exec_addBf16 (pkt) (s : State) : exec (.addBf16 pkt) s = execAddBf16 pkt s := rfl
@[simp] theorem exec_routeMcast (pkt) (s : State) : exec (.routeMcast pkt) s = execRouteMcast pkt s := rfl
@[simp] theorem exec_deliver (pkt) (s : State) : exec (.deliver pkt) s = execDeliver pkt s := rfl
@[simp] theorem exec_routeSignal (pkt) (s : State) : exec (.routeSignal pkt) s = execRouteSignal pkt s := rfl
@[simp] theorem exec_routeErrorNotice (pkt) (s : State) : exec (.routeErrorNotice pkt) s = execRouteErrorNotice pkt s := rfl
@[simp] theorem exec_resendRequest (pkt) (s : State) : exec (.resendRequest pkt) s = execResendRequest pkt s := rfl
@[simp] theorem exec_flitReceive (port) (crcGood) (s : State) : exec (.flitReceive port crcGood) s = execFlitReceive port crcGood s := rfl
@[simp] theorem exec_ack (port) (s : State) : exec (.ack port) s = execAck port s := rfl
@[simp] theorem exec_nak (port) (s : State) : exec (.nak port) s = execNak port s := rfl
@[simp] theorem exec_ackTimer (port) (s : State) : exec (.ackTimer port) s = execAckTimer port s := rfl
@[simp] theorem exec_nakRepeatTimer (port) (s : State) : exec (.nakRepeatTimer port) s = execNakRepeatTimer port s := rfl
@[simp] theorem exec_replayTimer (port) (s : State) : exec (.replayTimer port) s = execReplayTimer port s := rfl
@[simp] theorem exec_portDown (port) (s : State) : exec (.portDown port) s = execPortDown port s := rfl
@[simp] theorem exec_dropNotice (pkt) (s : State) : exec (.dropNotice pkt) s = execDropNotice pkt s := rfl
@[simp] theorem exec_dropGatherTimer (i) (s : State) : exec (.dropGatherTimer i) s = execDropGatherTimer i s := rfl
@[simp] theorem exec_reservationRequest (i) (slot) (s : State) : exec (.reservationRequest i slot) s = execReservationRequest i slot s := rfl
@[simp] theorem exec_reservationGrant (i) (s : State) : exec (.reservationGrant i) s = execReservationGrant i s := rfl
@[simp] theorem exec_reservedWindowStart (i) (s : State) : exec (.reservedWindowStart i) s = execReservedWindowStart i s := rfl
@[simp] theorem exec_remoteAccessRequest (op) (s : State) : exec (.remoteAccessRequest op) s = execRemoteAccessRequest op s := rfl
@[simp] theorem exec_remoteAccessResponse (op) (s : State) : exec (.remoteAccessResponse op) s = execRemoteAccessResponse op s := rfl
@[simp] theorem exec_netRequest (req) (s : State) : exec (.netRequest req) s = execNetRequest req s := rfl
@[simp] theorem exec_netResponse (req) (rttNs) (s : State) : exec (.netResponse req rttNs) s = execNetResponse req rttNs s := rfl
@[simp] theorem exec_staleNotice (req) (s : State) : exec (.staleNotice req) s = execStaleNotice req s := rfl
@[simp] theorem exec_netRetryTimer (req) (s : State) : exec (.netRetryTimer req) s = execNetRetryTimer req s := rfl
@[simp] theorem exec_busyResendTimer (req) (s : State) : exec (.busyResendTimer req) s = execBusyResendTimer req s := rfl
@[simp] theorem exec_responseAck (req) (s : State) : exec (.responseAck req) s = execResponseAck req s := rfl
@[simp] theorem exec_atomicCacheExpiry (die) (i) (s : State) : exec (.atomicCacheExpiry die i) s = execAtomicCacheExpiry die i s := rfl
@[simp] theorem exec_regionContextFill (die) (region) (s : State) : exec (.regionContextFill die region) s = execRegionContextFill die region s := rfl
@[simp] theorem exec_dcdExtentAdded (pkg) (port) (base) (len) (s : State) : exec (.dcdExtentAdded pkg port base len) s = execDcdExtentAdded pkg port base len s := rfl
@[simp] theorem exec_cxlResponseTimeout (op) (s : State) : exec (.cxlResponseTimeout op) s = execCxlResponseTimeout op s := rfl
@[simp] theorem exec_barrierCountingCycle (obj) (s : State) : exec (.barrierCountingCycle obj) s = execBarrierCountingCycle obj s := rfl
@[simp] theorem exec_barrierAutoRecomplete (obj) (s : State) : exec (.barrierAutoRecomplete obj) s = execBarrierAutoRecomplete obj s := rfl
@[simp] theorem exec_routeTagRelease (die) (tag) (s : State) : exec (.routeTagRelease die tag) s = execRouteTagRelease die tag s := rfl
@[simp] theorem exec_drainEngineTimeout (vif) (s : State) : exec (.drainEngineTimeout vif) s = execDrainEngineTimeout vif s := rfl
@[simp] theorem exec_systemOpComplete (vif) (s : State) : exec (.systemOpComplete vif) s = execSystemOpComplete vif s := rfl
@[simp] theorem exec_invalidate (c) (base) (len) (s : State) : exec (.invalidate c base len) s = execInvalidate c base len s := rfl
@[simp] theorem exec_bmread (c) (first) (n) (s : State) : exec (.bmread c first n) s = execBmread c first n s := rfl
@[simp] theorem exec_esload (c) (die) (image) (s : State) : exec (.esload c die image) s = execEsload c die image s := rfl
@[simp] theorem exec_phaseset (c) (die) (value) (s : State) : exec (.phaseset c die value) s = execPhaseset c die value s := rfl
@[simp] theorem exec_ringcfg (c) (ring) (base) (size) (ctl) (s : State) : exec (.ringcfg c ring base size ctl) s = execRingcfg c ring base size ctl s := rfl
@[simp] theorem exec_rdesc (c) (r) (s : State) : exec (.rdesc c r) s = execRdesc c r s := rfl
@[simp] theorem exec_bufmap (c) (i) (entry) (s : State) : exec (.bufmap c i entry) s = execBufmap c i entry s := rfl
@[simp] theorem exec_wavectlResume (c) (lcore) (slot) (s : State) : exec (.wavectlResume c lcore slot) s = execWavectlResume c lcore slot s := rfl
@[simp] theorem exec_wavectlEnd (c) (lcore) (slot) (s : State) : exec (.wavectlEnd c lcore slot) s = execWavectlEnd c lcore slot s := rfl
@[simp] theorem exec_wavectlFrame (c) (lcore) (slot) (s : State) : exec (.wavectlFrame c lcore slot) s = execWavectlFrame c lcore slot s := rfl
@[simp] theorem exec_sysopVacate (c) (base) (cores) (s : State) : exec (.sysopVacate c base cores) s = execSysopVacate c base cores s := rfl
@[simp] theorem exec_sysopFreeze (c) (base) (size) (s : State) : exec (.sysopFreeze c base size) s = execSysopFreeze c base size s := rfl
@[simp] theorem exec_sysopThaw (c) (base) (s : State) : exec (.sysopThaw c base) s = execSysopThaw c base s := rfl
@[simp] theorem exec_ctrread (c) (counter) (unit) (clear) (s : State) : exec (.ctrread c counter unit clear) s = execCtrread c counter unit clear s := rfl
@[simp] theorem exec_partset (c) (vi) (entry) (s : State) : exec (.partset c vi entry) s = execPartset c vi entry s := rfl
@[simp] theorem exec_lctset (c) (vi) (i) (entry) (s : State) : exec (.lctset c vi i entry) s = execLctset c vi i entry s := rfl
@[simp] theorem exec_linkctlRetrain (c) (port) (s : State) : exec (.linkctlRetrain c port) s = execLinkctlRetrain c port s := rfl
@[simp] theorem exec_linkctlDisable (c) (port) (s : State) : exec (.linkctlDisable c port) s = execLinkctlDisable c port s := rfl
@[simp] theorem exec_linkTrainingComplete (port) (ok) (s : State) : exec (.linkTrainingComplete port ok) s = execLinkTrainingComplete port ok s := rfl
@[simp] theorem exec_powercap (c) (watts) (s : State) : exec (.powercap c watts) s = execPowercap c watts s := rfl
@[simp] theorem exec_featlock (c) (vi) (featen) (s : State) : exec (.featlock c vi featen) s = execFeatlock c vi featen s := rfl
@[simp] theorem exec_coldReset (pkg) (imageGood) (s : State) : exec (.coldReset pkg imageGood) s = execColdReset pkg imageGood s := rfl
@[simp] theorem exec_deviceReset (pkg) (imageGood) (s : State) : exec (.deviceReset pkg imageGood) s = execDeviceReset pkg imageGood s := rfl
@[simp] theorem exec_interfaceReset (vif) (s : State) : exec (.interfaceReset vif) s = execInterfaceReset vif s := rfl
@[simp] theorem exec_powerControlTick (pkg) (watts) (temp0) (temp1) (s : State) : exec (.powerControlTick pkg watts temp0 temp1) s = execPowerControlTick pkg watts temp0 temp1 s := rfl
@[simp] theorem exec_coreFailure (core) (s : State) : exec (.coreFailure core) s = execCoreFailure core s := rfl
@[simp] theorem exec_dcdExtentRelease (pkg) (port) (base) (len) (s : State) : exec (.dcdExtentRelease pkg port base len) s = execDcdExtentRelease pkg port base len s := rfl
@[simp] theorem exec_busyAnswer (req) (s : State) : exec (.busyAnswer req) s = execBusyAnswer req s := rfl
@[simp] theorem exec_unknownOpcode (ring) (s : State) : exec (.unknownOpcode ring) s = execUnknownOpcode ring s := rfl
@[simp] theorem exec_straddle (ring) (s : State) : exec (.straddle ring) s = execStraddle ring s := rfl

end Sys2Proof.Machine
end

