-- ==== Sys2Proof/Laws/Forms.lean ====
section
/-! SUPPORT. Each form's fields read back from the parcels that the encoder makes of them (R80 to R83). -/

namespace Sys2Proof

/-! ### Parts of words that are put together -/

section Parts
variable {m w : Nat} (x : BitVec m) (y : BitVec w) {lo n : Nat}

theorem part_low (h : lo + n ≤ w) : (x ++ y).extractLsb' lo n = y.extractLsb' lo n := by
  ext i hi; simp [BitVec.getLsbD_append, show lo + i < w by omega]
theorem part_high (h : w ≤ lo) : (x ++ y).extractLsb' lo n = x.extractLsb' (lo - w) n := by
  ext i hi; simp [BitVec.getLsbD_append, show ¬ lo + i < w by omega, show lo + i - w = lo - w + i by omega]
theorem part_all : x.extractLsb' 0 m = x := by ext i hi; simp
theorem bit_low (h : lo < w) : (x ++ y).getLsbD lo = y.getLsbD lo := by simp [BitVec.getLsbD_append, h]
theorem bit_high (h : w ≤ lo) : (x ++ y).getLsbD lo = x.getLsbD (lo - w) := by simp [BitVec.getLsbD_append, show ¬ lo < w by omega]
theorem bit_only (b : Bool) : (BitVec.ofBool b).getLsbD 0 = b := by simp
end Parts

/-! ### Parcel 0 -/

section Parcel0
variable (len : BitVec 2) (op : BitVec 7) (pb e : Bool) (g : BitVec 5) (d a : BitVec 8)

theorem encP0_len : fld (encP0 len op pb e g d a) 0 2 = len := by
  simp (disch := decide) only [fld, encP0, part_low, part_all]
theorem encP0_op : fld (encP0 len op pb e g d a) 2 7 = op := by
  simp (disch := decide) only [fld, encP0, part_low, part_high, Nat.reduceSub, part_all]
theorem encP0_pb : (encP0 len op pb e g d a).getLsbD 9 = pb := by
  simp (disch := decide) only [encP0, bit_low, bit_high, Nat.reduceSub, bit_only]
end Parcel0

theorem parseA_enc (len : BitVec 2) (op : BitVec 7) (f : F32A) : parseA (encP0 len op f.x f.e f.g f.d f.a) = f := by
  simp (disch := decide) only [parseA, fld, encP0, part_low, part_high, bit_low, bit_high, Nat.reduceSub, part_all, bit_only]

/-! ### The other forms of one parcel -/

section OneParcel
variable (op : BitVec 7) (e : Bool) (g : BitVec 5) (d : BitVec 8)

theorem parseI_enc (x : BitVec 9) : parseI (BitVec.ofBool e ++ g ++ d ++ x ++ op ++ (0 : BitVec 2)) = ⟨e, g, d, x⟩ := by
  simp (disch := decide) only [parseI, fld, part_low, part_high, bit_high, Nat.reduceSub, part_all, bit_only]
theorem encI_len (x : BitVec 9) : fld (BitVec.ofBool e ++ g ++ d ++ x ++ op ++ (0 : BitVec 2)) 0 2 = 0 := by
  simp (disch := decide) only [fld, part_low, part_all]
theorem encI_op (x : BitVec 9) : fld (BitVec.ofBool e ++ g ++ d ++ x ++ op ++ (0 : BitVec 2)) 2 7 = op := by
  simp (disch := decide) only [fld, part_low, part_high, Nat.reduceSub, part_all]

theorem parseJ_enc (x : BitVec 17) : parseJ (BitVec.ofBool e ++ g ++ x ++ op ++ (0 : BitVec 2)) = ⟨e, g, x⟩ := by
  simp (disch := decide) only [parseJ, fld, part_low, part_high, bit_high, Nat.reduceSub, part_all, bit_only]
theorem parseZ_enc (x : BitVec 17) : parseZ (BitVec.ofBool e ++ g ++ x ++ op ++ (0 : BitVec 2)) = ⟨e, g, x⟩ := by
  simp (disch := decide) only [parseZ, fld, part_low, part_high, bit_high, Nat.reduceSub, part_all, bit_only]
theorem encJ_len (x : BitVec 17) : fld (BitVec.ofBool e ++ g ++ x ++ op ++ (0 : BitVec 2)) 0 2 = 0 := by
  simp (disch := decide) only [fld, part_low, part_all]
theorem encJ_op (x : BitVec 17) : fld (BitVec.ofBool e ++ g ++ x ++ op ++ (0 : BitVec 2)) 2 7 = op := by
  simp (disch := decide) only [fld, part_low, part_high, Nat.reduceSub, part_all]
end OneParcel

/-! ### Forms of several parcels -/

theorem parseR_enc (len : BitVec 2) (op : BitVec 7) (pb : Bool) (f : F64R) :
    parseR (encP0 len op pb f.e f.g f.d f.a) (encR1 f) = f := by
  simp (disch := decide) only [parseR, fld, encP0, encR1, part_low, part_high, bit_high, Nat.reduceSub, part_all, bit_only]
theorem parseM_enc (len : BitVec 2) (op : BitVec 7) (pb : Bool) (f : F64M) :
    parseM (encP0 len op pb f.e f.g f.d f.a) (encM1 f) = f := by
  simp (disch := decide) only [parseM, fld, encP0, encM1, part_low, part_high, bit_high, Nat.reduceSub, part_all, bit_only]

end Sys2Proof
end

