-- ==== Sys2Proof/Laws/Sparse.lean ====
section
/-! SUPPORT. Laws of the sparse maps and of memory: read after write, and the canonical form. -/

namespace Sys2Proof.Machine

variable {α : Type} [DecidableEq α]

/-! ### Read after write -/

/-- A pair put before a list is what its key reads as there; another key reads as before it, or as unlisted. -/
theorem smGet_smCons (d : α) (k j : Nat) (v : α) (rest : SMap α) :
    smGet (smCons d k v rest) d j = if j = k then v else if k < j then smGet rest d j else d := by
  cases rest <;> grind [smCons, smGet, smAbove]

/-- Setting a key changes what that key reads as and nothing else, in any list. -/
theorem smGet_smSet (d : α) (k j : Nat) (v : α) : ∀ m : SMap α, smGet (smSet m d k v) d j = if j = k then v else smGet m d j
  | [] => by grind [smSet, smGet_smCons, smGet]
  | (_, _) :: rest => by grind [smSet, smGet_smCons, smGet, smGet_smSet d k j v rest]

theorem smGet_smSet_self (m : SMap α) (d : α) (k : Nat) (v : α) : smGet (smSet m d k v) d k = v :=
  (smGet_smSet d k k v m).trans (if_pos rfl)

theorem smGet_smSet_ne (m : SMap α) (d : α) {k j : Nat} (v : α) (h : j ≠ k) : smGet (smSet m d k v) d j = smGet m d j :=
  (smGet_smSet d k j v m).trans (if_neg h)

/-! ### The canonical form -/

/-- The canonical form, said of the pairs: every key lies above the bound, no value is the default, and keys rise. -/
theorem smWfFrom_iff (d : α) (m : SMap α) : ∀ lo, smWfFrom d lo m = true ↔
    (∀ p ∈ m, (∀ x, lo = some x → x < p.1) ∧ p.2 ≠ d) ∧ m.Pairwise (fun p q => p.1 < q.1) := by
  induction m with
  | nil => simp [smWfFrom]
  | cons p rest ih => intro lo; cases lo <;> grind [smWfFrom, List.pairwise_cons]

theorem smWf_iff (d : α) (m : SMap α) : smWf d m = true ↔ (∀ p ∈ m, p.2 ≠ d) ∧ m.Pairwise (fun p q => p.1 < q.1) := by
  simp [smWf, smWfFrom_iff]

/-- A pair put before a list of higher keys is listed unless it is the default. -/
theorem smCons_above (d : α) (k : Nat) (v : α) {m : SMap α} (h : ∀ p ∈ m, k < p.1) : smCons d k v m = if v = d then m else (k, v) :: m := by
  cases m <;> grind [smCons, smAbove]

/-- What a map lists after a key is set: that key's pair, or pairs that it listed before. -/
theorem mem_smSet (d : α) (k : Nat) (v : α) (p : Nat × α) : ∀ m : SMap α, p ∈ smSet m d k v → p = (k, v) ∨ p ∈ m
  | [] => by grind [smSet, smCons]
  | (_, _) :: rest => by grind [smSet, smCons, mem_smSet d k v p rest]

/-- Setting a key keeps the canonical form. -/
theorem smSet_wf (d : α) (k : Nat) (v : α) {m : SMap α} (h : smWf d m = true) : smWf d (smSet m d k v) = true := by
  rw [smWf_iff] at *
  induction m with
  | nil => grind [smSet, smCons_above]
  | cons p rest ih =>
    have hr := List.pairwise_cons.1 h.2
    have := ih ⟨fun q hq => h.1 q (List.mem_cons_of_mem _ hq), hr.2⟩
    unfold smSet
    split
    · rw [smCons_above d k v (by grind)]; grind [List.pairwise_cons]
    split
    · rw [smCons_above d k v (by grind)]; grind [List.pairwise_cons]
    · have hm : ∀ q ∈ smSet rest d k v, p.1 < q.1 := fun q hq => (mem_smSet d k v q rest hq).elim (fun e => by subst e; omega) (hr.1 q)
      grind [List.pairwise_cons]

/-- Leaving pairs out keeps the canonical form. -/
theorem filter_wf (d : α) (p : Nat × α → Bool) {m : SMap α} (h : smWf d m = true) : smWf d (m.filter p) = true := by
  rw [smWf_iff] at *
  exact ⟨fun q hq => h.1 q (List.mem_filter.1 hq |>.1), h.2.filter p⟩

/-! ### Memory -/

theorem Memory.read_write (m : Memory) (a b : Nat) (v : Byte) : (m.write a v).read b = if b = a then v else m.read b :=
  smGet_smSet emptyByte a b v m

/-- Every memory operation keeps the canonical form: one byte, a run of bytes, leaving a span out. -/
theorem Memory.write_wf {m : Memory} (h : m.wf = true) (a : Nat) (v : Byte) : (m.write a v).wf = true := smSet_wf emptyByte a v h

theorem Memory.writeN_wf : ∀ (n : Nat) {m : Memory}, m.wf = true → ∀ a x, (m.writeN a n x).wf = true
  | 0, _, h, _, _ => h
  | n + 1, _, h, a, x => Memory.writeN_wf n (Memory.write_wf h a _) (a + 1) (x / 256)

theorem Memory.filter_wf (p : Nat × Byte → Bool) {m : Memory} (h : m.wf = true) : Memory.wf (m.filter p) = true :=
  Machine.filter_wf emptyByte p h

/-- A byte outside a run reads as before. -/
theorem Memory.read_writeN_out : ∀ (n : Nat) (m : Memory) (a x b : Nat), (b < a ∨ a + n ≤ b) → (m.writeN a n x).read b = m.read b
  | 0, _, _, _, _, _ => rfl
  | n + 1, m, a, x, b, h =>
    (Memory.read_writeN_out n _ (a + 1) (x / 256) b (by omega)).trans ((Memory.read_write m a b _).trans (if_neg (by omega)))

theorem Memory.empty_wf : Memory.wf [] = true := rfl

end Sys2Proof.Machine
end

