-- ==== Sys2Proof/Laws/State.lean ====
section
/-! SUPPORT. What the updates of the state do, field by field: waves, crews, cores and the registers of a wave. -/

namespace Sys2Proof.Machine

/-! ### Waves of the state -/

@[simp] theorem setWave_cur (s : State) (w : Nat) (x : Wave) : (setWave s w x).cur = s.cur := by
  unfold setWave; split <;> rfl

@[simp] theorem modWave_cur (s : State) (w : Nat) (f : Wave → Wave) : (modWave s w f).cur = s.cur := setWave_cur ..

theorem getWave_setWave (s : State) (w : Nat) (x : Wave) (j : Nat) :
    getWave (setWave s w x) j = if j = w then x else getWave s j := by
  unfold setWave getWave
  by_cases hw : w = s.cur
  · subst hw; by_cases hj : j = s.cur <;> simp [hj]
  · simp only [hw, if_false]
    by_cases hj : j = s.cur
    · subst hj; simp [Ne.symm hw]
    · simp only [hj, if_false, smGet_smSet]

theorem getWave_modWave (s : State) (w : Nat) (f : Wave → Wave) (j : Nat) :
    getWave (modWave s w f) j = if j = w then f (getWave s w) else getWave s j := getWave_setWave ..

@[simp] theorem getWave_cur (s : State) : getWave s s.cur = s.wave := if_pos rfl

theorem modWave_self (s : State) (f : Wave → Wave) : modWave s s.cur f = { s with wave := f s.wave } := by
  simp [modWave, setWave]

theorem eraseWaves_setWave (s : State) (w : Nat) (x : Wave) : eraseWaves (setWave s w x) = eraseWaves s := by
  unfold setWave; split <;> rfl

theorem eraseWaves_modWave (s : State) (w : Nat) (f : Wave → Wave) : eraseWaves (modWave s w f) = eraseWaves s :=
  eraseWaves_setWave ..

/-! ### Registers of a wave -/

theorem sGet_sPut (x : Wave) (i v j : Nat) : sGet (sPut x i v) j = if j = i then v % 2 ^ 32 else sGet x j := by
  unfold sGet sPut; simp only [smGet_smSet]; split <;> simp

theorem vGet_vPut (x : Wave) (r l v q m : Nat) (hl : l < 32) (hm : m < 32) :
    vGet (vPut x r l v) q m = if q = r ∧ m = l then v % 2 ^ 32 else vGet x q m := by
  unfold vGet vPut; simp only [smGet_smSet]
  by_cases h : q = r ∧ m = l
  · rw [if_pos h, if_pos (by omega)]; simp
  · rw [if_neg h, if_neg (by omega)]

theorem pGet_pPut (x : Wave) (i : Nat) (m : Lanes) (j : Nat) : pGet (pPut x i m) j = if j = i then m else pGet x j := by
  unfold pGet pPut; exact smGet_smSet ..

theorem kGet_kPut (x : Wave) (i : Nat) (m : Lanes) (j : Nat) : kGet (kPut x i m) j = if j = i then m else kGet x j := by
  unfold kGet kPut; exact smGet_smSet ..

theorem getLane_modLane (x : Wave) (l : Nat) (f : Lane → Lane) (j : Nat) :
    getLane (modLane x l f) j = if j = l then f (getLane x l) else getLane x j := by
  unfold getLane modLane smMod; exact smGet_smSet ..

@[simp] theorem vGet_sPut (x : Wave) (i v r l : Nat) : vGet (sPut x i v) r l = vGet x r l := rfl
@[simp] theorem pGet_sPut (x : Wave) (i v j : Nat) : pGet (sPut x i v) j = pGet x j := rfl
@[simp] theorem kGet_sPut (x : Wave) (i v j : Nat) : kGet (sPut x i v) j = kGet x j := rfl
@[simp] theorem sGet_vPut (x : Wave) (r l v j : Nat) : sGet (vPut x r l v) j = sGet x j := rfl
@[simp] theorem pGet_vPut (x : Wave) (r l v j : Nat) : pGet (vPut x r l v) j = pGet x j := rfl
@[simp] theorem kGet_vPut (x : Wave) (r l v j : Nat) : kGet (vPut x r l v) j = kGet x j := rfl
@[simp] theorem sGet_pPut (x : Wave) (i : Nat) (m : Lanes) (j : Nat) : sGet (pPut x i m) j = sGet x j := rfl
@[simp] theorem vGet_pPut (x : Wave) (i : Nat) (m : Lanes) (r l : Nat) : vGet (pPut x i m) r l = vGet x r l := rfl
@[simp] theorem kGet_pPut (x : Wave) (i : Nat) (m : Lanes) (j : Nat) : kGet (pPut x i m) j = kGet x j := rfl
@[simp] theorem sGet_kPut (x : Wave) (i : Nat) (m : Lanes) (j : Nat) : sGet (kPut x i m) j = sGet x j := rfl
@[simp] theorem vGet_kPut (x : Wave) (i : Nat) (m : Lanes) (r l : Nat) : vGet (kPut x i m) r l = vGet x r l := rfl
@[simp] theorem pGet_kPut (x : Wave) (i : Nat) (m : Lanes) (j : Nat) : pGet (kPut x i m) j = pGet x j := rfl
@[simp] theorem sGet_modLane (x : Wave) (l : Nat) (f : Lane → Lane) (j : Nat) : sGet (modLane x l f) j = sGet x j := rfl
@[simp] theorem vGet_modLane (x : Wave) (l : Nat) (f : Lane → Lane) (r j : Nat) : vGet (modLane x l f) r j = vGet x r j := rfl
@[simp] theorem pGet_modLane (x : Wave) (l : Nat) (f : Lane → Lane) (j : Nat) : pGet (modLane x l f) j = pGet x j := rfl
@[simp] theorem kGet_modLane (x : Wave) (l : Nat) (f : Lane → Lane) (j : Nat) : kGet (modLane x l f) j = kGet x j := rfl

/-! ### Lane masks -/

theorem mem_lanesOf {m : Lanes} {l : Nat} : l ∈ lanesOf m ↔ l < 32 ∧ m.getLsbD l = true := by
  simp [lanesOf]

theorem laneBit_getLsbD (i j : Nat) (hi : i < 32) : (laneBit i).getLsbD j = decide (j = i) := by
  unfold laneBit
  rw [BitVec.getLsbD_ofNat, Nat.testBit_two_pow]
  by_cases h : i = j
  · subst h; simp [hi]
  · simp [h, Ne.symm h]

theorem foldl_or_getLsbD (l : List Nat) (m : Lanes) (j : Nat) (h : ∀ i ∈ l, i < 32) :
    (l.foldl (fun m i => m ||| laneBit i) m).getLsbD j = (m.getLsbD j || l.contains j) := by
  induction l generalizing m with
  | nil => simp
  | cons a t ih =>
    rw [List.foldl_cons, ih _ (fun i hi => h i (List.mem_cons_of_mem _ hi)), BitVec.getLsbD_or,
      laneBit_getLsbD _ _ (h a (List.mem_cons_self ..)), List.contains_cons]
    by_cases e : j = a
    · subst e; simp
    · rw [decide_eq_false e, beq_false_of_ne e]; simp

theorem maskOf_getLsbD (l : List Nat) (j : Nat) (h : ∀ i ∈ l, i < 32) : (maskOf l).getLsbD j = l.contains j := by
  unfold maskOf; rw [foldl_or_getLsbD l 0 j h]; simp

/-- The mask of the lanes of `m` that satisfy `p`. -/
theorem maskOf_filter_getLsbD (m : Lanes) (p : Nat → Bool) (j : Nat) (hj : j < 32) :
    (maskOf ((lanesOf m).filter p)).getLsbD j = (m.getLsbD j && p j) := by
  rw [maskOf_getLsbD]
  · simp [lanesOf, hj, Bool.and_comm]
  · intro i hi
    exact (mem_lanesOf.1 (List.mem_filter.1 hi).1).1

end Sys2Proof.Machine
end

