-- ==== Sys2Proof/Laws/Issue.lean ====
section
/-! SUPPORT. What finishing an instruction does (`commit`, `advance`, `raise`), said once: nothing but the issue side of waves
moves. -/

namespace Sys2Proof.Machine

/-! ### Agreement of waves and states -/

theorem SameRegs.refl (x : Wave) : SameRegs x x := ⟨rfl, fun _ => ⟨rfl, rfl, rfl⟩⟩

theorem SameRegs.trans {x y z : Wave} (h : SameRegs x y) (k : SameRegs y z) : SameRegs x z :=
  ⟨h.1.trans k.1, fun l => ⟨(h.2 l).1.trans (k.2 l).1, (h.2 l).2.1.trans (k.2 l).2.1, (h.2 l).2.2.trans (k.2 l).2.2⟩⟩

theorem SameRegs.v {x y : Wave} (h : SameRegs x y) : x.v = y.v := congrArg (·.v) h.1
theorem SameRegs.s {x y : Wave} (h : SameRegs x y) : x.s = y.s := congrArg (·.s) h.1
theorem SameRegs.p {x y : Wave} (h : SameRegs x y) : x.p = y.p := congrArg (·.p) h.1
theorem SameRegs.k {x y : Wave} (h : SameRegs x y) : x.k = y.k := congrArg (·.k) h.1
theorem SameRegs.wsw {x y : Wave} (h : SameRegs x y) : x.wsw = y.wsw := congrArg (·.wsw) h.1
theorem SameRegs.fcsr {x y : Wave} (h : SameRegs x y) : x.fcsr = y.fcsr := congrArg (·.fcsr) h.1
theorem SameRegs.gran {x y : Wave} (h : SameRegs x y) : x.gran = y.gran := congrArg (·.gran) h.1
theorem SameRegs.vGet {x y : Wave} (h : SameRegs x y) (r l : Nat) : vGet x r l = Machine.vGet y r l := by
  unfold Machine.vGet; rw [h.v]
theorem SameRegs.sGet {x y : Wave} (h : SameRegs x y) (i : Nat) : sGet x i = Machine.sGet y i := by
  unfold Machine.sGet; rw [h.s]
theorem SameRegs.pGet {x y : Wave} (h : SameRegs x y) (i : Nat) : pGet x i = Machine.pGet y i := by
  unfold Machine.pGet; rw [h.p]
theorem SameRegs.kGet {x y : Wave} (h : SameRegs x y) (i : Nat) : kGet x i = Machine.kGet y i := by
  unfold Machine.kGet; rw [h.k]

theorem SameElse.refl (s : State) : SameElse s s := rfl
theorem SameElse.trans {s t u : State} (h : SameElse s t) (k : SameElse t u) : SameElse s u := Eq.trans h k
theorem SameElse.mem {s t : State} (h : SameElse s t) : s.mem = t.mem := by
  unfold SameElse at h; simpa [eraseWaves] using congrArg State.mem h
theorem SameElse.bench {s t : State} (h : SameElse s t) : s.bench = t.bench := by
  unfold SameElse at h; simpa [eraseWaves] using congrArg State.bench h
theorem SameElse.cur {s t : State} (h : SameElse s t) : s.cur = t.cur := by
  unfold SameElse at h; simpa [eraseWaves] using congrArg State.cur h

theorem sameElse_modWave (s : State) (w : Nat) (f : Wave → Wave) : SameElse s (modWave s w f) := (eraseWaves_modWave s w f).symm

/-- An update of one wave that keeps its registers keeps every wave's. -/
theorem sameRegs_modWave (s : State) (w : Nat) (f : Wave → Wave) (h : SameRegs (getWave s w) (f (getWave s w))) (j : Nat) :
    SameRegs (getWave s j) (getWave (modWave s w f) j) := by
  rw [getWave_modWave]; split
  · next e => subst e; exact h
  · exact SameRegs.refl _

/-! ### Lanes and paths -/

/-- A change of a lane that keeps its stack and its mask wait. -/
def LaneKeep (f : Lane → Lane) : Prop := ∀ y, (f y).stack = y.stack ∧ (f y).park = y.park ∧ (f y).tile = y.tile

theorem atHeader_keep (pc : DWord) : LaneKeep (atHeader pc) := fun _ => ⟨rfl, rfl, rfl⟩
theorem atInstr_keep (pc head : DWord) : LaneKeep (atInstr pc head) := fun _ => ⟨rfl, rfl, rfl⟩

theorem sameRegs_modLane (x : Wave) (l : Nat) {f : Lane → Lane} (h : LaneKeep f) : SameRegs x (modLane x l f) := by
  refine ⟨rfl, fun j => ?_⟩
  rw [getLane_modLane]; split
  · next e => subst e; obtain ⟨a, b, c⟩ := h (getLane x j); exact ⟨a.symm, b.symm, c.symm⟩
  · exact ⟨rfl, rfl, rfl⟩

theorem sameRegs_foldLane (ls : List Nat) {f : Nat → Lane → Lane} (h : ∀ l, LaneKeep (f l)) (x : Wave) :
    SameRegs x (ls.foldl (fun x l => modLane x l (f l)) x) := by
  induction ls generalizing x with
  | nil => exact SameRegs.refl _
  | cons a t ih => exact (sameRegs_modLane x a (h a)).trans (ih _)

theorem sameRegs_modLanes (x : Wave) (m : Lanes) {f : Lane → Lane} (h : LaneKeep f) : SameRegs x (modLanes x m f) :=
  sameRegs_foldLane (f := fun _ => f) _ (fun _ => h) x

theorem sameRegs_setPath (x : Wave) (b : Bool) (p : Path) : SameRegs x (setPath x b p) := by
  unfold setPath; split <;> exact ⟨rfl, fun _ => ⟨rfl, rfl, rfl⟩⟩

theorem sameRegs_setSlot (x : Wave) (b : Bool) (v : Nat) : SameRegs x (setSlot x b v) := ⟨rfl, fun _ => ⟨rfl, rfl, rfl⟩⟩

theorem sameRegs_leavePath (x : Wave) (m : Lanes) : SameRegs x (leavePath x m) := sameRegs_setPath ..

theorem sameRegs_passTurn (x : Wave) : SameRegs x (passTurn x) := by
  unfold passTurn; dsimp only; split <;> exact ⟨rfl, fun _ => ⟨rfl, rfl, rfl⟩⟩

/-- An update of one wave that a wave's queue of continuations steers keeps what each update keeps. -/
theorem foldSlots_field {α : Type} (g : Wave → α) (hg : ∀ (x : Wave) b v, g (setSlot x b v) = g x) (cs : List Cont) (x : Wave) :
    g (cs.foldl (fun x c => match c.slot with
      | some v => if (pathOf x (c.path == 1)).on then x else setSlot x (c.path == 1) v
      | none => x) x) = g x := by
  induction cs generalizing x with
  | nil => rfl
  | cons a t ih =>
    refine (ih _).trans ?_
    dsimp only
    split
    · split
      · rfl
      · exact hg ..
    · rfl

theorem sameRegs_clearSlots (x : Wave) : SameRegs x (clearSlots x) :=
  ⟨(foldSlots_field eraseIssue (fun _ _ _ => rfl) x.conts { x with ordp := 0 }).symm,
    fun l => by
      have h := foldSlots_field (fun y => getLane y l) (fun _ _ _ => rfl) x.conts { x with ordp := 0 }
      exact ⟨(congrArg Lane.stack h).symm, (congrArg Lane.park h).symm, (congrArg Lane.tile h).symm⟩⟩

theorem sameRegs_endPath (x : Wave) : SameRegs x (endPath x) := (sameRegs_setPath ..).trans (sameRegs_clearSlots _)

theorem sameRegs_advance (x : Wave) (n : Nat) : SameRegs x (advance x n) := by
  unfold advance; dsimp only
  split
  · exact sameRegs_passTurn x
  split
  · exact (sameRegs_endPath x).trans (sameRegs_passTurn _)
  split
  · exact ((sameRegs_modLanes x _ (atHeader_keep _)).trans (sameRegs_endPath _)).trans (sameRegs_passTurn _)
  · exact (sameRegs_setPath ..).trans (sameRegs_passTurn _)

theorem sameRegs_syncPath (x : Wave) (b : Bool) : SameRegs x (syncPath x b) := by
  unfold syncPath; dsimp only; split
  · refine (sameRegs_modLanes x _ ?_).trans (sameRegs_setPath ..)
    split
    · exact atHeader_keep _
    · exact atInstr_keep _ _
  · exact SameRegs.refl _

theorem sameRegs_syncPaths (x : Wave) : SameRegs x (syncPaths x) :=
  ((sameRegs_syncPath x false).trans (sameRegs_syncPath _ true)).trans ⟨rfl, fun _ => ⟨rfl, rfl, rfl⟩⟩

theorem sameRegs_markLanes (x : Wave) (m : Lanes) (c : Nat) : SameRegs x (markLanes x m c) := ⟨rfl, fun _ => ⟨rfl, rfl, rfl⟩⟩

theorem ordp_setPath (x : Wave) (b : Bool) (p : Path) : (setPath x b p).ordp = x.ordp := by unfold setPath; split <;> rfl

theorem ordp_foldLane (ls : List Nat) (f : Nat → Lane → Lane) (x : Wave) :
    (ls.foldl (fun x l => modLane x l (f l)) x).ordp = x.ordp := by
  induction ls generalizing x with
  | nil => rfl
  | cons a t ih => exact ih _

theorem ordp_syncPath (x : Wave) (b : Bool) : (syncPath x b).ordp = x.ordp := by
  unfold syncPath; dsimp only; split
  · rw [ordp_setPath]; exact ordp_foldLane _ (fun _ => _) _
  · rfl

theorem ordp_syncPaths (x : Wave) : (syncPaths x).ordp = x.ordp := by
  show (syncPath (syncPath x false) true).ordp = _; rw [ordp_syncPath, ordp_syncPath]

theorem foldLane_field {α : Type} (g : Wave → α) (hg : ∀ (x : Wave) l f, g (modLane x l f) = g x) (ls : List Nat)
    (f : Nat → Lane → Lane) (x : Wave) : g (ls.foldl (fun x l => modLane x l (f l)) x) = g x := by
  induction ls generalizing x with
  | nil => rfl
  | cons a t ih => exact (ih _).trans (hg ..)

/-- The slots that a stop puts back move nothing else. -/
theorem lateBack_field {α : Type} (g : Wave → α) (hg : ∀ (x : Wave) b v, g (setSlot x b v) = g x)
    (hl : ∀ x : Wave, g { x with late := [] } = g x) (x : Wave) : g (lateBack x) = g x := by
  have key : ∀ (es : List (Nat × Nat)) (y : Wave), g (es.foldl (fun x e => setSlot x (e.1 == 1) e.2) y) = g y := by
    intro es; induction es with
    | nil => exact fun _ => rfl
    | cons a t ih => exact fun y => (ih _).trans (hg ..)
  exact (hl _).trans (key ..)

theorem sameRegs_lateBack (x : Wave) : SameRegs x (lateBack x) :=
  ⟨(lateBack_field eraseIssue (fun _ _ _ => rfl) (fun _ => rfl) x).symm, fun l => by
    have h := lateBack_field (fun y => getLane y l) (fun _ _ _ => rfl) (fun _ => rfl) x
    exact ⟨(congrArg Lane.stack h).symm, (congrArg Lane.park h).symm, (congrArg Lane.tile h).symm⟩⟩

theorem late_syncPaths (x : Wave) : (syncPaths x).late = x.late := by
  have hp : ∀ (y : Wave) b p, (setPath y b p).late = y.late := by intro y b p; unfold setPath; split <;> rfl
  have hs : ∀ (y : Wave) b, (syncPath y b).late = y.late := by
    intro y b; unfold syncPath; dsimp only; split
    · rw [hp]; exact foldLane_field (·.late) (fun _ _ _ => rfl) _ (fun _ => _) _
    · rfl
  show (syncPath (syncPath x false) true).late = _; rw [hs, hs]

/-! ### Raising a cause -/

/-- Where no read of the cycle has faulted, ORDP stays, and none has faulted after. -/
def OrdpSide (x y : Wave) : Prop := x.late = [] → y.late = [] ∧ y.ordp = x.ordp

theorem OrdpSide.trans {x y z : Wave} (h : OrdpSide x y) (k : OrdpSide y z) : OrdpSide x z := fun e =>
  ⟨(k (h e).1).1, (k (h e).1).2.trans (h e).2⟩

/-- An update that touches nothing but the issue of waves. -/
def IssueSide (s t : State) : Prop := SameElse s t ∧ (∀ w, SameRegs (getWave s w) (getWave t w)) ∧ OrdpSide s.wave t.wave

theorem IssueSide.refl (s : State) : IssueSide s s := ⟨rfl, fun _ => SameRegs.refl _, fun e => ⟨e, rfl⟩⟩
theorem IssueSide.trans {s t u : State} (h : IssueSide s t) (k : IssueSide t u) : IssueSide s u :=
  ⟨h.1.trans k.1, fun w => (h.2.1 w).trans (k.2.1 w), h.2.2.trans k.2.2⟩
theorem IssueSide.ordp {s t : State} (h : IssueSide s t) (e : s.wave.late = []) : t.wave.ordp = s.wave.ordp := (h.2.2 e).2

theorem issueSide_modWave (s : State) (w : Nat) (f : Wave → Wave) (h : SameRegs (getWave s w) (f (getWave s w)))
    (ho : OrdpSide (getWave s w) (f (getWave s w))) : IssueSide s (modWave s w f) := by
  refine ⟨sameElse_modWave s w f, sameRegs_modWave s w f h, ?_⟩
  have h1 := getWave_modWave s w f s.cur
  have h2 : getWave (modWave s w f) s.cur = (modWave s w f).wave := by
    conv => lhs; rw [← modWave_cur s w f]
    exact getWave_cur _
  rw [← h2, h1]; split
  · next e => subst e; rw [getWave_cur] at ho ⊢; exact ho
  · rw [getWave_cur]; exact fun e => ⟨e, rfl⟩

theorem sameRegs_stopAs (b : Bool) (st : WaveStatus) (x : Wave) : SameRegs x (stopAs b st x) := by
  unfold stopAs; split
  · split
    · exact SameRegs.refl _
    · exact ((sameRegs_syncPaths _).trans (sameRegs_lateBack _)).trans ⟨rfl, fun _ => ⟨rfl, rfl, rfl⟩⟩
  · exact SameRegs.refl _

theorem ordp_stopAs (b : Bool) (st : WaveStatus) (x : Wave) : OrdpSide x (stopAs b st x) := by
  intro e; unfold stopAs; split
  · split
    · exact ⟨e, rfl⟩
    · refine ⟨rfl, ?_⟩
      have h : lateBack (syncPaths x) = { syncPaths x with late := [] } := by
        unfold lateBack; rw [late_syncPaths, e]; rfl
      rw [h]; exact ordp_syncPaths x
  · exact ⟨e, rfl⟩

theorem issueSide_stop (s : State) (w : Nat) (b : Bool) : IssueSide s (stopWave s w b) := by
  have key : ∀ (s : State) (w : Nat) (st : WaveStatus), IssueSide s (modWave s w (stopAs b st)) := fun s w st =>
    issueSide_modWave s w _ (sameRegs_stopAs ..) (ordp_stopAs _ _ _)
  unfold stopWave
  dsimp only
  split
  · exact (key ..).trans (key ..)
  · exact key ..

theorem issueSide_raise (s : State) (w : Nat) (p : Pending) : IssueSide s (raise s w p) := by
  unfold raise; dsimp only; split
  · exact IssueSide.refl s
  · exact ((issueSide_modWave s w _ (sameRegs_markLanes ..) (fun e => ⟨e, rfl⟩)).trans
      (issueSide_modWave _ _ _ ⟨rfl, fun _ => ⟨rfl, rfl, rfl⟩⟩ (fun e => ⟨e, rfl⟩))).trans (issueSide_stop ..)

/-! ### The end of an instruction -/

theorem issueSide_strokeFault (s : State) (w : Nat) (b : Bool) (m : Lanes) (h : DWord) (e : Nat × List Word) :
    IssueSide s (strokeFault s w b m h e) := issueSide_raise ..

theorem issueSide_endCycle (x0 : Wave) (w : Nat) (s : State) : IssueSide s (endCycle x0 w s) := by
  unfold endCycle; dsimp only
  split
  · exact IssueSide.refl s
  split
  · split
    · exact issueSide_strokeFault ..
    · exact IssueSide.refl s
  split
  · exact IssueSide.refl s
  · exact issueSide_modWave _ _ _ (sameRegs_stopAs ..) (ordp_stopAs _ _ _)

theorem issueSide_stepTrap (s : State) (w : Nat) (i : Instr) (was : Bool) (path : Nat) (m : Lanes) : IssueSide s (stepTrap s w i was path m) := by
  unfold stepTrap; split
  · exact (issueSide_modWave s w (fun x => { x with stepped := true }) ⟨rfl, fun _ => ⟨rfl, rfl, rfl⟩⟩ (fun e => ⟨e, rfl⟩)).trans (issueSide_raise ..)
  · exact IssueSide.refl s

/-- With path B's stroke started and no cause standing, the end of a cycle changes nothing. -/
theorem endCycle_quiet {x0 : Wave} {w : Nat} {s : State} (hb : x0.turnB = false → (getWave s w).pathB.bad = none)
    (hp : (getWave s (mainWave s w)).pend = []) : endCycle x0 w s = s := by
  unfold endCycle; dsimp only
  split
  · rfl
  split
  · next h =>
    rw [hb (by simpa using (Bool.and_eq_true_iff.1 h).1)]
  · rw [if_pos (by rw [hp]; rfl)]

theorem bad_advance (x : Wave) (n : Nat) (h : x.turnB = false) : (advance x n).pathB.bad = x.pathB.bad := by
  have hs : ∀ (y : Wave) p, y.turnB = false → (setPath y y.turnB p).pathB = y.pathB ∧ (setPath y y.turnB p).turnB = false := by
    intro y p hy; rw [hy]; exact ⟨rfl, hy⟩
  have hc : ∀ y : Wave, (clearSlots y).pathB = y.pathB := fun y =>
    foldSlots_field (·.pathB) (fun _ _ _ => rfl) y.conts { y with ordp := 0 }
  have he : ∀ y : Wave, y.turnB = false → (endPath y).pathB = y.pathB := fun y hy => (hc _).trans (hs y {} hy).1
  have ht : ∀ y : Wave, (passTurn y).pathB = y.pathB := by intro y; unfold passTurn; dsimp only; split <;> rfl
  have hl : ∀ (m : Lanes) (f : Lane → Lane), (modLanes x m f).turnB = false ∧ (modLanes x m f).pathB = x.pathB := fun m f =>
    ⟨(foldLane_field (·.turnB) (fun _ _ _ => rfl) _ (fun _ => f) x).trans h, foldLane_field (·.pathB) (fun _ _ _ => rfl) _ (fun _ => f) x⟩
  unfold advance; dsimp only
  split
  · rw [ht]
  split
  · rw [ht, he x h]
  split
  · rw [ht, he _ (hl ..).1, (hl ..).2]
  · rw [ht, (hs x _ h).1]

theorem shadow_partner_eq {x y : Wave} (h : SameRegs x y) : x.shadow = y.shadow ∧ x.partner = y.partner :=
  ⟨congrArg (·.shadow) h.1, congrArg (·.partner) h.1⟩

/-- A field that no part of it moves is kept by the end of an instruction. -/
theorem advance_field {α : Type} (g : Wave → α) (hs : ∀ (y : Wave) b p, g (setPath y b p) = g y) (hv : ∀ (y : Wave) b v, g (setSlot y b v) = g y)
    (ho : ∀ y : Wave, g { y with ordp := 0 } = g y) (ht : ∀ y : Wave, g (passTurn y) = g y) (hl : ∀ (y : Wave) l f, g (modLane y l f) = g y)
    (x : Wave) (n : Nat) : g (advance x n) = g x := by
  have he : ∀ y : Wave, g (endPath y) = g y := fun y => (foldSlots_field g hv _ _).trans ((ho _).trans (hs y y.turnB {}))
  unfold advance; dsimp only
  split
  · rw [ht]
  split
  · rw [ht, he]
  split
  · rw [ht, he]; exact foldLane_field g hl _ (fun _ => _) x
  · rw [ht, hs]

theorem pend_advance (x : Wave) (n : Nat) : (advance x n).pend = x.pend :=
  advance_field (·.pend) (fun y b p => by unfold setPath; split <;> rfl) (fun _ _ _ => rfl) (fun _ => rfl)
    (fun y => by unfold passTurn; dsimp only; split <;> rfl) (fun _ _ _ => rfl) x n

theorem late_advance (x : Wave) (n : Nat) : (advance x n).late = x.late :=
  advance_field (·.late) (fun y b p => by unfold setPath; split <;> rfl) (fun _ _ _ => rfl) (fun _ => rfl)
    (fun y => by unfold passTurn; dsimp only; split <;> rfl) (fun _ _ _ => rfl) x n

/-- How a stroke ends with a continuation (R28, R157): its lanes stand where `f` says, and the queue becomes `cs`. -/
def strokeEnd (x : Wave) (m : Lanes) (f : Lane → Lane) (cs : Wave → List Cont) : Wave :=
  passTurn (endPath { modLanes x m f with conts := cs (modLanes x m f) })

/-- A field that no part of it moves is kept by the end of a stroke. -/
theorem strokeEnd_field {α : Type} (g : Wave → α) (hp : ∀ (y : Wave) b p, g (setPath y b p) = g y)
    (hs : ∀ (y : Wave) b v, g (setSlot y b v) = g y) (ho : ∀ y : Wave, g { y with ordp := 0 } = g y) (ht : ∀ y : Wave, g (passTurn y) = g y)
    (hl : ∀ (y : Wave) l f, g (modLane y l f) = g y) (hc : ∀ (y : Wave) cs, g { y with conts := cs } = g y)
    (x : Wave) (m : Lanes) (f : Lane → Lane) (cs : Wave → List Cont) : g (strokeEnd x m f cs) = g x :=
  (ht _).trans ((foldSlots_field g hs _ _).trans ((ho _).trans ((hp ..).trans ((hc ..).trans (foldLane_field g hl _ (fun _ => f) x)))))

theorem pend_strokeEnd (x : Wave) (m : Lanes) (f : Lane → Lane) (cs : Wave → List Cont) : (strokeEnd x m f cs).pend = x.pend :=
  strokeEnd_field (·.pend) (fun y b p => by unfold setPath; split <;> rfl) (fun _ _ _ => rfl) (fun _ => rfl)
    (fun y => by unfold passTurn; dsimp only; split <;> rfl) (fun _ _ _ => rfl) (fun _ _ => rfl) x m f cs

theorem pair_strokeEnd (x : Wave) (m : Lanes) (f : Lane → Lane) (cs : Wave → List Cont) :
    ((strokeEnd x m f cs).shadow, (strokeEnd x m f cs).partner) = (x.shadow, x.partner) :=
  strokeEnd_field (fun y => (y.shadow, y.partner)) (fun y b p => by unfold setPath; split <;> rfl) (fun _ _ _ => rfl) (fun _ => rfl)
    (fun y => by unfold passTurn; dsimp only; split <;> rfl) (fun _ _ _ => rfl) (fun _ _ => rfl) x m f cs

theorem bad_strokeEnd (x : Wave) (m : Lanes) (f : Lane → Lane) (cs : Wave → List Cont) (h : x.turnB = false) :
    (strokeEnd x m f cs).pathB.bad = x.pathB.bad := by
  have he : ∀ y : Wave, y.turnB = false → (endPath y).pathB = y.pathB := fun y hy =>
    (foldSlots_field (·.pathB) (fun _ _ _ => rfl) _ _).trans (by rw [hy]; rfl)
  have ht : ∀ y : Wave, (passTurn y).pathB = y.pathB := by intro y; unfold passTurn; dsimp only; split <;> rfl
  unfold strokeEnd
  rw [ht, he]
  · exact congrArg Path.bad (foldLane_field (·.pathB) (fun _ _ _ => rfl) _ (fun _ => f) x)
  · exact (foldLane_field (·.turnB) (fun _ _ _ => rfl) _ (fun _ => f) x).trans h

/-- With nothing about to stop the wave, a change of the current wave that moves no cause and no start of path B ends its cycle as it is. -/
theorem endCycle_wave {x0 v : Wave} {u : State} (hp : v.pend = u.wave.pend) (hb : x0.turnB = false → v.pathB.bad = u.wave.pathB.bad)
    (hw : (v.shadow, v.partner) = (u.wave.shadow, u.wave.partner)) (hq : Unstopped u) :
    endCycle x0 u.cur { u with wave := v } = { u with wave := v } := by
  have hg : ∀ j, getWave { u with wave := v } j = if j = u.cur then v else getWave u j := by intro j; unfold getWave; split <;> rfl
  have hm : mainWave { u with wave := v } u.cur = mainWave u u.cur := by
    unfold mainWave; dsimp only
    rw [hg, if_pos rfl, getWave_cur, show v.shadow = _ from congrArg Prod.fst hw, show v.partner = _ from congrArg Prod.snd hw]
  refine endCycle_quiet (fun hn => ?_) ?_
  · rw [hg, if_pos rfl, hb hn]; exact hq.1
  · rw [hm, hg]; split
    · next h => rw [hp, ← getWave_cur u, ← h]; exact hq.2
    · exact hq.2

/-- The same of the end of a stroke with a continuation. -/
theorem endCycle_stroke {x0 : Wave} {u : State} (m : Lanes) (f : Lane → Lane) (cs : Wave → List Cont) (hb : u.wave.turnB = x0.turnB)
    (hq : Unstopped u) : endCycle x0 u.cur { u with wave := strokeEnd u.wave m f cs } = { u with wave := strokeEnd u.wave m f cs } :=
  endCycle_wave (pend_strokeEnd ..) (fun hn => bad_strokeEnd _ _ _ _ (hb.trans hn)) (pair_strokeEnd ..) hq

/-- The same of a path that goes on. -/
theorem endCycle_advance {x0 : Wave} {u : State} {n : Nat} (hb : u.wave.turnB = x0.turnB) (hq : Unstopped u) :
    endCycle x0 u.cur { u with wave := advance u.wave n } = { u with wave := advance u.wave n } :=
  endCycle_wave (pend_advance ..) (fun hn => bad_advance _ _ (hb.trans hn))
    (Prod.ext (shadow_partner_eq (sameRegs_advance u.wave n)).1.symm (shadow_partner_eq (sameRegs_advance u.wave n)).2.symm) hq

theorem holdPath_eq (x : Wave) (c : Cond) (k : Option Nat) : holdPath x c k = strokeEnd x (curPath x).lanes (atInstr (curPath x).pc (curPath x).head)
    (fun y => y.conts ++ [⟨(curPath x).lanes, (curPath x).pc, (curPath x).head, k, c, if y.turnB then 1 else 0, false⟩]) := rfl

theorem holdAfter_last (x : Wave) (n : Nat) (c : Cond) (h : (curPath x).idx + 1 ≥ (curPath x).count) :
    holdAfter x n c = strokeEnd x (curPath x).lanes (atHeader (curPath x).fall)
      (fun y => y.conts ++ [⟨(curPath x).lanes, (curPath x).fall, (curPath x).fall, none, c, if y.turnB then 1 else 0, false⟩]) := by
  unfold holdAfter; dsimp only; rw [if_pos h, if_pos h, if_pos h]; rfl

theorem holdAfter_next (x : Wave) (n : Nat) (c : Cond) (h : ¬ (curPath x).idx + 1 ≥ (curPath x).count) :
    holdAfter x n c = strokeEnd x (curPath x).lanes (atInstr ((curPath x).pc + BitVec.ofNat 64 n) (curPath x).head)
      (fun y => y.conts ++ [⟨(curPath x).lanes, (curPath x).pc + BitVec.ofNat 64 n, (curPath x).head, none, c, if y.turnB then 1 else 0, false⟩]) := by
  unfold holdAfter; dsimp only; rw [if_neg h, if_neg h, if_neg h]; rfl

/-- A stroke that ends at its instruction ends the cycle too. -/
theorem commit_hold (i : Instr) (s u : State) (c : Cond) (k : Option Nat) (hc : u.cur = s.cur) (hb : u.wave.turnB = s.wave.turnB) :
    HeldAt u (commit i s (.hold u c k)) c k := by
  have h0 : modWave u s.cur (fun x => holdPath x c k) = { u with wave := holdPath u.wave c k } := by rw [← hc]; exact modWave_self ..
  show IssueEnds _ (endCycle s.wave s.cur (modWave u s.cur (fun x => holdPath x c k))) _
  rw [h0]
  have hD := issueSide_endCycle s.wave s.cur { u with wave := holdPath u.wave c k }
  refine ⟨hD.1, hD.2.1, hD.ordp, fun hq => ?_⟩
  rw [← hc, holdPath_eq]; exact endCycle_stroke _ _ _ hb hq

/-- An instruction that retires and ends its stroke behind it. -/
theorem commit_after (i : Instr) (s u : State) (c : Cond) (hc : u.cur = s.cur) (hb : u.wave.turnB = s.wave.turnB) :
    HeldBehind i s u (commit i s (.after u c)) c := by
  have h0 : modWave u s.cur (fun x => holdAfter x (instrBytes i) c) = { u with wave := holdAfter u.wave (instrBytes i) c } := by
    rw [← hc]; exact modWave_self ..
  show IssueEnds _ (endCycle s.wave s.cur (stepTrap (modWave u s.cur (fun x => holdAfter x (instrBytes i) c)) s.cur i (stepping s.wave) _ _)) _
  rw [h0]
  have hD := (issueSide_stepTrap { u with wave := holdAfter u.wave (instrBytes i) c } s.cur i (stepping s.wave)
    (if s.wave.turnB then 1 else 0) (activeLanes s.wave (curPath s.wave))).trans (issueSide_endCycle s.wave s.cur _)
  refine ⟨hD.1, hD.2.1, hD.ordp, fun hq => ?_⟩
  have h1 : stepTrap { u with wave := holdAfter u.wave (instrBytes i) c } s.cur i (stepping s.wave)
    (if s.wave.turnB then 1 else 0) (activeLanes s.wave (curPath s.wave)) = { u with wave := holdAfter u.wave (instrBytes i) c } := by
    unfold stepTrap; rw [hq.1]; rfl
  rw [h1, ← hc]
  by_cases hl : (curPath u.wave).idx + 1 ≥ (curPath u.wave).count
  · rw [holdAfter_last _ _ _ hl]; exact endCycle_stroke _ _ _ hb hq.2
  · rw [holdAfter_next _ _ _ hl]; exact endCycle_stroke _ _ _ hb hq.2

theorem commit_done (i : Instr) (s u : State) (hc : u.cur = s.cur) (hb : u.wave.turnB = s.wave.turnB) : Retired i s u (commit i s (.done u)) := by
  have h0 : modWave u s.cur (fun x => advance x (instrBytes i)) = { u with wave := advance u.wave (instrBytes i) } := by
    rw [← hc]; exact modWave_self ..
  have hA : SameElse u { u with wave := advance u.wave (instrBytes i) } := rfl
  have hB : ∀ w, SameRegs (getWave u w) (getWave { u with wave := advance u.wave (instrBytes i) } w) := by
    rw [← h0]; intro w; apply sameRegs_modWave; exact sameRegs_advance _ _
  show Retired i s u (endCycle s.wave s.cur (stepTrap (modWave u s.cur (fun x => advance x (instrBytes i))) s.cur i (stepping s.wave) _ _))
  rw [h0]
  have hD := (issueSide_stepTrap { u with wave := advance u.wave (instrBytes i) } s.cur i (stepping s.wave)
    (if s.wave.turnB then 1 else 0) (activeLanes s.wave (curPath s.wave))).trans (issueSide_endCycle s.wave s.cur _)
  refine ⟨hA.trans hD.1, fun w => (hB w).trans (hD.2.1 w), fun e => hD.ordp ((late_advance ..).trans e), fun hs hq => ?_⟩
  have h1 : stepTrap { u with wave := advance u.wave (instrBytes i) } s.cur i (stepping s.wave)
    (if s.wave.turnB then 1 else 0) (activeLanes s.wave (curPath s.wave)) = { u with wave := advance u.wave (instrBytes i) } := by
    unfold stepTrap; rw [hs]; rfl
  rw [h1, ← hc]; exact endCycle_advance hb hq

/-- An instruction that ends the stroke for the lanes that execute it retires without a step (R420). -/
theorem commit_park (i : Instr) (s u : State) (hc : u.cur = s.cur) (hb : u.wave.turnB = s.wave.turnB) : Retired i s u (commit i s (.park u)) := by
  have h0 : modWave u s.cur (fun x => advance x (instrBytes i)) = { u with wave := advance u.wave (instrBytes i) } := by
    rw [← hc]; exact modWave_self ..
  have hB : ∀ w, SameRegs (getWave u w) (getWave { u with wave := advance u.wave (instrBytes i) } w) := by
    rw [← h0]; intro w; apply sameRegs_modWave; exact sameRegs_advance _ _
  show Retired i s u (endCycle s.wave s.cur (modWave u s.cur (fun x => advance x (instrBytes i))))
  rw [h0]
  have hD := issueSide_endCycle s.wave s.cur { u with wave := advance u.wave (instrBytes i) }
  refine ⟨hD.1, fun w => (hB w).trans (hD.2.1 w), fun e => hD.ordp ((late_advance ..).trans e), fun _ hq => ?_⟩
  rw [← hc]; exact endCycle_advance hb hq

/-- An instruction that is due, meets no encoding cause, finds its registers, and has its effect, retires. -/
theorem runInstr_done {i : Instr} {g : BitVec 5} {pre : Option Nat} {n : Nat} {s u : State} {body : Path → Lanes → Res}
    (hd : Due s) (hp : pre = none) (hn : n ≤ 8 * s.wave.gran) (hb : body (curPath s.wave) (execLanes s g) = .done u)
    (hc : u.cur = s.cur) (ht : u.wave.turnB = s.wave.turnB) : ∃ t, runInstr i g pre n s body = .next t ∧ Retired i s u t := by
  subst hp
  refine ⟨_, ?_, commit_done i s u hc ht⟩
  unfold runInstr; dsimp only
  rw [show (curPath s.wave).on = true from hd, if_neg (by decide), if_neg (by omega)]
  rw [← hb]; rfl

/-! ### A precise fault -/

theorem pend_setPath (x : Wave) (b : Bool) (p : Path) : (setPath x b p).pend = x.pend := by unfold setPath; split <;> rfl

theorem pend_syncPath (x : Wave) (b : Bool) : (syncPath x b).pend = x.pend := by
  unfold syncPath; dsimp only; split
  · rw [pend_setPath]; exact foldLane_field (·.pend) (fun _ _ _ => rfl) _ (fun _ => _) _
  · rfl

theorem pend_stopAs (b : Bool) (st : WaveStatus) (x : Wave) : (stopAs b st x).pend = x.pend := by
  unfold stopAs; split
  · split
    · rfl
    refine (lateBack_field (·.pend) (fun _ _ _ => rfl) (fun _ => rfl) _).trans ?_
    show (syncPath (syncPath x false) true).pend = _; rw [pend_syncPath, pend_syncPath]
  · rfl

theorem shadow_partner_stopAs (b : Bool) (st : WaveStatus) (x : Wave) : (stopAs b st x).shadow = x.shadow ∧ (stopAs b st x).partner = x.partner :=
  ⟨(congrArg Wave.shadow (sameRegs_stopAs b st x).1).symm, (congrArg Wave.partner (sameRegs_stopAs b st x).1).symm⟩

theorem status_stopAs {b : Bool} {st : WaveStatus} {x : Wave} : x.status ≠ .running → stopAs b st x = x := by
  intro h; unfold stopAs; split
  · next e => exact absurd e h
  · rfl

theorem stopped_stopAs {x : Wave} (h : x.status = .running) : (stopAs false .stopped x).status = .stopped := by
  unfold stopAs; rw [h]; rfl

theorem mainWave_modWave {f : Wave → Wave} (hf : ∀ x, (f x).shadow = x.shadow ∧ (f x).partner = x.partner) (s : State) (v w : Nat) :
    mainWave (modWave s v f) w = mainWave s w := by
  unfold mainWave; dsimp only; rw [getWave_modWave]; split
  · next e => subst e; rw [(hf _).1, (hf _).2]
  · rfl

theorem pend_stopWave (s : State) (w m : Nat) (b : Bool) : (getWave (stopWave s w b) m).pend = (getWave s m).pend := by
  have step : ∀ (s : State) (w m : Nat) (st : WaveStatus), (getWave (modWave s w (stopAs b st)) m).pend = (getWave s m).pend := by
    intro s w m st; rw [getWave_modWave]; split
    · next e => subst e; exact pend_stopAs ..
    · rfl
  unfold stopWave; dsimp only; split
  · rw [step, step]
  · exact step ..

theorem status_stopWave (s : State) (w : Nat) (hs : (getWave s w).shadow = false) (hr : (getWave s w).status = .running) :
    (getWave (stopWave s w false) w).status = .stopped := by
  have hm : mainWave s w = w := by unfold mainWave; dsimp only; rw [hs]; rfl
  have h1 : (getWave (modWave s w (stopAs false .stopped)) w).status = .stopped := by
    rw [getWave_modWave, if_pos rfl]; exact stopped_stopAs hr
  unfold stopWave; dsimp only; rw [hm]; split
  · rw [getWave_modWave]; split
    · next e => subst e; rw [status_stopAs (by rw [h1]; decide)]; exact h1
    · exact h1
  · exact h1

theorem getWave_modWave_field {α : Type} (g : Wave → α) {f : Wave → Wave} (hf : ∀ x, g (f x) = g x) (s : State) (v j : Nat) :
    g (getWave (modWave s v f) j) = g (getWave s j) := by
  rw [getWave_modWave]; split
  · next e => subst e; exact hf _
  · rfl

theorem cur_raise (s : State) (w : Nat) (p : Pending) : (raise s w p).cur = s.cur := ((issueSide_raise s w p).1.cur).symm

/-- What `raise` does for the current wave: the cause stands, a compute wave stops. -/
theorem raise_raised (s : State) (p : Pending) (hl : p.later = false) (hr : s.wave.status = .running) : Raised s (raise s s.cur p) p.cause p.lanes := by
  have hne : ¬((getWave s s.cur).status = .absent ∨ (getWave s s.cur).status = .ended) := by rw [getWave_cur, hr]; decide
  refine ⟨(issueSide_raise ..).1, (issueSide_raise ..).2.1, ?_, ?_⟩
  · unfold raise; dsimp only; rw [if_neg hne]
    refine ⟨{ p with shadow := (getWave (modWave s s.cur (fun x => markLanes x p.lanes p.cause)) s.cur).shadow }, ?_, rfl, rfl⟩
    rw [pend_stopWave, mainWave_modWave (f := fun x => markLanes x p.lanes p.cause) (fun _ => ⟨rfl, rfl⟩), getWave_modWave, if_pos rfl]
    exact List.mem_append_right _ (List.mem_singleton.2 rfl)
  · intro hs
    rw [← getWave_cur, cur_raise]
    unfold raise; dsimp only; rw [if_neg hne, hl]
    apply status_stopWave
    · exact ((getWave_modWave_field (·.shadow) (by exact fun _ => rfl) _ _ _).trans
        (getWave_modWave_field (·.shadow) (by exact fun _ => rfl) _ _ _)).trans ((congrArg Wave.shadow (getWave_cur s)).trans hs)
    · exact ((getWave_modWave_field (·.status) (by exact fun _ => rfl) _ _ _).trans
        (getWave_modWave_field (·.status) (by exact fun _ => rfl) _ _ _)).trans ((congrArg Wave.status (getWave_cur s)).trans hr)

theorem Raised.of_side {s u t : State} {c : Nat} {m : Lanes} (h : SameElse s u ∧ (∀ w, SameRegs (getWave s w) (getWave u w)))
    (hm : s.wave.shadow = u.wave.shadow ∧ mainWave s s.cur = mainWave u u.cur) (k : Raised u t c m) : Raised s t c m :=
  ⟨h.1.trans k.1, fun w => (h.2 w).trans (k.2.1 w), hm.2 ▸ k.2.2.1, fun hs => k.2.2.2 (hm.1 ▸ hs)⟩

theorem foldMark_field {α : Type} (g : Wave → α) (hg : ∀ (x : Wave) m c, g (markLanes x m c) = g x) (own : List (Nat × Nat)) (x : Wave) :
    g (own.foldl (fun x lc => markLanes x (laneBit lc.1) lc.2) x) = g x := by
  induction own generalizing x with
  | nil => rfl
  | cons a t ih => exact (ih _).trans (hg ..)

theorem sameRegs_foldMark (own : List (Nat × Nat)) (x : Wave) :
    SameRegs x (own.foldl (fun x lc => markLanes x (laneBit lc.1) lc.2) x) := by
  induction own generalizing x with
  | nil => exact SameRegs.refl _
  | cons a t ih => exact (sameRegs_markLanes ..).trans (ih _)

theorem commit_fault (i : Instr) (s u : State) (cause : Nat) (lanes : Lanes) (own : List (Nat × Nat)) (addr : Nat)
    (hc : u.cur = s.cur) (hr : u.wave.status = .running) : Raised u (commit i s (.fault u cause lanes own addr)) cause lanes := by
  unfold commit; dsimp only
  rw [← hc]
  have hd := raise_raised (modWave u u.cur (fun x => own.foldl (fun x lc => markLanes x (laneBit lc.1) lc.2) x))
    { cause := cause, rank := (if s.wave.turnB then 1 else 0) + 1, path := if s.wave.turnB then 1 else 0, lanes := lanes, addr := addr, parcels := encode i }
    (by cases s.wave.turnB <;> rfl) (by rw [modWave_self]; exact (foldMark_field (·.status) (fun _ _ _ => rfl) own _).trans hr)
  rw [modWave_cur] at hd
  refine Raised.of_side ⟨sameElse_modWave .., sameRegs_modWave _ _ _ (sameRegs_foldMark ..)⟩ ⟨?_, ?_⟩ hd
  · rw [modWave_self]; exact (foldMark_field (·.shadow) (fun _ _ _ => rfl) own _).symm
  · rw [modWave_cur]
    refine (mainWave_modWave ?_ _ _ _).symm
    exact fun x => ⟨foldMark_field (·.shadow) (fun _ _ _ => rfl) own x, foldMark_field (·.partner) (fun _ _ _ => rfl) own x⟩

/-- An instruction that is due and faults precisely. -/
theorem runInstr_fault {i : Instr} {g : BitVec 5} {n : Nat} {s u : State} {body : Path → Lanes → Res} {cause : Nat} {lanes : Lanes}
    {own : List (Nat × Nat)} {addr : Nat} (hd : Due s) (hn : n ≤ 8 * s.wave.gran)
    (hb : body (curPath s.wave) (execLanes s g) = .fault u cause lanes own addr) (hc : u.cur = s.cur) (hr : u.wave.status = .running) :
    ∃ t, runInstr i g none n s body = .next t ∧ Raised u t cause lanes := by
  refine ⟨_, ?_, commit_fault i s u cause lanes own addr hc hr⟩
  unfold runInstr; dsimp only
  rw [show (curPath s.wave).on = true from hd, if_neg (by decide), if_neg (by omega), ← hb]; rfl

/-- An encoding cause is raised for the active lanes, whatever the guard holds. -/
theorem runInstr_pre {i : Instr} {g : BitVec 5} {c n : Nat} {s : State} {body : Path → Lanes → Res} (hi : Issuing s) :
    ∃ t, runInstr i g (some c) n s body = .next t ∧ Raised s t c (activeLanes s.wave (curPath s.wave)) := by
  refine ⟨_, ?_, commit_fault i s s c (activeLanes s.wave (curPath s.wave)) [] 0 rfl hi.1⟩
  unfold runInstr; dsimp only
  rw [show (curPath s.wave).on = true from hi.2, if_neg (by decide)]

end Sys2Proof.Machine
end

