-- ==== Sys2Proof/Laws/PerInstr.lean ====
section
/-! SUPPORT. Per-instruction statements: the encoder's words of a well-formed instruction decode to it. -/

namespace Sys2Proof.Laws

open Sys2Proof

/-! ### The decoder on the words of each form, any cell -/

theorem decode_a32 {op : BitVec 7} {mk : F32A → Instr} (hc : cell32 op.toNat = .a32 mk) (f : F32A) (rest : List Word)
    (h : (mk f).wf = true) : decode (encA op f ++ rest) = .ok (mk f, rest) := by
  simp only [decode, parse, encA, unitLength, encP0_len, encP0_op, hc, List.cons_append, List.nil_append, parseA_enc]
  simp [fieldsAccepted, h]

theorem decode_i32 {op : BitVec 7} {mk : F32I → Instr} (hc : cell32 op.toNat = .i32 mk) (f : F32I) (rest : List Word)
    (h : (mk f).wf = true) : decode (encI op f ++ rest) = .ok (mk f, rest) := by
  simp only [decode, parse, encI, unitLength, encI_len, encI_op, hc, List.cons_append, List.nil_append, parseI_enc]
  simp [fieldsAccepted, h]

theorem decode_j32 {op : BitVec 7} {mk : F32J → Instr} (hc : cell32 op.toNat = .j32 mk) (f : F32J) (rest : List Word)
    (h : (mk f).wf = true) : decode (encJ op f ++ rest) = .ok (mk f, rest) := by
  simp only [decode, parse, encJ, unitLength, encJ_len, encJ_op, hc, List.cons_append, List.nil_append, parseJ_enc]
  simp [fieldsAccepted, h]

theorem decode_z32 {op : BitVec 7} {mk : F32Z → Instr} (hc : cell32 op.toNat = .z32 mk) (f : F32Z) (rest : List Word)
    (h : (mk f).wf = true) : decode (encZ op f ++ rest) = .ok (mk f, rest) := by
  simp only [decode, parse, encZ, unitLength, encJ_len, encJ_op, hc, List.cons_append, List.nil_append, parseZ_enc]
  simp [fieldsAccepted, h]

theorem decode_r64 {op : BitVec 7} {mk : F64R → Instr} (hc : cell64 op.toNat = .r64 mk) (f : F64R) (rest : List Word)
    (h : (mk f).wf = true) : decode (encR op f ++ rest) = .ok (mk f, rest) := by
  simp only [decode, parse, encR, unitLength, encP0_len, encP0_op, encP0_pb, hc, List.cons_append, List.nil_append,
    List.length_cons, List.getD_cons_zero, List.getD_cons_succ, parseR_enc]
  rw [if_neg (by simp)]
  simp [fieldsAccepted, h]

theorem decode_m64 {op : BitVec 7} {mk : F64M → Instr} (hc : cell64 op.toNat = .m64 mk) (f : F64M) (rest : List Word)
    (h : (mk f).wf = true) : decode (encM op f ++ rest) = .ok (mk f, rest) := by
  simp only [decode, parse, encM, unitLength, encP0_len, encP0_op, encP0_pb, hc, List.cons_append, List.nil_append,
    List.length_cons, List.getD_cons_zero, List.getD_cons_succ, parseM_enc]
  rw [if_neg (by simp)]
  simp [fieldsAccepted, h]

theorem decode_p64 {op : BitVec 7} {mk : F64P → Instr} (hc : cell64 op.toNat = .p64 mk) (f : F64P) (rest : List Word)
    (h : (mk f).wf = true) : decode (encP op f ++ rest) = .ok (mk f, rest) := by
  simp only [decode, parse, encP, unitLength, encP0_len, encP0_op, encP0_pb, hc, List.cons_append, List.nil_append,
    List.length_cons, List.getD_cons_zero, List.getD_cons_succ, parseR_enc]
  rw [if_neg (by simp)]
  simp [fieldsAccepted, h]

theorem decode_r96 {op : BitVec 7} {mk : F96R → Instr} (hc : cell96 op.toNat = .r96 mk) (f : F96R) (rest : List Word)
    (h : (mk f).wf = true) : decode (encR96 op f ++ rest) = .ok (mk f, rest) := by
  simp only [decode, parse, encR96, unitLength, encP0_len, encP0_op, encP0_pb, hc, List.cons_append, List.nil_append,
    List.length_cons, List.getD_cons_zero, List.getD_cons_succ, parseR_enc]
  rw [if_neg (by simp)]
  simp [fieldsAccepted, h]

theorem decode_m96 {op : BitVec 7} {mk : F96M → Instr} (hc : cell96 op.toNat = .m96 mk) (f : F96M) (rest : List Word)
    (h : (mk f).wf = true) : decode (encM96 op f ++ rest) = .ok (mk f, rest) := by
  simp only [decode, parse, encM96, unitLength, encP0_len, encP0_op, encP0_pb, hc, List.cons_append, List.nil_append,
    List.length_cons, List.getD_cons_zero, List.getD_cons_succ, parseM_enc]
  rw [if_neg (by simp)]
  simp [fieldsAccepted, h]

/-- The instruction of cell 0x74 for its operand block (R343). -/
def collCell (f : F64R) : Instr :=
  match fnBits f.fn 1 0 with | 1 => .collStop64 f | 2 => .collStatus64 f | _ => .collStart64 f

/-- An accepted F64R block meets its function-field check. -/
theorem wfR_fn {f : F64R} {d a b c : List OpKind} {r ok : Bool} (h : wfR f d a b c r ok = true) : ok = true := by
  simp only [wfR, Bool.and_eq_true] at h
  simp [h]

namespace RoundTrip

/-- A well-formed instruction of the program is what its encoding decodes to, whatever parcels follow. -/
def Statement (i : Instr) : Prop :=
  i.isIsa = true → i.wf = true → ∀ rest : List Word, decode (encode i ++ rest) = .ok (i, rest)

theorem mov32 (f) : Statement (.mov32 f) := fun _ h rest => decode_a32 rfl f rest h
theorem mov64 (f) : Statement (.mov64 f) := fun _ h rest => decode_r64 rfl f rest h
theorem movi32 (f) : Statement (.movi32 f) := fun _ h rest => decode_i32 rfl f rest h
theorem movi96 (f) : Statement (.movi96 f) := fun _ h rest => decode_r96 rfl f rest h
theorem sel64 (f) : Statement (.sel64 f) := fun _ h rest => decode_r64 rfl f rest h
theorem sel96 (f) : Statement (.sel96 f) := fun _ h rest => decode_r96 rfl f rest h
theorem lea64 (f) : Statement (.lea64 f) := fun _ h rest => decode_r64 rfl f rest h
theorem lea96 (f) : Statement (.lea96 f) := fun _ h rest => decode_r96 rfl f rest h
theorem isetp64 (f) : Statement (.isetp64 f) := fun _ h rest => decode_r64 rfl f rest h
theorem isetp96 (f) : Statement (.isetp96 f) := fun _ h rest => decode_r96 rfl f rest h
theorem fsetp64 (f) : Statement (.fsetp64 f) := fun _ h rest => decode_r64 rfl f rest h
theorem fsetp96 (f) : Statement (.fsetp96 f) := fun _ h rest => decode_r96 rfl f rest h
theorem bfe64 (f) : Statement (.bfe64 f) := fun _ h rest => decode_r64 rfl f rest h
theorem bfi64 (f) : Statement (.bfi64 f) := fun _ h rest => decode_r64 rfl f rest h
theorem iadd32 (f) : Statement (.iadd32 f) := fun _ h rest => decode_a32 rfl f rest h
theorem iadd32i (f) : Statement (.iadd32i f) := fun _ h rest => decode_i32 rfl f rest h
theorem iadd64 (f) : Statement (.iadd64 f) := fun _ h rest => decode_r64 rfl f rest h
theorem iadd96 (f) : Statement (.iadd96 f) := fun _ h rest => decode_r96 rfl f rest h
theorem isub32 (f) : Statement (.isub32 f) := fun _ h rest => decode_a32 rfl f rest h
theorem isub64 (f) : Statement (.isub64 f) := fun _ h rest => decode_r64 rfl f rest h
theorem imul32 (f) : Statement (.imul32 f) := fun _ h rest => decode_a32 rfl f rest h
theorem imul32i (f) : Statement (.imul32i f) := fun _ h rest => decode_i32 rfl f rest h
theorem imul64 (f) : Statement (.imul64 f) := fun _ h rest => decode_r64 rfl f rest h
theorem imul96 (f) : Statement (.imul96 f) := fun _ h rest => decode_r96 rfl f rest h
theorem imad64 (f) : Statement (.imad64 f) := fun _ h rest => decode_r64 rfl f rest h
theorem imad96 (f) : Statement (.imad96 f) := fun _ h rest => decode_r96 rfl f rest h
theorem imulh64 (f) : Statement (.imulh64 f) := fun _ h rest => decode_r64 rfl f rest h
theorem idiv64 (f) : Statement (.idiv64 f) := fun _ h rest => decode_r64 rfl f rest h
theorem irem64 (f) : Statement (.irem64 f) := fun _ h rest => decode_r64 rfl f rest h
theorem iabs32 (f) : Statement (.iabs32 f) := fun _ h rest => decode_a32 rfl f rest h
theorem iabs64 (f) : Statement (.iabs64 f) := fun _ h rest => decode_r64 rfl f rest h
theorem imin32 (f) : Statement (.imin32 f) := fun _ h rest => decode_a32 rfl f rest h
theorem imin64 (f) : Statement (.imin64 f) := fun _ h rest => decode_r64 rfl f rest h
theorem imax32 (f) : Statement (.imax32 f) := fun _ h rest => decode_a32 rfl f rest h
theorem imax64 (f) : Statement (.imax64 f) := fun _ h rest => decode_r64 rfl f rest h
theorem shl32 (f) : Statement (.shl32 f) := fun _ h rest => decode_a32 rfl f rest h
theorem shl32i (f) : Statement (.shl32i f) := fun _ h rest => decode_i32 rfl f rest h
theorem shl64 (f) : Statement (.shl64 f) := fun _ h rest => decode_r64 rfl f rest h
theorem shr32 (f) : Statement (.shr32 f) := fun _ h rest => decode_a32 rfl f rest h
theorem shr32i (f) : Statement (.shr32i f) := fun _ h rest => decode_i32 rfl f rest h
theorem shr64 (f) : Statement (.shr64 f) := fun _ h rest => decode_r64 rfl f rest h
theorem sar32 (f) : Statement (.sar32 f) := fun _ h rest => decode_a32 rfl f rest h
theorem sar32i (f) : Statement (.sar32i f) := fun _ h rest => decode_i32 rfl f rest h
theorem sar64 (f) : Statement (.sar64 f) := fun _ h rest => decode_r64 rfl f rest h
theorem rot32 (f) : Statement (.rot32 f) := fun _ h rest => decode_a32 rfl f rest h
theorem rot32i (f) : Statement (.rot32i f) := fun _ h rest => decode_i32 rfl f rest h
theorem rot64 (f) : Statement (.rot64 f) := fun _ h rest => decode_r64 rfl f rest h
theorem popc32 (f) : Statement (.popc32 f) := fun _ h rest => decode_a32 rfl f rest h
theorem popc64 (f) : Statement (.popc64 f) := fun _ h rest => decode_r64 rfl f rest h
theorem clz32 (f) : Statement (.clz32 f) := fun _ h rest => decode_a32 rfl f rest h
theorem clz64 (f) : Statement (.clz64 f) := fun _ h rest => decode_r64 rfl f rest h
theorem and32 (f) : Statement (.and32 f) := fun _ h rest => decode_a32 rfl f rest h
theorem and32i (f) : Statement (.and32i f) := fun _ h rest => decode_i32 rfl f rest h
theorem and64 (f) : Statement (.and64 f) := fun _ h rest => decode_r64 rfl f rest h
theorem and96 (f) : Statement (.and96 f) := fun _ h rest => decode_r96 rfl f rest h
theorem or32 (f) : Statement (.or32 f) := fun _ h rest => decode_a32 rfl f rest h
theorem or32i (f) : Statement (.or32i f) := fun _ h rest => decode_i32 rfl f rest h
theorem or64 (f) : Statement (.or64 f) := fun _ h rest => decode_r64 rfl f rest h
theorem or96 (f) : Statement (.or96 f) := fun _ h rest => decode_r96 rfl f rest h
theorem xor32 (f) : Statement (.xor32 f) := fun _ h rest => decode_a32 rfl f rest h
theorem xor32i (f) : Statement (.xor32i f) := fun _ h rest => decode_i32 rfl f rest h
theorem xor64 (f) : Statement (.xor64 f) := fun _ h rest => decode_r64 rfl f rest h
theorem xor96 (f) : Statement (.xor96 f) := fun _ h rest => decode_r96 rfl f rest h
theorem not32 (f) : Statement (.not32 f) := fun _ h rest => decode_a32 rfl f rest h
theorem not64 (f) : Statement (.not64 f) := fun _ h rest => decode_r64 rfl f rest h
theorem brev32 (f) : Statement (.brev32 f) := fun _ h rest => decode_a32 rfl f rest h
theorem brev64 (f) : Statement (.brev64 f) := fun _ h rest => decode_r64 rfl f rest h
theorem fadd32 (f) : Statement (.fadd32 f) := fun _ h rest => decode_a32 rfl f rest h
theorem fadd64 (f) : Statement (.fadd64 f) := fun _ h rest => decode_r64 rfl f rest h
theorem fadd96 (f) : Statement (.fadd96 f) := fun _ h rest => decode_r96 rfl f rest h
theorem fmul32 (f) : Statement (.fmul32 f) := fun _ h rest => decode_a32 rfl f rest h
theorem fmul64 (f) : Statement (.fmul64 f) := fun _ h rest => decode_r64 rfl f rest h
theorem fmul96 (f) : Statement (.fmul96 f) := fun _ h rest => decode_r96 rfl f rest h
theorem ffma64 (f) : Statement (.ffma64 f) := fun _ h rest => decode_r64 rfl f rest h
theorem ffma96 (f) : Statement (.ffma96 f) := fun _ h rest => decode_r96 rfl f rest h
theorem fmin32 (f) : Statement (.fmin32 f) := fun _ h rest => decode_a32 rfl f rest h
theorem fmin64 (f) : Statement (.fmin64 f) := fun _ h rest => decode_r64 rfl f rest h
theorem fmin96 (f) : Statement (.fmin96 f) := fun _ h rest => decode_r96 rfl f rest h
theorem fmax32 (f) : Statement (.fmax32 f) := fun _ h rest => decode_a32 rfl f rest h
theorem fmax64 (f) : Statement (.fmax64 f) := fun _ h rest => decode_r64 rfl f rest h
theorem fmax96 (f) : Statement (.fmax96 f) := fun _ h rest => decode_r96 rfl f rest h
theorem frnd64 (f) : Statement (.frnd64 f) := fun _ h rest => decode_r64 rfl f rest h
theorem hfma264 (f) : Statement (.hfma264 f) := fun _ h rest => decode_r64 rfl f rest h
theorem hfma296 (f) : Statement (.hfma296 f) := fun _ h rest => decode_r96 rfl f rest h
theorem cvt64 (f) : Statement (.cvt64 f) := fun _ h rest => decode_r64 rfl f rest h
theorem frcp64 (f) : Statement (.frcp64 f) := fun _ h rest => decode_r64 rfl f rest h
theorem fsqrt64 (f) : Statement (.fsqrt64 f) := fun _ h rest => decode_r64 rfl f rest h
theorem frsq64 (f) : Statement (.frsq64 f) := fun _ h rest => decode_r64 rfl f rest h
theorem fexp264 (f) : Statement (.fexp264 f) := fun _ h rest => decode_r64 rfl f rest h
theorem flog264 (f) : Statement (.flog264 f) := fun _ h rest => decode_r64 rfl f rest h
theorem fsinpi64 (f) : Statement (.fsinpi64 f) := fun _ h rest => decode_r64 rfl f rest h
theorem fcospi64 (f) : Statement (.fcospi64 f) := fun _ h rest => decode_r64 rfl f rest h
theorem ftanh64 (f) : Statement (.ftanh64 f) := fun _ h rest => decode_r64 rfl f rest h
theorem quant64 (f) : Statement (.quant64 f) := fun _ h rest => decode_r64 rfl f rest h
theorem deq64 (f) : Statement (.deq64 f) := fun _ h rest => decode_r64 rfl f rest h
theorem requant64 (f) : Statement (.requant64 f) := fun _ h rest => decode_r64 rfl f rest h
theorem cvt864 (f) : Statement (.cvt864 f) := fun _ h rest => decode_r64 rfl f rest h
theorem scale64 (f) : Statement (.scale64 f) := fun _ h rest => decode_r64 rfl f rest h
theorem grow32 (f) : Statement (.grow32 f) := fun _ h rest => decode_i32 rfl f rest h
theorem grow64 (f) : Statement (.grow64 f) := fun _ h rest => decode_r64 rfl f rest h
theorem shrink32 (f) : Statement (.shrink32 f) := fun _ h rest => decode_i32 rfl f rest h
theorem shrink64 (f) : Statement (.shrink64 f) := fun _ h rest => decode_r64 rfl f rest h
theorem laneid32 (f) : Statement (.laneid32 f) := fun _ h rest => decode_a32 rfl f rest h
theorem part32 (f) : Statement (.part32 f) := fun _ h rest => decode_i32 rfl f rest h
theorem part64 (f) : Statement (.part64 f) := fun _ h rest => decode_r64 rfl f rest h
theorem pand32 (f) : Statement (.pand32 f) := fun _ h rest => decode_a32 rfl f rest h
theorem pand64 (f) : Statement (.pand64 f) := fun _ h rest => decode_r64 rfl f rest h
theorem por32 (f) : Statement (.por32 f) := fun _ h rest => decode_a32 rfl f rest h
theorem por64 (f) : Statement (.por64 f) := fun _ h rest => decode_r64 rfl f rest h
theorem pxor32 (f) : Statement (.pxor32 f) := fun _ h rest => decode_a32 rfl f rest h
theorem pxor64 (f) : Statement (.pxor64 f) := fun _ h rest => decode_r64 rfl f rest h
theorem pnot32 (f) : Statement (.pnot32 f) := fun _ h rest => decode_a32 rfl f rest h
theorem pnot64 (f) : Statement (.pnot64 f) := fun _ h rest => decode_r64 rfl f rest h
theorem join32 (f) : Statement (.join32 f) := fun _ h rest => decode_a32 rfl f rest h
theorem join64 (f) : Statement (.join64 f) := fun _ h rest => decode_r64 rfl f rest h
theorem leave32 (f) : Statement (.leave32 f) := fun _ h rest => decode_a32 rfl f rest h
theorem leave64 (f) : Statement (.leave64 f) := fun _ h rest => decode_r64 rfl f rest h
theorem waitm32 (f) : Statement (.waitm32 f) := fun _ h rest => decode_a32 rfl f rest h
theorem waitm64 (f) : Statement (.waitm64 f) := fun _ h rest => decode_r64 rfl f rest h
theorem bra32 (f) : Statement (.bra32 f) := fun _ h rest => decode_j32 rfl f rest h
theorem bra96 (f) : Statement (.bra96 f) := fun _ h rest => decode_r96 rfl f rest h
theorem call32 (f) : Statement (.call32 f) := fun _ h rest => decode_j32 rfl f rest h
theorem call96 (f) : Statement (.call96 f) := fun _ h rest => decode_r96 rfl f rest h
theorem shfl64 (f) : Statement (.shfl64 f) := fun _ h rest => decode_r64 rfl f rest h
theorem push64 (f) : Statement (.push64 f) := fun _ h rest => decode_r64 rfl f rest h
theorem vote64 (f) : Statement (.vote64 f) := fun _ h rest => decode_r64 rfl f rest h
theorem reduce64 (f) : Statement (.reduce64 f) := fun _ h rest => decode_r64 rfl f rest h
theorem scan64 (f) : Statement (.scan64 f) := fun _ h rest => decode_r64 rfl f rest h
theorem brx64 (f) : Statement (.brx64 f) := fun _ h rest => decode_r64 rfl f rest h
theorem nop32 (f) : Statement (.nop32 f) := fun _ h rest => decode_z32 rfl f rest h
theorem ret32 (f) : Statement (.ret32 f) := fun _ h rest => decode_z32 rfl f rest h
theorem tret32 (f) : Statement (.tret32 f) := fun _ h rest => decode_z32 rfl f rest h
theorem bkpt32 (f) : Statement (.bkpt32 f) := fun _ h rest => decode_z32 rfl f rest h
theorem trap32 (f) : Statement (.trap32 f) := fun _ h rest => decode_z32 rfl f rest h
theorem exit32 (f) : Statement (.exit32 f) := fun _ h rest => decode_z32 rfl f rest h
theorem ld64 (f) : Statement (.ld64 f) := fun _ h rest => decode_m64 rfl f rest h
theorem ld96 (f) : Statement (.ld96 f) := fun _ h rest => decode_m96 rfl f rest h
theorem st64 (f) : Statement (.st64 f) := fun _ h rest => decode_m64 rfl f rest h
theorem st96 (f) : Statement (.st96 f) := fun _ h rest => decode_m96 rfl f rest h
theorem atom64 (f) : Statement (.atom64 f) := fun _ h rest => decode_m64 rfl f rest h
theorem atom96 (f) : Statement (.atom96 f) := fun _ h rest => decode_m96 rfl f rest h
theorem red64 (f) : Statement (.red64 f) := fun _ h rest => decode_m64 rfl f rest h
theorem red96 (f) : Statement (.red96 f) := fun _ h rest => decode_m96 rfl f rest h
theorem waita64 (f) : Statement (.waita64 f) := fun _ h rest => decode_m64 rfl f rest h
theorem poll64 (f) : Statement (.poll64 f) := fun _ h rest => decode_m64 rfl f rest h
theorem pref64 (f) : Statement (.pref64 f) := fun _ h rest => decode_m64 rfl f rest h
theorem pref96 (f) : Statement (.pref96 f) := fun _ h rest => decode_m96 rfl f rest h
theorem cwb64 (f) : Statement (.cwb64 f) := fun _ h rest => decode_m64 rfl f rest h
theorem cinv64 (f) : Statement (.cinv64 f) := fun _ h rest => decode_m64 rfl f rest h
theorem devl64 (f) : Statement (.devl64 f) := fun _ h rest => decode_m64 rfl f rest h
theorem rput64 (f) : Statement (.rput64 f) := fun _ h rest => decode_m64 rfl f rest h
theorem rput96 (f) : Statement (.rput96 f) := fun _ h rest => decode_m96 rfl f rest h
theorem rget64 (f) : Statement (.rget64 f) := fun _ h rest => decode_m64 rfl f rest h
theorem rget96 (f) : Statement (.rget96 f) := fun _ h rest => decode_m96 rfl f rest h
theorem ratom64 (f) : Statement (.ratom64 f) := fun _ h rest => decode_m64 rfl f rest h
theorem ratom96 (f) : Statement (.ratom96 f) := fun _ h rest => decode_m96 rfl f rest h
theorem ord64 (f) : Statement (.ord64 f) := fun _ h rest => decode_r64 rfl f rest h
theorem rel64 (f) : Statement (.rel64 f) := fun _ h rest => decode_r64 rfl f rest h
theorem acq64 (f) : Statement (.acq64 f) := fun _ h rest => decode_r64 rfl f rest h
theorem fence32 (f) : Statement (.fence32 f) := fun _ h rest => decode_z32 rfl f rest h
theorem fence64 (f) : Statement (.fence64 f) := fun _ h rest => decode_r64 rfl f rest h
theorem wait64 (f) : Statement (.wait64 f) := fun _ h rest => decode_r64 rfl f rest h
theorem bari64 (f) : Statement (.bari64 f) := fun _ h rest => decode_r64 rfl f rest h
theorem waitb64 (f) : Statement (.waitb64 f) := fun _ h rest => by
  have hk : ¬ fnBits f.fn 5 4 = 2 := fun hk => by simp [Instr.wf, wfBar, hk] at h
  have hm : (if fnBits f.fn 5 4 == 2 then Instr.waitbTag64 f else Instr.waitb64 f) = .waitb64 f := by simp [hk]
  have := decode_r64 (op := 86) (mk := fun f => if fnBits f.fn 5 4 == 2 then .waitbTag64 f else .waitb64 f) rfl f rest
    (by simpa only [hm] using h)
  rw [hm] at this
  exact this
theorem waitbTag64 (f) : Statement (.waitbTag64 f) := fun _ h rest => by
  have hf : f.fn = 32 := by
    have := wfR_fn h
    simpa using this
  have hm : (if fnBits f.fn 5 4 == 2 then Instr.waitbTag64 f else Instr.waitb64 f) = .waitbTag64 f := by
    rw [hf]; rfl
  have := decode_r64 (op := 86) (mk := fun f => if fnBits f.fn 5 4 == 2 then .waitbTag64 f else .waitb64 f) rfl f rest
    (by simpa only [hm] using h)
  rw [hm] at this
  exact this
theorem bart64 (f) : Statement (.bart64 f) := fun _ h rest => decode_r64 rfl f rest h
theorem badd64 (f) : Statement (.badd64 f) := fun _ h rest => decode_r64 rfl f rest h
theorem csrr32 (f) : Statement (.csrr32 f) := fun _ h rest => decode_i32 rfl f rest h
theorem csrr64 (f) : Statement (.csrr64 f) := fun _ h rest => decode_r64 rfl f rest h
theorem csrw32 (f) : Statement (.csrw32 f) := fun _ h rest => decode_i32 rfl f rest h
theorem csrw64 (f) : Statement (.csrw64 f) := fun _ h rest => decode_r64 rfl f rest h
theorem vacate64 (f) : Statement (.vacate64 f) := fun _ h rest => decode_r64 rfl f rest h
theorem freeze64 (f) : Statement (.freeze64 f) := fun _ h rest => decode_r64 rfl f rest h
theorem thaw64 (f) : Statement (.thaw64 f) := fun _ h rest => decode_r64 rfl f rest h
theorem rsv64 (f) : Statement (.rsv64 f) := fun _ h rest => decode_p64 rfl f rest h
theorem rls64 (f) : Statement (.rls64 f) := fun _ h rest => decode_r64 rfl f rest h
theorem cvdecl64 (f) : Statement (.cvdecl64 f) := fun _ h rest => decode_r64 rfl f rest h
theorem sign32 (f) : Statement (.sign32 f) := fun _ h rest => decode_a32 rfl f rest h
theorem sign64 (f) : Statement (.sign64 f) := fun _ h rest => decode_r64 rfl f rest h
theorem mma64 (f) : Statement (.mma64 f) := fun _ h rest => decode_r64 rfl f rest h
theorem mdrain64 (f) : Statement (.mdrain64 f) := fun _ h rest => decode_p64 rfl f rest h
theorem mbyp64 (f) : Statement (.mbyp64 f) := fun _ h rest => decode_r64 rfl f rest h
theorem rstat64 (f) : Statement (.rstat64 f) := fun _ h rest => decode_r64 rfl f rest h
theorem lstream64 (f) : Statement (.lstream64 f) := fun _ h rest => decode_p64 rfl f rest h
theorem lsmerge64 (f) : Statement (.lsmerge64 f) := fun _ h rest => decode_r64 rfl f rest h
theorem lsgrad64 (f) : Statement (.lsgrad64 f) := fun _ h rest => decode_p64 rfl f rest h
theorem cpy64 (f) : Statement (.cpy64 f) := fun _ h rest => decode_p64 rfl f rest h
theorem plane64 (f) : Statement (.plane64 f) := fun _ h rest => decode_p64 rfl f rest h
theorem gather64 (f) : Statement (.gather64 f) := fun _ h rest => decode_p64 rfl f rest h
theorem pool64 (f) : Statement (.pool64 f) := fun _ h rest => decode_p64 rfl f rest h
theorem collStart64 (f) : Statement (.collStart64 f) := fun _ h rest => by
  have hf : f.fn = 0 := by
    have := wfR_fn (Bool.and_eq_true _ _ ▸ (Bool.and_eq_true _ _ ▸ h).1).1
    simpa using this
  have hm : collCell f = .collStart64 f := by
    simp only [collCell, hf]; rfl
  have := decode_r64 (op := 116) (mk := collCell) rfl f rest (by simpa only [hm] using h)
  rw [hm] at this
  exact this
theorem collStop64 (f) : Statement (.collStop64 f) := fun _ h rest => by
  have hf : f.fn = 1 := by
    have := wfR_fn h
    simpa using this
  have hm : collCell f = .collStop64 f := by
    simp only [collCell, hf]; rfl
  have := decode_r64 (op := 116) (mk := collCell) rfl f rest (by simpa only [hm] using h)
  rw [hm] at this
  exact this
theorem collStatus64 (f) : Statement (.collStatus64 f) := fun _ h rest => by
  have hf : f.fn = 2 := by
    have := wfR_fn h
    simpa using this
  have hm : collCell f = .collStatus64 f := by
    simp only [collCell, hf]; rfl
  have := decode_r64 (op := 116) (mk := collCell) rfl f rest (by simpa only [hm] using h)
  rw [hm] at this
  exact this
theorem spawn64 (f) : Statement (.spawn64 f) := fun _ h rest => decode_r64 rfl f rest h
theorem tdone64 (f) : Statement (.tdone64 f) := fun _ h rest => decode_r64 rfl f rest h
theorem phase32 (f) : Statement (.phase32 f) := fun _ h rest => decode_z32 rfl f rest h
theorem phase64 (f) : Statement (.phase64 f) := fun _ h rest => decode_r64 rfl f rest h
theorem issueArbitration (x0) : Statement (.issueArbitration x0) := fun h => by cases h
theorem progressOverride (x0) : Statement (.progressOverride x0) := fun h => by cases h
theorem continuationReady (x0 x1) : Statement (.continuationReady x0 x1) := fun h => by cases h
theorem deferredFaultFound (x0) : Statement (.deferredFaultFound x0) := fun h => by cases h
theorem trapDelivery (x0) : Statement (.trapDelivery x0) := fun h => by cases h
theorem loadDataReturn (x0) : Statement (.loadDataReturn x0) := fun h => by cases h
theorem storePerformed (x0) : Statement (.storePerformed x0) := fun h => by cases h
theorem atomResultReturn (x0) : Statement (.atomResultReturn x0) := fun h => by cases h
theorem pageWalkComplete (x0) : Statement (.pageWalkComplete x0) := fun h => by cases h
theorem activeMessage (x0) : Statement (.activeMessage x0) := fun h => by cases h
theorem otherDieRead (x0 x1) : Statement (.otherDieRead x0 x1) := fun h => by cases h
theorem otherDieWrite (x0 x1) : Statement (.otherDieWrite x0 x1) := fun h => by cases h
theorem l2Eviction (x0 x1 x2) : Statement (.l2Eviction x0 x1 x2) := fun h => by cases h
theorem backInvalidation (x0 x1) : Statement (.backInvalidation x0 x1) := fun h => by cases h
theorem backInvalidationAnswer (x0 x1) : Statement (.backInvalidationAnswer x0 x1) := fun h => by cases h
theorem bisnp (x0 x1) : Statement (.bisnp x0 x1) := fun h => by cases h
theorem regionModeSwitch (x0 x1 x2) : Statement (.regionModeSwitch x0 x1 x2) := fun h => by cases h
theorem fenceComplete (x0) : Statement (.fenceComplete x0) := fun h => by cases h
theorem devlPerformed (x0) : Statement (.devlPerformed x0) := fun h => by cases h
theorem waitaWake (x0 x1) : Statement (.waitaWake x0 x1) := fun h => by cases h
theorem waitaTimeout (x0 x1) : Statement (.waitaTimeout x0 x1) := fun h => by cases h
theorem waitaReread (x0 x1) : Statement (.waitaReread x0 x1) := fun h => by cases h
theorem uncorrectableError (x0 x1) : Statement (.uncorrectableError x0 x1) := fun h => by cases h
theorem correctedError (x0 x1 x2) : Statement (.correctedError x0 x1 x2) := fun h => by cases h
theorem allocatorPass (x0) : Statement (.allocatorPass x0) := fun h => by cases h
theorem growSpill (x0) : Statement (.growSpill x0) := fun h => by cases h
theorem spillRestore (x0 x1) : Statement (.spillRestore x0 x1) := fun h => by cases h
theorem waveSlotRelease (x0) : Statement (.waveSlotRelease x0) := fun h => by cases h
theorem engineEntryPush (x0) : Statement (.engineEntryPush x0) := fun h => by cases h
theorem copyCommandStart (x0 x1) : Statement (.copyCommandStart x0 x1) := fun h => by cases h
theorem copyFlitDelivery (x0 x1) : Statement (.copyFlitDelivery x0 x1) := fun h => by cases h
theorem copyBlockVerified (x0 x1) : Statement (.copyBlockVerified x0 x1) := fun h => by cases h
theorem chanTagFail (x0 x1) : Statement (.chanTagFail x0 x1) := fun h => by cases h
theorem copyBlockRefetch (x0 x1) : Statement (.copyBlockRefetch x0 x1) := fun h => by cases h
theorem copyComplete (x0 x1) : Statement (.copyComplete x0 x1) := fun h => by cases h
theorem gatherPoolComplete (x0 x1) : Statement (.gatherPoolComplete x0 x1) := fun h => by cases h
theorem matrixOpComplete (x0) : Statement (.matrixOpComplete x0) := fun h => by cases h
theorem launch (x0) : Statement (.launch x0) := fun h => by cases h
theorem tasks (x0) : Statement (.tasks x0) := fun h => by cases h
theorem nodes (x0) : Statement (.nodes x0) := fun h => by cases h
theorem event (x0) : Statement (.event x0) := fun h => by cases h
theorem waitv (x0) : Statement (.waitv x0) := fun h => by cases h
theorem eventWrite (x0) : Statement (.eventWrite x0) := fun h => by cases h
theorem waitvSatisfied (x0) : Statement (.waitvSatisfied x0) := fun h => by cases h
theorem ringRestart (x0 x1) : Statement (.ringRestart x0 x1) := fun h => by cases h
theorem crewPlacement (x0) : Statement (.crewPlacement x0) := fun h => by cases h
theorem taskCompletionApply (x0) : Statement (.taskCompletionApply x0) := fun h => by cases h
theorem taskLaunchFetch (x0) : Statement (.taskLaunchFetch x0) := fun h => by cases h
theorem batchTimerExpiry (x0 x1) : Statement (.batchTimerExpiry x0 x1) := fun h => by cases h
theorem batchLaunch (x0) : Statement (.batchLaunch x0) := fun h => by cases h
theorem send (x0) : Statement (.send x0) := fun h => by cases h
theorem recv (x0) : Statement (.recv x0) := fun h => by cases h
theorem rscat (x0) : Statement (.rscat x0) := fun h => by cases h
theorem agath (x0) : Statement (.agath x0) := fun h => by cases h
theorem mcast (x0) : Statement (.mcast x0) := fun h => by cases h
theorem signal (x0) : Statement (.signal x0) := fun h => by cases h
theorem loop (x0) : Statement (.loop x0) := fun h => by cases h
theorem halt (x0) : Statement (.halt x0) := fun h => by cases h
theorem collBadCommand (x0) : Statement (.collBadCommand x0) := fun h => by cases h
theorem collReservedCommand (x0) : Statement (.collReservedCommand x0) := fun h => by cases h
theorem wordComplete (x0) : Statement (.wordComplete x0) := fun h => by cases h
theorem collTimeout (x0) : Statement (.collTimeout x0) := fun h => by cases h
theorem abortPacket (x0) : Statement (.abortPacket x0) := fun h => by cases h
theorem freezeNotice (x0) : Statement (.freezeNotice x0) := fun h => by cases h
theorem thawNotice (x0) : Statement (.thawNotice x0) := fun h => by cases h
theorem fwd (x0) : Statement (.fwd x0) := fun h => by cases h
theorem addF32 (x0) : Statement (.addF32 x0) := fun h => by cases h
theorem addBf16 (x0) : Statement (.addBf16 x0) := fun h => by cases h
theorem routeMcast (x0) : Statement (.routeMcast x0) := fun h => by cases h
theorem deliver (x0) : Statement (.deliver x0) := fun h => by cases h
theorem routeSignal (x0) : Statement (.routeSignal x0) := fun h => by cases h
theorem routeErrorNotice (x0) : Statement (.routeErrorNotice x0) := fun h => by cases h
theorem resendRequest (x0) : Statement (.resendRequest x0) := fun h => by cases h
theorem flitReceive (x0 x1) : Statement (.flitReceive x0 x1) := fun h => by cases h
theorem ack (x0) : Statement (.ack x0) := fun h => by cases h
theorem nak (x0) : Statement (.nak x0) := fun h => by cases h
theorem ackTimer (x0) : Statement (.ackTimer x0) := fun h => by cases h
theorem nakRepeatTimer (x0) : Statement (.nakRepeatTimer x0) := fun h => by cases h
theorem replayTimer (x0) : Statement (.replayTimer x0) := fun h => by cases h
theorem portDown (x0) : Statement (.portDown x0) := fun h => by cases h
theorem dropNotice (x0) : Statement (.dropNotice x0) := fun h => by cases h
theorem dropGatherTimer (x0) : Statement (.dropGatherTimer x0) := fun h => by cases h
theorem reservationRequest (x0 x1) : Statement (.reservationRequest x0 x1) := fun h => by cases h
theorem reservationGrant (x0) : Statement (.reservationGrant x0) := fun h => by cases h
theorem reservedWindowStart (x0) : Statement (.reservedWindowStart x0) := fun h => by cases h
theorem remoteAccessRequest (x0) : Statement (.remoteAccessRequest x0) := fun h => by cases h
theorem remoteAccessResponse (x0) : Statement (.remoteAccessResponse x0) := fun h => by cases h
theorem netRequest (x0) : Statement (.netRequest x0) := fun h => by cases h
theorem netResponse (x0 x1) : Statement (.netResponse x0 x1) := fun h => by cases h
theorem staleNotice (x0) : Statement (.staleNotice x0) := fun h => by cases h
theorem netRetryTimer (x0) : Statement (.netRetryTimer x0) := fun h => by cases h
theorem busyResendTimer (x0) : Statement (.busyResendTimer x0) := fun h => by cases h
theorem responseAck (x0) : Statement (.responseAck x0) := fun h => by cases h
theorem atomicCacheExpiry (x0 x1) : Statement (.atomicCacheExpiry x0 x1) := fun h => by cases h
theorem regionContextFill (x0 x1) : Statement (.regionContextFill x0 x1) := fun h => by cases h
theorem dcdExtentAdded (x0 x1 x2 x3) : Statement (.dcdExtentAdded x0 x1 x2 x3) := fun h => by cases h
theorem cxlResponseTimeout (x0) : Statement (.cxlResponseTimeout x0) := fun h => by cases h
theorem barrierCountingCycle (x0) : Statement (.barrierCountingCycle x0) := fun h => by cases h
theorem barrierAutoRecomplete (x0) : Statement (.barrierAutoRecomplete x0) := fun h => by cases h
theorem routeTagRelease (x0 x1) : Statement (.routeTagRelease x0 x1) := fun h => by cases h
theorem drainEngineTimeout (x0) : Statement (.drainEngineTimeout x0) := fun h => by cases h
theorem systemOpComplete (x0) : Statement (.systemOpComplete x0) := fun h => by cases h
theorem invalidate (x0 x1 x2) : Statement (.invalidate x0 x1 x2) := fun h => by cases h
theorem bmread (x0 x1 x2) : Statement (.bmread x0 x1 x2) := fun h => by cases h
theorem esload (x0 x1 x2) : Statement (.esload x0 x1 x2) := fun h => by cases h
theorem phaseset (x0 x1 x2) : Statement (.phaseset x0 x1 x2) := fun h => by cases h
theorem ringcfg (x0 x1 x2 x3 x4) : Statement (.ringcfg x0 x1 x2 x3 x4) := fun h => by cases h
theorem rdesc (x0 x1) : Statement (.rdesc x0 x1) := fun h => by cases h
theorem bufmap (x0 x1 x2) : Statement (.bufmap x0 x1 x2) := fun h => by cases h
theorem wavectlResume (x0 x1 x2) : Statement (.wavectlResume x0 x1 x2) := fun h => by cases h
theorem wavectlEnd (x0 x1 x2) : Statement (.wavectlEnd x0 x1 x2) := fun h => by cases h
theorem wavectlFrame (x0 x1 x2) : Statement (.wavectlFrame x0 x1 x2) := fun h => by cases h
theorem sysopVacate (x0 x1 x2) : Statement (.sysopVacate x0 x1 x2) := fun h => by cases h
theorem sysopFreeze (x0 x1 x2) : Statement (.sysopFreeze x0 x1 x2) := fun h => by cases h
theorem sysopThaw (x0 x1) : Statement (.sysopThaw x0 x1) := fun h => by cases h
theorem ctrread (x0 x1 x2 x3) : Statement (.ctrread x0 x1 x2 x3) := fun h => by cases h
theorem partset (x0 x1 x2) : Statement (.partset x0 x1 x2) := fun h => by cases h
theorem lctset (x0 x1 x2 x3) : Statement (.lctset x0 x1 x2 x3) := fun h => by cases h
theorem linkctlRetrain (x0 x1) : Statement (.linkctlRetrain x0 x1) := fun h => by cases h
theorem linkctlDisable (x0 x1) : Statement (.linkctlDisable x0 x1) := fun h => by cases h
theorem linkTrainingComplete (x0 x1) : Statement (.linkTrainingComplete x0 x1) := fun h => by cases h
theorem powercap (x0 x1) : Statement (.powercap x0 x1) := fun h => by cases h
theorem featlock (x0 x1 x2) : Statement (.featlock x0 x1 x2) := fun h => by cases h
theorem coldReset (x0 x1) : Statement (.coldReset x0 x1) := fun h => by cases h
theorem deviceReset (x0 x1) : Statement (.deviceReset x0 x1) := fun h => by cases h
theorem interfaceReset (x0) : Statement (.interfaceReset x0) := fun h => by cases h
theorem powerControlTick (x0 x1 x2 x3) : Statement (.powerControlTick x0 x1 x2 x3) := fun h => by cases h
theorem coreFailure (x0) : Statement (.coreFailure x0) := fun h => by cases h
theorem dcdExtentRelease (x0 x1 x2 x3) : Statement (.dcdExtentRelease x0 x1 x2 x3) := fun h => by cases h
theorem busyAnswer (x0) : Statement (.busyAnswer x0) := fun h => by cases h
theorem unknownOpcode (x0) : Statement (.unknownOpcode x0) := fun h => by cases h
theorem straddle (x0) : Statement (.straddle x0) := fun h => by cases h

end RoundTrip

end Sys2Proof.Laws
end

