-- ==== Sys2Proof/Laws/Units.lean ====
section
/-! SUPPORT. The units that the state keeps by number: what a read gives after an update, and that an update touches its own map alone; then the
commands of the host and what comes in at a hub. -/

namespace Sys2Proof.Machine

variable {α : Type} [DecidableEq α]

/-- Reading a map after one of its entries is changed. -/
theorem smGet_smMod (m : SMap α) (d : α) (k j : Nat) (f : α → α) : smGet (smMod m d k f) d j = if j = k then f (smGet m d k) else smGet m d j :=
  smGet_smSet ..

/-! ### Units by number -/

theorem getCrew_modCrew (s : State) (c j : Nat) (f : Crew → Crew) : getCrew (modCrew s c f) j = if j = c then f (getCrew s c) else getCrew s j :=
  smGet_smMod ..
theorem getCore_modCore (s : State) (c j : Nat) (f : Core → Core) : getCore (modCore s c f) j = if j = c then f (getCore s c) else getCore s j :=
  smGet_smMod ..
theorem getBar_modBar (s : State) (o j : Nat) (f : Barrier → Barrier) : getBar (modBar s o f) j = if j = o then f (getBar s o) else getBar s j :=
  smGet_smMod ..
theorem getCtx_modCtx (s : State) (n j : Nat) (f : Context → Context) : getCtx (modCtx s n f) j = if j = n then f (getCtx s n) else getCtx s j :=
  smGet_smMod ..
theorem getPort_modPort (s : State) (l j : Nat) (f : Port → Port) : getPort (modPort s l f) j = if j = l then f (getPort s l) else getPort s j :=
  smGet_smMod ..
theorem getPkg_modPkg (s : State) (p j : Nat) (f : Package → Package) : getPkg (modPkg s p f) j = if j = p then f (getPkg s p) else getPkg s j :=
  smGet_smMod ..
theorem getRing_modRing (s : State) (r j : Nat) (f : Ring → Ring) : getRing (modRing s r f) j = if j = r then f (getRing s r) else getRing s j :=
  smGet_smMod ..
theorem getUnit_modUnit (s : State) (d j : Nat) (f : TaskUnit → TaskUnit) : getUnit (modUnit s d f) j = if j = d then f (getUnit s d) else getUnit s j :=
  smGet_smMod ..
theorem getIface_modIface (s : State) (v j : Nat) (f : Iface → Iface) : getIface (modIface s v f) j = if j = v then f (getIface s v) else getIface s j :=
  smGet_smMod ..
theorem getQueue_modQueue (s : State) (k j : Nat) (f : CmdQueue → CmdQueue) :
    getQueue (modQueue s k f) j = if j = k then f (getQueue s k) else getQueue s j := smGet_smMod ..
theorem getPhase_setPhase (s : State) (d v j : Nat) : getPhase (setPhase s d v) j = if j = d then v % 65536 else getPhase s j := smGet_smSet ..

theorem getTag_modTag (s : State) (d n e m : Nat) (f : Tag → Tag) (hn : n < 8) (hm : m < 8) :
    getTag (modTag s d n f) e m = if e = d ∧ m = n then f (getTag s d n) else getTag s e m := by
  unfold getTag modTag
  rw [smGet_smMod]
  by_cases h : e = d ∧ m = n
  · rw [if_pos h, if_pos (by omega)]
  · rw [if_neg h, if_neg (by omega)]

theorem getTask_setTask (s : State) (d i x e j : Nat) (hi : i < 65536) (hj : j < 65536) :
    getTask (setTask s d i x) e j = if e = d ∧ j = i then x % 2 ^ 256 else getTask s e j := by
  unfold getTask setTask
  rw [smGet_smSet]
  by_cases h : e = d ∧ j = i
  · rw [if_pos h, if_pos (by omega)]; exact BitVec.toNat_ofNat ..
  · rw [if_neg h, if_neg (by omega)]

/-! An update touches its own map alone. -/

theorem modCrew_frame (s : State) (c : Nat) (f : Crew → Crew) : { modCrew s c f with crews := [] } = { s with crews := [] } := rfl
theorem modCore_frame (s : State) (c : Nat) (f : Core → Core) : { modCore s c f with cores := [] } = { s with cores := [] } := rfl
theorem modBar_frame (s : State) (o : Nat) (f : Barrier → Barrier) : { modBar s o f with bars := [] } = { s with bars := [] } := rfl
theorem modCtx_frame (s : State) (n : Nat) (f : Context → Context) : { modCtx s n f with ctxs := [] } = { s with ctxs := [] } := rfl
theorem modPort_frame (s : State) (l : Nat) (f : Port → Port) : { modPort s l f with ports := [] } = { s with ports := [] } := rfl
theorem modPkg_frame (s : State) (p : Nat) (f : Package → Package) : { modPkg s p f with pkgs := [] } = { s with pkgs := [] } := rfl
theorem modRing_frame (s : State) (r : Nat) (f : Ring → Ring) : { modRing s r f with rings := [] } = { s with rings := [] } := rfl
theorem modUnit_frame (s : State) (d : Nat) (f : TaskUnit → TaskUnit) : { modUnit s d f with taskUnits := [] } = { s with taskUnits := [] } := rfl
theorem modIface_frame (s : State) (v : Nat) (f : Iface → Iface) : { modIface s v f with ifaces := [] } = { s with ifaces := [] } := rfl
theorem modQueue_frame (s : State) (k : Nat) (f : CmdQueue → CmdQueue) : { modQueue s k f with cmdqs := [] } = { s with cmdqs := [] } := rfl
theorem modTag_frame (s : State) (d n : Nat) (f : Tag → Tag) : { modTag s d n f with tags := [] } = { s with tags := [] } := rfl
theorem setPkt_frame (s : State) (p : Packet) : { setPkt s p with packets := [] } = { s with packets := [] } := rfl
theorem delPkt_frame (s : State) (i : Nat) : { delPkt s i with packets := [] } = { s with packets := [] } := rfl
theorem setOp_frame (s : State) (o : Op) : { setOp s o with ops := [] } = { s with ops := [] } := rfl
theorem setReq_frame (s : State) (r : NetReq) : { setReq s r with netReqs := [] } = { s with netReqs := [] } := rfl
theorem delReq_frame (s : State) (i : Nat) : { delReq s i with netReqs := [] } = { s with netReqs := [] } := rfl

/-! Fields that an update leaves, for `simp`. -/

@[simp] theorem modCrew_same (s : State) (c : Nat) (f : Crew → Crew) : (modCrew s c f).cur = s.cur ∧ (modCrew s c f).wave = s.wave ∧ (modCrew s c f).waves = s.waves ∧ (modCrew s c f).mem = s.mem ∧
    (modCrew s c f).bench = s.bench ∧ (modCrew s c f).cache = s.cache ∧ (modCrew s c f).ops = s.ops ∧ (modCrew s c f).packets = s.packets := ⟨rfl, rfl, rfl, rfl, rfl, rfl, rfl, rfl⟩
@[simp] theorem modCore_same (s : State) (c : Nat) (f : Core → Core) : (modCore s c f).cur = s.cur ∧ (modCore s c f).wave = s.wave ∧ (modCore s c f).waves = s.waves ∧ (modCore s c f).mem = s.mem ∧
    (modCore s c f).bench = s.bench ∧ (modCore s c f).cache = s.cache ∧ (modCore s c f).ops = s.ops ∧ (modCore s c f).packets = s.packets := ⟨rfl, rfl, rfl, rfl, rfl, rfl, rfl, rfl⟩
@[simp] theorem modBar_same (s : State) (o : Nat) (f : Barrier → Barrier) : (modBar s o f).cur = s.cur ∧ (modBar s o f).wave = s.wave ∧ (modBar s o f).waves = s.waves ∧ (modBar s o f).mem = s.mem ∧
    (modBar s o f).bench = s.bench ∧ (modBar s o f).cache = s.cache ∧ (modBar s o f).ops = s.ops ∧ (modBar s o f).packets = s.packets := ⟨rfl, rfl, rfl, rfl, rfl, rfl, rfl, rfl⟩
@[simp] theorem modCtx_same (s : State) (n : Nat) (f : Context → Context) : (modCtx s n f).cur = s.cur ∧ (modCtx s n f).wave = s.wave ∧ (modCtx s n f).waves = s.waves ∧ (modCtx s n f).mem = s.mem ∧
    (modCtx s n f).bench = s.bench ∧ (modCtx s n f).cache = s.cache ∧ (modCtx s n f).ops = s.ops ∧ (modCtx s n f).packets = s.packets := ⟨rfl, rfl, rfl, rfl, rfl, rfl, rfl, rfl⟩
@[simp] theorem modPort_same (s : State) (l : Nat) (f : Port → Port) : (modPort s l f).cur = s.cur ∧ (modPort s l f).wave = s.wave ∧ (modPort s l f).waves = s.waves ∧ (modPort s l f).mem = s.mem ∧
    (modPort s l f).bench = s.bench ∧ (modPort s l f).cache = s.cache ∧ (modPort s l f).ops = s.ops ∧ (modPort s l f).packets = s.packets := ⟨rfl, rfl, rfl, rfl, rfl, rfl, rfl, rfl⟩
@[simp] theorem modPkg_same (s : State) (p : Nat) (f : Package → Package) : (modPkg s p f).cur = s.cur ∧ (modPkg s p f).wave = s.wave ∧ (modPkg s p f).waves = s.waves ∧ (modPkg s p f).mem = s.mem ∧
    (modPkg s p f).bench = s.bench ∧ (modPkg s p f).cache = s.cache ∧ (modPkg s p f).ops = s.ops ∧ (modPkg s p f).packets = s.packets := ⟨rfl, rfl, rfl, rfl, rfl, rfl, rfl, rfl⟩
@[simp] theorem modRing_same (s : State) (r : Nat) (f : Ring → Ring) : (modRing s r f).cur = s.cur ∧ (modRing s r f).wave = s.wave ∧ (modRing s r f).waves = s.waves ∧ (modRing s r f).mem = s.mem ∧
    (modRing s r f).bench = s.bench ∧ (modRing s r f).cache = s.cache ∧ (modRing s r f).ops = s.ops ∧ (modRing s r f).packets = s.packets := ⟨rfl, rfl, rfl, rfl, rfl, rfl, rfl, rfl⟩
@[simp] theorem modUnit_same (s : State) (d : Nat) (f : TaskUnit → TaskUnit) : (modUnit s d f).cur = s.cur ∧ (modUnit s d f).wave = s.wave ∧ (modUnit s d f).waves = s.waves ∧ (modUnit s d f).mem = s.mem ∧
    (modUnit s d f).bench = s.bench ∧ (modUnit s d f).cache = s.cache ∧ (modUnit s d f).ops = s.ops ∧ (modUnit s d f).packets = s.packets := ⟨rfl, rfl, rfl, rfl, rfl, rfl, rfl, rfl⟩
@[simp] theorem modIface_same (s : State) (v : Nat) (f : Iface → Iface) : (modIface s v f).cur = s.cur ∧ (modIface s v f).wave = s.wave ∧ (modIface s v f).waves = s.waves ∧ (modIface s v f).mem = s.mem ∧
    (modIface s v f).bench = s.bench ∧ (modIface s v f).cache = s.cache ∧ (modIface s v f).ops = s.ops ∧ (modIface s v f).packets = s.packets := ⟨rfl, rfl, rfl, rfl, rfl, rfl, rfl, rfl⟩
@[simp] theorem modQueue_same (s : State) (k : Nat) (f : CmdQueue → CmdQueue) : (modQueue s k f).cur = s.cur ∧ (modQueue s k f).wave = s.wave ∧ (modQueue s k f).waves = s.waves ∧ (modQueue s k f).mem = s.mem ∧
    (modQueue s k f).bench = s.bench ∧ (modQueue s k f).cache = s.cache ∧ (modQueue s k f).ops = s.ops ∧ (modQueue s k f).packets = s.packets := ⟨rfl, rfl, rfl, rfl, rfl, rfl, rfl, rfl⟩

/-! ### Packets, operations and requests by their numbers -/

/-- Putting an item in the place of those with its number. -/
theorem find_replace {β : Type} (key : β → Nat) (q : β) (n : Nat) : ∀ l : List β,
    (l.map (fun p => if key p == key q then q else p)).find? (fun p => key p == n) =
      if n = key q then (l.find? (fun p => key p == n)).map (fun _ => q) else l.find? (fun p => key p == n)
  | [] => by simp
  | p :: l => by
    have ih := find_replace key q n l
    by_cases h : key p = key q <;> by_cases e : n = key q <;> grind

theorem find_filter_ne {β : Type} (key : β → Nat) (n m : Nat) (l : List β) :
    (l.filter (fun p => key p != n)).find? (fun p => key p == m) = if m = n then none else l.find? (fun p => key p == m) := by
  induction l with
  | nil => simp
  | cons p l ih => grind

theorem getPkt_setPkt (s : State) (q : Packet) (n : Nat) :
    getPkt (setPkt s q) n = if n = q.id then (getPkt s n).map (fun _ => q) else getPkt s n := find_replace Packet.id q n s.packets
theorem getPkt_delPkt (s : State) (i n : Nat) : getPkt (delPkt s i) n = if n = i then none else getPkt s n := find_filter_ne Packet.id i n s.packets
theorem getOp_setOp (s : State) (o : Op) (n : Nat) : getOp (setOp s o) n = if n = o.id then (getOp s n).map (fun _ => o) else getOp s n :=
  find_replace Op.id o n s.ops
theorem getReq_setReq (s : State) (r : NetReq) (n : Nat) : getReq (setReq s r) n = if n = r.id then (getReq s n).map (fun _ => r) else getReq s n :=
  find_replace NetReq.id r n s.netReqs
theorem getReq_delReq (s : State) (i n : Nat) : getReq (delReq s i) n = if n = i then none else getReq s n := find_filter_ne NetReq.id i n s.netReqs

/-! ### What comes in at a hub (R330, R351) -/

/-- A packet that comes in is dropped by the three-quarters rule, waits for room, or lies at the hub behind those that came before. -/
theorem enterHub_cases {s t : State} {p : Packet} {die port : Nat} (h : enterHub s p die port = some t) :
    (p.drop = true ∧ 786432 < bulkBytes s die ∧ t = setPkt (bump s 7 die 1) { p with out := 0, hub := die, dropped := 1 }) ∨
    ((p.drop = true → bulkBytes s die ≤ 786432) ∧ (bulk p = true → bulkBytes s die + p.payload.length ≤ 1048576) ∧
      t = setPkt { s with nextId := s.nextId + 1 } { p with out := 0, hub := die, ingress := port, arr := s.nextId }) := by
  unfold enterHub at h
  split at h
  · rename_i c
    simp only [Bool.and_eq_true, decide_eq_true_eq] at c
    exact .inl ⟨c.1, c.2, (Option.some.inj h).symm⟩
  · rename_i c
    split at h
    · cases h
    · rename_i b
      simp only [Bool.and_eq_true, decide_eq_true_eq, not_and] at b c
      exact .inr ⟨fun e => Nat.le_of_not_lt (c e), fun e => Nat.le_of_not_lt (b e), (Option.some.inj h).symm⟩

/-! ### Commands of the host (R441) -/

/-- A completion record changes what its queue has written and the bytes at home, and nothing of the queues else. -/
theorem completionRecord_unset {s : State} {c : CmdHead} {status r : Nat} (h : queueSet (getQueue s (queueKey c)) = false) :
    completionRecord s c status r = s := by
  unfold completionRecord; simp [h]

/-- What a command of an interface's driver can do: nothing, where it is not taken; wait; end with a status; or run. -/
theorem vfCommand_cases (s : State) (c : CmdHead) (i : Instr) (wait bad : Bool) (run : State → Nat → State) : ∃ t, vfCommand s c i wait bad run = .next t ∧
    (t = s ∨ t = { s with notes := s.notes ++ [.abort c.pkg c.fn] } ∨ ∃ u, takeCmd s c i = some u ∧
      (t = holdCmd u c i ∨ t = refuse u c 1 ∨ t = refuse u c 3 ∨ t = run u (cmdVif c))) := by
  refine ⟨_, rfl, ?_⟩
  unfold reached
  cases takeCmd s c i with
  | none =>
    split
    · exact .inl rfl
    split
    · exact .inl rfl
    · exact .inr (.inl rfl)
  | some u =>
    split
    · exact .inl rfl
    split
    · refine .inr (.inr ⟨u, rfl, ?_⟩)
      dsimp only
      split
      · exact .inl rfl
      split
      · exact .inr (.inl rfl)
      split
      · exact .inr (.inr (.inl rfl))
      split
      · exact .inl rfl
      · exact .inr (.inr (.inr rfl))
    · exact .inr (.inl rfl)

/-- A waiting command is tried as the one that its queue holds, and leaves only where it does not wait again. -/
theorem heldCommand_some {s t : State} {k : Nat} (h : heldCommand s k = some t) : ∃ i rest u, (getQueue s k).held = i :: rest ∧
    exec i (modQueue s k (fun q => { q with held := [], again := true })) = .next u ∧ (getQueue u k).held = [] ∧
    t = modQueue u k (fun q => { q with held := rest, again := false }) := by
  unfold heldCommand at h
  split at h
  · cases h
  · rename_i i rest e
    split at h
    · rename_i u hu
      split at h
      · rename_i hl
        exact ⟨i, rest, u, e, hu, List.isEmpty_iff.1 hl, (Option.some.inj h).symm⟩
      · cases h
    · cases h

end Sys2Proof.Machine
end

