-- ==== Sys2Proof/Tests/Slice0.lean ====
section
/-! SUPPORT. The model's own tests: terms that the well-formedness checks refuse, words of the manual that the decoder reads, one step
of instructions on small states with the manual's worked results, and, for each statement with hypotheses, states and operands that meet
them (`witness_<statement>`; a statement that joins several of `Claims` has one witness for each of them). -/

open Sys2Proof Sys2Proof.Machine

namespace Sys2Proof.Tests

-- one proof after another: the kernel evaluates most of them, and each would hold a thread while it waits for those before it
set_option Elab.async false

/-! ### Small states -/

/-- Four lanes issuing on path A at the first instruction of a stroke of 24, with 4 granules and a few registers. -/
def wave0 : Wave :=
  { status := .running, gran := 4, k := [(0, 15)], v := [(32, 7), (33, 0xFFFFFFFB), (34, 6), (35, 1), (64, 5), (65, 2), (66, 4), (67, 3)]
    s := [(2, 9), (4, 6), (6, 3), (8, 0x40), (10, 0x1000)], p := [(0, 5), (1, 3)]
    pathA := { on := true, lanes := 15, pc := 0x1008, head := 0x1000, idx := 0, count := 24, fall := 0x2000, page := 4096 } }

def st (x : Wave) : State := { State.reset with wave := x }
def s0 : State := st wave0

/-- What a step leaves, read by `f`; nothing where it stops. -/
def after {α : Type} (i : Instr) (s : State) (f : State → α) : Option α :=
  match exec i s with | .next t => some (f t) | _ => none

/-- The cause that the current wave has undelivered after an instruction. -/
def causeOf (i : Instr) (s : State) : Option (Option Nat) := after i s (fun t => t.wave.pend.head?.map (·.cause))

/-- A form F64R with guard "always" and the fields that follow. -/
def r64 (d a b c : Nat) (cd ca cb cc : Nat) (fn : Nat) : F64R :=
  ⟨false, 15, BitVec.ofNat 8 d, BitVec.ofNat 8 a, BitVec.ofNat 8 b, BitVec.ofNat 8 c, 0, BitVec.ofNat 2 cd, BitVec.ofNat 2 ca, BitVec.ofNat 2 cb,
    BitVec.ofNat 2 cc, BitVec.ofNat 6 fn⟩

/-- Lane `l` of vector register `r` after an instruction. -/
def laneAfter (i : Instr) (s : State) (r l : Nat) : Option Nat := after i s (fun t => vGet t.wave r l)

/-! ### Ill-formed terms (R84, R85, R87, R89 to R91) -/

theorem test_wf_refuses_guards : (Instr.nop32 ⟨false, 12, 0⟩).wf = false ∧ (Instr.mov32 ⟨false, 31, 1, 2, false⟩).wf = false ∧
    (Instr.bra32 ⟨false, 14, 0⟩).wf = false := by decide
theorem test_wf_refuses_classes : (Instr.iadd64 (r64 3 1 2 0 2 0 0 0 0)).wf = false ∧ (Instr.iadd64 (r64 3 128 2 0 0 1 0 0 0)).wf = false ∧
    (Instr.iadd64 (r64 3 1 2 1 0 0 0 0 0)).wf = false ∧ (Instr.iadd64 (r64 3 1 2 0 1 0 1 0 0)).wf = false ∧
    (Instr.iadd64 (r64 3 1 2 0 0 3 0 0 0)).wf = false := by decide
theorem test_wf_refuses_pairs : (Instr.iadd64 (r64 3 2 4 0 0 0 0 0 4)).wf = false ∧ (Instr.fadd64 (r64 2 1 4 0 0 0 0 0 1)).wf = false := by decide
theorem test_wf_refuses_fn : (Instr.idiv64 (r64 3 1 2 0 0 0 0 0 2)).wf = false ∧ (Instr.idiv64 (r64 3 1 2 0 0 0 0 0 8)).wf = false ∧
    (Instr.iabs64 (r64 3 1 0 0 0 0 0 0 16)).wf = false ∧ (Instr.fadd64 (r64 3 1 2 0 0 0 0 0 16)).wf = false ∧
    (Instr.shfl64 (r64 7 6 1 0 0 0 3 0 4)).wf = false ∧ (Instr.push64 (r64 7 6 1 0 0 0 3 0 1)).wf = false := by decide
theorem test_wf_refuses_rounding : (Instr.iadd64 { r64 3 1 2 0 0 0 0 0 0 with rnd := 1 }).wf = false := by decide
theorem test_wf_refuses_vote : (Instr.vote64 (r64 1 2 0 0 2 2 0 0 2)).wf = false ∧ (Instr.vote64 (r64 3 2 0 0 1 0 0 0 3)).wf = false ∧
    (Instr.vote64 (r64 1 2 0 0 2 2 0 0 4)).wf = false ∧ (Instr.reduce64 (r64 3 1 0 0 0 0 0 0 32)).wf = false ∧
    (Instr.scan64 (r64 3 1 0 0 0 0 0 0 11)).wf = false := by decide
theorem test_wf_refuses_32 : (Instr.trap32 ⟨false, 15, 128⟩).wf = false ∧ (Instr.bkpt32 ⟨false, 15, 1⟩).wf = false ∧
    (Instr.pand32 ⟨false, 15, 12, 0, false⟩).wf = false ∧ (Instr.join32 ⟨false, 15, 1, 0, true⟩).wf = false ∧
    (Instr.mov32 ⟨false, 15, 1, 2, true⟩).wf = false := by decide
theorem test_wf_refuses_memory : (Instr.ld64 ⟨false, 15, 1, 4, 0, 0, 0, 5, 0, 0⟩).wf = false ∧ (Instr.ld64 ⟨false, 15, 1, 3, 0, 0, 0, 4, 0, 0⟩).wf = false ∧
    (Instr.ld64 ⟨false, 15, 1, 4, 0, 0, 0, 4, 3, 0⟩).wf = false ∧ (Instr.ld64 ⟨false, 15, 1, 4, 0, 0, 0, 7, 0, 0⟩).wf = false ∧
    (Instr.ld64 ⟨false, 15, 1, 4, 0, 0, 0, 4, 0, 1⟩).wf = false ∧ (Instr.atom64 ⟨false, 15, 1, 4, 0, 0, 0, 0, 0, 0⟩).wf = false ∧
    (Instr.red64 ⟨false, 15, 1, 4, 0, 0, 0, 4, 0, 9⟩).wf = false := by decide
theorem test_wf_refuses_orders : (Instr.ord64 { r64 0 0 0 0 0 0 0 0 7 with g := 15 }).wf = false ∧ (Instr.fence32 ⟨false, 15, 64⟩).wf = false := by decide
theorem test_wf_refuses_parameters : (Instr.cpy64 ⟨r64 0 24 28 0 0 1 1 0 9, 0x80000100, 0, 0, 0⟩).wf = false ∧
    (Instr.cpy64 ⟨r64 0 24 28 0 0 1 1 0 9, 0x80000080, 0, 0, 0⟩).wf = false := by decide
theorem test_wf_refuses_literals : (Instr.iadd96 ⟨r64 3 1 2 0 0 0 3 0 0, 5⟩).wf = false ∧ (Instr.iadd96 ⟨r64 3 1 0 0 0 0 0 0 0, 5⟩).wf = false := by decide
theorem test_wf_refuses_matrix : (Instr.mma64 (r64 0x80 1 0xA1 0x60 2 2 2 2 0x12)).wf = false ∧ (Instr.cvdecl64 (r64 0x60 1 2 3 2 0 3 3 0)).wf = false ∧
    (Instr.bart64 (r64 0xC0 1 2 0 2 0 3 0 0)).wf = false := by decide

/-! ### Words of the manual, decoded -/

/-- The decoder reads these parcels as this instruction, and nothing is left over. -/
def reads (l : List Word) (i : Instr) : Bool := match decode l with | .ok (j, []) => decide (j = i) | _ => false
/-- The decoder refuses these parcels. -/
def refuses (l : List Word) (e : DecodeError) : Bool := match decode l with | .error d => decide (d = e) | .ok _ => false

-- R82: OP 0x08 in [8:2], LEN 01 in [1:0], A 3, D 9, GUARD 0_1111; B 5, FN 0x28 (R138)
theorem test_decode_integer : reads [0x3C240C21, 0x05000028] (.iadd64 (r64 9 3 5 0 0 0 0 0 0x28)) = true := by decide
theorem test_decode_float : reads [0x3C102054] (.fmul32 ⟨false, 15, 4, 8, false⟩) = true := by decide
theorem test_decode_masks : reads [0xBC0400B8] (.waitm32 ⟨true, 15, 1, 0, false⟩) = true := by decide
theorem test_decode_lanes : reads [0x3C1C18E1, 0x01000303] (.shfl64 (r64 7 6 1 0 0 0 3 0 3)) = true := by decide
theorem test_decode_control : reads [0xBC0001E4] (.ret32 ⟨true, 15, 0⟩) = true ∧ reads [0xBC000BF0] (.trap32 ⟨true, 15, 5⟩) = true := by decide
theorem test_decode_memory : reads [0x3C181101, 0x02040100] (.ld64 ⟨false, 15, 6, 4, 2, 0x40, 0, 4, 0, 0⟩) = true := by decide
theorem test_decode_ordering : reads [0xBC0059F4] (.fence32 ⟨true, 15, 0x2C⟩) = true := by decide
theorem test_decode_counters : reads [0xBC000151, 0xFFF003C3] (.wait64 { r64 0 0 0xFF 0xF0 0 0 3 3 3 with e := true }) = true ∧
    reads [0x3C240165, 0x04001100] (.csrr64 (r64 9 0 4 0 1 0 1 0 0)) = true := by decide
theorem test_decode_barriers : reads [0x3C200159, 0x03001300] (.waitb64 (r64 8 0 3 0 1 0 3 0 0)) = true := by decide
theorem test_decode_matrix : reads [0x3E028191, 0xA1602A92] (.mma64 (r64 0x80 0xA0 0xA1 0x60 2 2 2 2 0x12)) = true := by decide
theorem test_decode_copy : reads [0xBC0063C1, 0x1C000509, 0x00001900, 0, 0, 0]
    (.cpy64 ⟨{ r64 0 24 28 0 0 1 1 0 9 with e := true }, 0x00001900, 0, 0, 0⟩) = true := by decide
theorem test_decode_collective : reads [0x3C0029D1, 0x030C0740] (.collStart64 (r64 0 10 3 12 0 1 3 1 0)) = true := by decide
theorem test_decode_system : reads [0x3C202975, 0x04001700] (.vacate64 (r64 8 10 4 0 1 1 3 0 0)) = true := by decide
-- R91: an OP that the map leaves empty is illegal, a field outside its limits reserved, a short list ends in the middle
theorem test_decode_refuses : refuses [0x3C000000] .illegalOpcode = true ∧ refuses [0x3C240C21] .short = true ∧
    refuses [0x3C240C21, 0x05000029] .reservedField = true := by decide

/-! ### Worked results of the manual (R140 to R143, R180, R263 and the rules named) -/

/-- `s0` with three vector registers in lane 0: 1, 2 and 4. -/
def with3 (a b c : Nat) : State := st { wave0 with v := [(32, BitVec.ofNat 32 a), (64, BitVec.ofNat 32 b), (128, BitVec.ofNat 32 c)].filter (·.2 != 0) }
/-- Register 8 of lane 0 after an instruction on them. -/
def res (i : Instr) (a b c : Nat) : Option Nat := laneAfter i (with3 a b c) 8 0

-- the table of R143
theorem test_iadd_saturates_pairs : res (.iadd64 (r64 8 1 2 0 0 0 0 0 0x28)) 0x7FF00005 0x0020FFFE 0 = some 0x7FFF0003 := by decide
theorem test_idiv : res (.idiv64 (r64 8 1 2 0 0 0 0 0 0)) 7 0 0 = some 0xFFFFFFFF ∧
    res (.idiv64 (r64 8 1 2 0 0 0 0 0 0)) 0x80000000 0xFFFFFFFF 0 = some 0x80000000 ∧
    res (.idiv64 (r64 8 1 2 0 0 0 0 0 0)) 0xFFFFFFF9 2 0 = some 0xFFFFFFFD := by decide
theorem test_irem : res (.irem64 (r64 8 1 2 0 0 0 0 0 0)) 7 0 0 = some 7 ∧
    res (.irem64 (r64 8 1 2 0 0 0 0 0 0)) 0x80000000 0xFFFFFFFF 0 = some 0 ∧
    res (.irem64 (r64 8 1 2 0 0 0 0 0 0)) 0xFFFFFFF9 2 0 = some 0xFFFFFFFF := by decide
theorem test_imulh : res (.imulh64 (r64 8 1 2 0 0 0 0 0 0)) 0xFFFFFFFF 2 0 = some 0xFFFFFFFF ∧
    res (.imulh64 (r64 8 1 2 0 0 0 0 0 16)) 0xFFFFFFFF 2 0 = some 1 := by decide
theorem test_bfe : res (.bfe64 (r64 8 1 8 4 0 0 3 3 0)) 0xF00 0 0 = some 0xFFFFFFFF ∧ res (.bfe64 (r64 8 1 8 4 0 0 3 3 16)) 0xF00 0 0 = some 15 ∧
    res (.bfe64 (r64 8 1 30 8 0 0 3 3 16)) 0xC0000000 0 0 = some 3 := by decide
theorem test_shl_takes_amount_modulo_width : res (.shl64 (r64 8 1 33 0 0 0 3 0 0)) 1 0 0 = some 2 := by decide
theorem test_clz_of_zero : res (.clz64 (r64 8 1 0 0 0 0 0 0 0)) 0 0 0 = some 32 := by decide
theorem test_sar_and_shr : res (.sar64 (r64 8 1 4 0 0 0 3 0 0)) 0x80000000 0 0 = some 0xF8000000 ∧
    res (.shr64 (r64 8 1 4 0 0 0 3 0 0)) 0x80000000 0 0 = some 0x08000000 := by decide
theorem test_bfi_keeps_other_bits : res (.bfi64 (r64 8 1 4 8 0 0 3 3 0)) 0xAB 0 0 = some 0xAB0 := by decide
theorem test_iadd_source_is_destination : laneAfter (.iadd64 (r64 1 1 1 0 0 0 0 0 0)) s0 1 0 = some 14 := by decide
theorem test_guard_keeps_other_lanes : laneAfter (.iadd64 { r64 1 1 2 0 0 0 0 0 0 with g := 0 }) s0 1 1 = some 0xFFFFFFFB ∧
    laneAfter (.iadd64 { r64 1 1 2 0 0 0 0 0 0 with g := 0 }) s0 1 2 = some 10 := by decide
-- R42, R45: 1 + 2 to nearest even; infinity minus infinity is the default NaN with IV
theorem test_fadd : res (.fadd64 (r64 8 1 2 0 0 0 0 0 0)) 0x3F800000 0x40000000 0 = some 0x40400000 ∧
    res (.fadd64 (r64 8 1 2 0 0 0 0 0 0)) 0x7F800000 0xFF800000 0 = some 0x7FC00000 := by decide
theorem test_fadd_sets_invalid : after (.fadd64 (r64 8 1 2 0 0 0 0 0 0)) (with3 0x7F800000 0xFF800000 0) (fun t => t.wave.fcsr.toNat) = some 1 := by decide
theorem test_ffma_rounds_once : res (.ffma64 (r64 8 1 2 4 0 0 0 0 0)) 0x3F800001 0x3F800001 0xBF800002 = some 0x28800000 := by decide
-- R171, R169, R167, R165
theorem test_join_and_leave : after (.join32 ⟨false, 0, 3, 0, false⟩) s0 (fun t => (kGet t.wave 3).toNat) = some 5 ∧
    after (.leave32 ⟨false, 0, 0, 0, false⟩) s0 (fun t => (kGet t.wave 0).toNat) = some 15 := by decide
theorem test_exit_ends_lanes : after (.exit32 ⟨false, 0, 0⟩) s0 (fun t => (live t.wave).toNat) = some 10 := by decide
theorem test_call_pushes_fall_through : after (.call32 ⟨false, 15, 3⟩) s0 (fun t => (getLane t.wave 2).stack) = some [0x2000] ∧
    after (.call32 ⟨false, 15, 3⟩) s0 (fun t => (getLane t.wave 2).pc) = some 0x1020 := by decide
theorem test_ret_on_empty_stack : causeOf (.ret32 ⟨false, 15, 0⟩) s0 = some (some 0x019) := by decide
theorem test_trap_raises_0x085 : causeOf (.trap32 ⟨true, 15, 5⟩) s0 = some (some 0x085) := by decide
theorem test_bkpt_raises_0x3E0 : causeOf (.bkpt32 ⟨false, 15, 0⟩) s0 = some (some 0x3E0) := by decide
theorem test_tret_outside_handler : causeOf (.tret32 ⟨false, 15, 0⟩) s0 = some (some 0x006) := by decide
-- the worked case of R180, LANEPART = 8
def pushed : State :=
  st { wave0 with k := [(0, 0xFF)], pathA := { wave0.pathA with lanes := 0xFF }, wsw := 0x2000
                  v := [(33, 10), (34, 20), (35, 30), (36, 40), (37, 50), (38, 60), (39, 70), (64, 3), (65, 3), (67, 3), (68, 5), (69, 5), (70, 7), (71, 1)]
                    ++ (List.range 8).map (fun l => (96 + l, 0xFFFFFFFF)) }
theorem test_push_highest_lane_wins :
    after (.push64 (r64 3 1 2 0 0 0 0 0 0)) pushed (fun t => (List.range 8).map (vGet t.wave 3)) =
      some [20, 70, 0xFFFFFFFF, 30, 0xFFFFFFFF, 50, 0xFFFFFFFF, 60] := by decide
-- R179: lanes 0 and 1 swap, and lanes 2 and 3
theorem test_shfl_xor_swaps : after (.shfl64 (r64 8 1 1 0 0 0 3 0 3)) s0 (fun t => (List.range 4).map (vGet t.wave 8)) =
    some [0xFFFFFFFB, 7, 1, 6] := by decide
theorem test_vote_ballot_to_mask : after (.vote64 (r64 0x23 1 0 0 2 2 0 0 3)) s0 (fun t => (kGet t.wave 3).toNat) = some 3 := by decide
theorem test_reduce_adds : after (.reduce64 (r64 8 2 0 0 0 0 0 0 0)) s0 (fun t => (List.range 4).map (vGet t.wave 8)) = some [14, 14, 14, 14] := by decide
theorem test_scan_exclusive : after (.scan64 (r64 8 2 0 0 0 0 0 0 32)) s0 (fun t => (List.range 4).map (vGet t.wave 8)) = some [0, 5, 7, 11] := by decide
-- R175, R176, R381, R385, R157
theorem test_part_and_laneid : after (.part32 ⟨false, 15, 0, 4⟩) s0 (fun t => tileWidth t.wave) = some 4 ∧
    laneAfter (.laneid32 ⟨false, 15, 8, 0, true⟩) (st { wave0 with wsw := 0x4000 }) 8 3 = some 1 := by decide
theorem test_csrw_csrr : after (.csrr32 ⟨false, 15, 6, 6⟩) s0 (fun t => sGet t.wave 6) = some 4 ∧
    causeOf (.csrw32 ⟨false, 15, 6, 3⟩) s0 = some (some 0x002) := by decide
theorem test_wait_not_first : causeOf (.wait64 { r64 0 0 0xFF 0xF0 0 0 3 3 3 with e := true })
    (st { wave0 with pathA := { wave0.pathA with idx := 1 } }) = some (some 0x007) := by decide
theorem test_grow_beyond_limit : causeOf (.grow32 ⟨false, 15, 0, 29⟩) s0 = some (some 0x009) ∧
    after (.grow32 ⟨false, 15, 0, 2⟩) s0 (fun t => t.wave.gran) = some 6 := by decide
theorem test_shrink_removes_registers : after (.shrink32 ⟨false, 15, 0, 3⟩) (st { wave0 with v := [(256, 7)] }) (fun t => (t.wave.gran, vGet t.wave 8 0)) = some (1, 0) := by decide

/-! ### States and operands that meet the statements' hypotheses: instructions -/

/-- The boundary of each format's values: encoded, then followed by other parcels. -/
theorem witness_EncodingRoundTrip : (Instr.iadd64 (r64 9 3 5 0 0 0 0 0 0x28)).isIsa = true ∧ (Instr.iadd64 (r64 9 3 5 0 0 0 0 0 0x28)).wf = true ∧
    (Instr.trap32 ⟨true, 15, 127⟩).wf = true ∧ (Instr.iadd96 ⟨r64 255 255 0 0 0 0 3 0 0, 0xFFFFFFFF⟩).wf = true := by decide
theorem witness_DecodedWordsAreTheEncoding : decode [0xBC000BF0, 7] = .ok (.trap32 ⟨true, 15, 5⟩, [7]) := rfl

/-- `s0` about to issue an instruction that stands at its program counter. -/
def placed (nbits w : Nat) : State := (st wave0).withFetchWord nbits w
theorem witness_StepRunsTheDecodedInstruction : let s := placed 32 0xBC000BF0
    s.agenda = [] ∧ dueWave s = some 0 ∧ disabled (takeTurn s 0) (.trap32 ⟨true, 15, 5⟩) = false ∧
    (match decode (codeWords (takeTurn s 0) (waveDie (takeTurn s 0).cur) (curPath (takeTurn s 0).wave)) with
      | .ok (i, _) => decide (i = .trap32 ⟨true, 15, 5⟩) | .error _ => false) = true := by decide +kernel
theorem witness_IllegalWordsRaiseTheirCause : let s := placed 32 0
    s.agenda = [] ∧ dueWave s = some 0 ∧ (takeTurn s 0).wave.status = .running ∧
    (match decode (codeWords (takeTurn s 0) 0 (curPath (takeTurn s 0).wave)) with | .ok _ => false | .error d => decide (d = .illegalOpcode)) = true ∧
    (disabled (takeTurn { placed 32 0 with ifaces := [(0, { featEn := some 0 })] } 0) (.rput64 ⟨false, 15, 0, 0, 0, 0, 3, 4, 0, 0⟩) = true) := by decide +kernel
theorem witness_PreciseFaultStopsAtTheInstruction : s0.cur = s0.cur ∧ s0.wave.status = .running ∧ Due s0 := ⟨rfl, rfl, rfl⟩
theorem witness_PathGoesOnBehindTheInstruction : (curPath wave0).on = true ∧ (curPath wave0).lanes ≠ 0 ∧ (curPath wave0).idx + 1 < (curPath wave0).count ∧
    (let x := { wave0 with pathA := { wave0.pathA with idx := 23 } }; (curPath x).lanes ≠ 0 ∧ (curPath x).count ≤ (curPath x).idx + 1) ∧
    (curPath { wave0 with pathA := { wave0.pathA with lanes := 0 } }).lanes = 0 ∧
    (pathOf { wave0 with pathB := { wave0.pathA with lanes := 0xF0 } } true).on = true := by decide
/-- `s0` with its wave stepping. -/
def stepped0 : State := st { wave0 with wsw := 0x10000 }
theorem witness_SteppedInstructionTraps : Issuing stepped0 ∧ stepping stepped0.wave = true ∧ stepped0.wave.pathB.on = false ∧
    bestGroup [{ pc := 0x1008 }] = some { pc := 0x1008 } ∧ stepped0.wave.shadow = false ∧ (curPath stepped0.wave).on = true ∧
    stepped0.wave.pathA.lanes &&& stepped0.wave.pathB.lanes = 0 ∧ (curPath stepped0.wave).lanes.getLsbD 0 = true :=
  ⟨⟨rfl, rfl⟩, by decide⟩
theorem witness_DestinationIsWrittenAndNothingElse : (vOpnd 31).cls = 0 ∧ (opnd 1 127 false 0).cls = 1 ∧ (opnd 0 30 true 0).wide = true ∧
    execLanes s0 15 ≠ 0 := by decide
theorem witness_IntegerInstructionsComplete : ∃ r, Claims.aluRow (.iadd64 (r64 31 1 2 0 0 0 0 0 0)) = some r ∧
    (Instr.iadd64 (r64 31 1 2 0 0 0 0 0 0)).wf = true ∧ Due s0 ∧ topReg [r.d, r.a, r.b, r.c] ≤ 8 * s0.wave.gran :=
  ⟨_, rfl, by decide, rfl, by decide⟩
theorem witness_UnallocatedRegisterFaults : ∃ r, Claims.aluRow (.iadd64 (r64 32 1 2 0 0 0 0 0 0)) = some r ∧ Issuing s0 ∧
    8 * s0.wave.gran < topReg [r.d, r.a, r.b, r.c] := ⟨_, rfl, ⟨rfl, rfl⟩, by decide⟩
theorem witness_DivisionCompletes : let f := r64 8 1 2 0 0 0 0 0 1
    Due s0 ∧ topReg [intD f, intA f, intB f] ≤ 8 * s0.wave.gran ∧ fnBits f.fn 0 0 = 1 ∧
    ∀ l < 32, (execLanes s0 f.g).getLsbD l = true → readOpnd s0.wave (intB f) l % 2 ^ elemWidth (fW f) ≠ 0 :=
  ⟨rfl, by decide, by decide, by decide⟩
theorem witness_DivisionByZeroTraps : let f := r64 8 1 3 0 0 0 0 0 1
    Issuing s0 ∧ topReg [intD f, intA f, intB f] ≤ 8 * s0.wave.gran ∧ fnBits f.fn 0 0 = 1 ∧
    (execLanes s0 f.g).getLsbD 0 = true ∧ readOpnd s0.wave (intB f) 0 % 2 ^ elemWidth (fW f) = 0 :=
  ⟨⟨rfl, rfl⟩, by decide⟩
theorem witness_MovesAndSelectionComplete :
    (∃ f b, Claims.selRow (.sel64 (r64 8 1 2 1 0 0 0 2 0)) = some (f, b) ∧ Due s0 ∧ topReg [intD f, intA f, b] ≤ 8 * s0.wave.gran) ∧
    (∀ f ∈ [r64 8 0 0xFF 0 0 0 3 0 0, r64 3 1 0 0 2 0 0 0 0, r64 0x23 6 0 0 2 1 0 0 0, r64 0x20 6 0 0 2 1 0 0 0, r64 0x23 0x20 0 0 2 2 0 0 0],
      (Instr.mov64 f).wf = true ∧ topReg [intD f, Claims.movOpnd f] ≤ 8 * s0.wave.gran ∧ execLanes s0 f.g ≠ 0) ∧
    opKind (r64 8 0 0xFF 0 0 0 3 0 0).cd 8 = some .v ∧ opKind 2 3 = some .p ∧ opKind 2 0x23 = some .k ∧ opKind 2 0x20 = some .k :=
  ⟨⟨_, _, rfl, rfl, by decide⟩, by decide, by decide⟩
theorem witness_PredicateInstructionsComplete : ∃ g d top b, Claims.predRow (.isetp64 (r64 0 1 2 0 2 0 0 0 2)) s0.wave = some (g, d, top, b) ∧
    Due s0 ∧ top ≤ 8 * s0.wave.gran := ⟨_, _, _, _, rfl, rfl, by decide⟩
/-- `with3` of infinity and minus infinity, with the invalid-operation trap enabled. -/
def trapping : State := let s := with3 0x7F800000 0xFF800000 0; { s with wave := { s.wave with fcsr := 0x100 } }
theorem witness_FloatingInstructionsComplete : ∃ r, Claims.fltRow (.fadd64 (r64 8 1 2 0 0 0 0 0 0)) (with3 0x7F800000 0xFF800000 0).wave = some r ∧
    Due (with3 0x7F800000 0xFF800000 0) ∧ topReg [r.d, r.a, r.b, r.c] ≤ 8 * (with3 0x7F800000 0xFF800000 0).wave.gran ∧
    Claims.NoTrap (with3 0x7F800000 0xFF800000 0).wave (r.flags (with3 0x7F800000 0xFF800000 0).wave 15) ∧ r.flags (with3 0x7F800000 0xFF800000 0).wave 15 = 1 :=
  ⟨_, rfl, rfl, by decide, fun i _ _ => by show (0 : BitVec 32).getLsbD (8 + i) = false; simp, by decide⟩
theorem witness_EnabledFloatingExceptionTraps : ∃ r, Claims.fltRow (.fadd64 (r64 8 1 2 0 0 0 0 0 0)) trapping.wave = some r ∧ Issuing trapping ∧
    topReg [r.d, r.a, r.b, r.c] ≤ 8 * trapping.wave.gran ∧ (r.flags trapping.wave (execLanes trapping r.g)).testBit 0 = true ∧
    trapping.wave.fcsr.getLsbD (8 + 0) = true := ⟨_, rfl, ⟨rfl, rfl⟩, by decide, by decide, by decide⟩
theorem witness_FloatingComparisonCompletes : ∃ f b, Claims.fsetpRow (.fsetp64 (r64 0 1 2 0 2 0 0 0 2)) = some (f, b) ∧ Due (with3 1 2 0) ∧
    topReg [opnd f.ca f.a (setpKind f = .fp64) 0, b] ≤ 8 * (with3 1 2 0).wave.gran ∧
    Claims.NoTrap (with3 1 2 0).wave (Claims.setpFlags f b (with3 1 2 0).wave (execLanes (with3 1 2 0) f.g)) :=
  ⟨_, _, rfl, rfl, by decide, fun i _ _ => by show (0 : BitVec 32).getLsbD (8 + i) = false; simp⟩
theorem witness_RepresentableNumbersRoundToThemselves : 0x7F7FFFFF < 2 ^ FKind.fp32.width ∧ unpack .fp32 0x7F7FFFFF = .fin false 0xFFFFFF 104 ∧
    (1 < 2 ^ FKind.e5m2.width ∧ unpack .e5m2 1 = .fin false 1 (-16)) := by decide
theorem witness_MaskInstructionsComplete : Claims.maskRow (.join32 ⟨false, 0, 11, 0, false⟩) wave0 5 = some (0, 11, 5) ∧ execLanes s0 0 = 5 ∧ Due s0 ∧
    Issuing s0 ∧ execLanes (st { wave0 with p := [] }) 0 = 0 ∧ Claims.maskRow (.leave32 ⟨false, 15, 0, 0, false⟩) wave0 15 = some (15, 0, 0) :=
  ⟨by decide, by decide, rfl, ⟨rfl, rfl⟩, by decide, by decide⟩
theorem witness_WaitmParksItsLanes : Claims.waitmRow (.waitm32 ⟨false, 15, 11, 0, true⟩) = some (15, 11, true) ∧ inTrap wave0 = false ∧ Due s0 ∧
    execLanes s0 15 ≠ 0 ∧ Claims.waitmRow (.waitm32 ⟨false, 15, 0, 0, false⟩) = some (15, 0, false) ∧ inTrap { wave0 with wsw := 0x400 } = true :=
  ⟨by decide, by decide, rfl, by decide, by decide, by decide⟩
theorem witness_PartitionInstructionsComplete : Claims.partRow (.part32 ⟨false, 15, 0, 2⟩) wave0 = some (15, 2) ∧ partCode 2 = some 4 ∧ execLanes s0 15 ≠ 0 ∧
    Due s0 ∧ Claims.partRow (.part32 ⟨false, 15, 0, 3⟩) wave0 = some (15, 3) ∧ partCode 3 = none ∧ (31 : BitVec 8).toNat + 1 ≤ 8 * s0.wave.gran :=
  ⟨by decide, by decide, by decide, rfl, by decide⟩
theorem witness_VoteCompletes : Due s0 ∧ topReg [opnd 0 31 false 0, opnd 0 8 false 0] ≤ 8 * s0.wave.gran ∧ fnBits 2 1 0 = 2 ∧ opKind 2 1 = some .p ∧
    fnBits 3 1 0 = 3 ∧ opKind 2 0x2B = some .k ∧ execLanes s0 15 ≠ 0 ∧ opKind 0 8 = some .v ∧ opKind 1 8 = some .s :=
  ⟨rfl, by decide⟩
theorem witness_ShuffleAndPushComplete : let f := r64 8 1 2 0 0 0 0 0 3
    Due s0 ∧ topReg [opnd f.ca f.a (f.fn.getLsbD 3) 0, opnd f.cb f.b false f.b.toNat, opnd f.cd f.d (f.fn.getLsbD 3) 0] ≤ 8 * s0.wave.gran := ⟨rfl, by decide⟩
theorem witness_ReductionsComplete : let f := r64 8 2 0 0 0 0 0 0 32
    Due s0 ∧ topReg [opnd f.ca f.a (f.fn.getLsbD 4) 0, opnd f.cd f.d (f.fn.getLsbD 4) 0] ≤ 8 * s0.wave.gran ∧
    Claims.NoTrap s0.wave (Claims.treeFlags true f s0.wave (execLanes s0 f.g)) :=
  ⟨rfl, by decide, fun i _ _ => by show (0 : BitVec 32).getLsbD (8 + i) = false; simp⟩
/-- `s0` with the return stack of lane 0 full, of lane 1 empty. -/
def stacked : State := st { wave0 with lane := [(0, { stack := List.replicate 16 0x3000 }), (1, { stack := [0x3000] })] }
theorem witness_BranchesAndCallsComplete : Claims.braRow (.call32 ⟨false, 15, 3⟩) = some (15, 24, true) ∧ Due s0 ∧ stepping s0.wave = false ∧
    Claims.stackLanes s0 (execLanes s0 15) true = 0 ∧ Issuing stacked ∧ Claims.stackLanes stacked (execLanes stacked 15) true ≠ 0 :=
  ⟨by decide, rfl, by decide, by decide, ⟨rfl, rfl⟩, by decide⟩
theorem witness_IndirectBranchesComplete : let f := r64 4 2 0 0 0 0 0 0 1
    Due s0 ∧ stepping s0.wave = false ∧ topReg [opnd f.ca f.a true 0, opnd f.cd f.d true 0] ≤ 8 * s0.wave.gran ∧
    Claims.stackLanes stacked 3 false = 0 ∧ Issuing s0 ∧
    Claims.stackLanes s0 (execLanes s0 15) false ≠ 0 := ⟨rfl, by decide, by decide, by decide, ⟨rfl, rfl⟩, by decide⟩
theorem witness_NopAndExitComplete : Due s0 ∧ execLanes s0 15 ≠ 0 ∧ execLanes (st { wave0 with p := [] }) 0 = 0 := ⟨rfl, by decide, by decide⟩
theorem witness_TrapInstructionsRaiseTheirCause : Issuing s0 ∧ execLanes s0 15 ≠ 0 ∧ Issuing (st { wave0 with p := [] }) ∧
    execLanes (st { wave0 with p := [] }) 0 = 0 ∧ (Instr.trap32 ⟨false, 15, 127⟩).wf = true := ⟨⟨rfl, rfl⟩, by decide, ⟨rfl, rfl⟩, by decide, by decide⟩

/-! ### A translated page: traps, memory and network instructions -/

/-- Interface 0 of package 0: ENABLED, with all its clusters, contexts and tags, and with a buffer map of one entry that gives virtual
addresses 0 to 0xFFFF the memory from 0x20000 on; core 0 is logical core 0; crew 0 has 1 KiB of bench from 0. -/
def part0 : BitVec 2048 := BitVec.ofNat 2048 (0x10000 * 2 ^ 256 + 2 ^ 320 + 2 ^ 352 + (2 ^ 176 - 1) * 2 ^ 576)
def mapped (x : Wave) : State :=
  { State.reset with
    wave := x, part := [(0, part0)], lct := [(0, 0x8000)]
    mem := [(0x10008, 1), (0x1000E, 1), (0x10012, 2), (0x1001A, 3), (0x20100, 42), (0x20108, 7), (0x20428, 0x01), (0x20429, 0x30)]
    crews := [(0, { slots := [0], threads := 4, waves := 1, benchSize := 1024 })] }
def m0 : State := mapped wave0
/-- `m0` stopped, with cause 0x085 to deliver; and in its handler. -/
def pend85 : Pending := { cause := 0x085, lanes := 15 }
def stopped0 : State := mapped { wave0 with status := .stopped, pathA := {}, pend := [pend85] }
def handler0 : State := mapped { wave0 with wsw := 0x400 }

/-- The answer of a read or a write is a value. -/
def isOk {ε α : Type} (x : Except ε α) : Bool := match x with | .ok _ => true | .error _ => false

theorem witness_TrapDeliveryEntersTheHandler : trapDue stopped0 0 = true ∧ choosePending (getWave stopped0 0).pend = some pend85 ∧
    inTrap (getWave stopped0 0) = false ∧
    (let r := readVirt (withdrawWaits stopped0 0) 0 0 0x428 8
     (match r.2 with | .ok b => (bytesNat b).testBit 0 && natBits (bytesNat b) 2 1 == 0 && canonical (bytesNat b / 8 * 8) | .error _ => false) = true ∧
     isOk (storeFields r.1 0 (frameAddr r.1 0) (frameFields r.1 0 pend85)).2 = true) := by decide +kernel
theorem witness_UndeliverableTrapHaltsTheWave :
    (let s := mapped { wave0 with status := .stopped, pathA := {}, wsw := 0x400, pend := [pend85] }
     trapDue s 0 = true ∧ choosePending (getWave s 0).pend = some pend85 ∧ inTrap (getWave s 0) = true) ∧
    (let s := mapped { wave0 with status := .stopped, pathA := {}, pend := [pend85], tvbase := 0x100000 }
     trapDue s 0 = true ∧ inTrap (getWave s 0) = false ∧ (getWave s 0).partner = none ∧
     isOk (readVirt (withdrawWaits s 0) 0 0 0x100428 8).2 = false) ∧ (getWave stopped0 0).status = .stopped := by decide +kernel
theorem witness_TrapReturn : Issuing handler0 ∧ execLanes handler0 15 ≠ 0 ∧ inTrap handler0.wave = true ∧ Issuing s0 ∧ inTrap s0.wave = false ∧
    Issuing (st { wave0 with p := [] }) ∧ execLanes (st { wave0 with p := [] }) 0 = 0 :=
  ⟨⟨rfl, rfl⟩, by decide, by decide, ⟨rfl, rfl⟩, by decide, ⟨rfl, rfl⟩, by decide⟩
/-- `stopped0` after its trap was taken: its frame stands in memory. -/
def delivered0 : State := match exec (.trapDelivery 0) stopped0 with | .next t => t | _ => stopped0
theorem witness_TrapReturnRestoresTheFrame : (getWave delivered0 0).partner = none ∧
    isOk (loadFields (mapped { wave0 with tvbase := 0x100000 }) 0 (frameAddr (mapped { wave0 with tvbase := 0x100000 }) 0) headerFields).2 = false ∧
    (let r := loadFields delivered0 0 (frameAddr delivered0 0) headerFields
     (match r.2 with
      | .ok l => let h := wordsNat l
        bytesAt h 0 2 < 1024 && bytesAt h 2 1 < 8 && bytesAt h 3 1 ≤ 1 && bytesAt h 16 4 ≤ 48 && bytesAt h 92 164 == 0 &&
          isOk (readReplays r.1 0 (frameAddr delivered0 0) 0 (bytesAt h 16 4)).2
      | .error _ => false) = true ∧
     isOk (readRecords r.1 0 (frameAddr delivered0 0) (List.range 32)).2 = true) ∧
    (let r := loadFields handler0 0 (frameAddr handler0 0) headerFields
     isOk (readRecords r.1 0 (frameAddr handler0 0) (List.range 32)).2 = false) := by decide +kernel

/-- A bench store and load at scalar s8 (0x40). -/
def ldB : F64M := ⟨false, 15, 5, 8, 0, 0, 1, 4, 2, 0⟩
/-- The instruction passes every check at issue in `m0`. -/
def MemReady (i : Instr) : Prop :=
  ∃ r, Claims.memRow i = some r ∧ Due m0 ∧ execLanes m0 r.m.g ≠ 0 ∧
    (Claims.issueOrder m0 0 ∈ r.orders ∧ (r.m.sp = 1 → Claims.issueScope m0 true r.scope ≤ 2)) ∧ topM r.m r.vbytes ≤ 8 * m0.wave.gran ∧
    entriesUsed m0 m0.cur < 24 ∧ r.all = false ∧ ∀ l, l < 32 → Claims.addrCause m0 r (Claims.laneAddress m0.wave r.m r.off l) = none
theorem witness_MemoryInstructionsIssue : MemReady (.ld64 ldB) ∧ MemReady (.st64 ldB) ∧ MemReady (.atom64 ldB) ∧ MemReady (.red64 ldB) ∧
    (∃ r, Claims.memRow (.cinv64 ⟨false, 15, 0, 10, 0, 0, 0, 0, 2, 1⟩) = some r ∧ r.all = true) := by
  refine ⟨?_, ?_, ?_, ?_, _, rfl, rfl⟩ <;> exact ⟨_, rfl, rfl, by decide⟩
/-- The state with every replay entry of wave 0 in use. -/
def many0 (s : State) : State := { s with ops := (List.range 24).map (fun i => { id := i, w := 0, kind := .load, entry := true, lanes := [{}] }) }
theorem witness_MemoryInstructionsFault : Issuing m0 ∧ topM ldB 4 ≤ 8 * m0.wave.gran ∧ execLanes (st { wave0 with p := [] }) 0 = 0 ∧
    (let s := mapped { wave0 with ordp := 0x82 }
     Claims.issueOrder s 0 = 2 ∧ 2 ∉ [0, 1, 4]) ∧
    Claims.addrCause m0 ⟨ldB, 0, .load, 1, 4, 0, 4, [0, 1, 4], 0, false⟩ 1021 = some 0x101 ∧
    Claims.addrCause m0 ⟨ldB, 0, .load, 1, 4, 0, 4, [0, 1, 4], 0, false⟩ 2 = some 0x107 ∧
    ¬ entriesUsed (many0 m0) (many0 m0).cur < 24 := ⟨⟨rfl, rfl⟩, by decide⟩
theorem test_ld_enters_an_operation : after (.ld64 ldB) m0 (fun t => (t.wave.ld, t.ops.map (fun o => (o.kind, o.lanes.map (·.addr))))) =
    some (1, [(.load, [0x40, 0x40, 0x40, 0x40])]) := by decide
theorem witness_OrderingInstructionsIssue : Due m0 ∧ execLanes m0 15 ≠ 0 ∧ (0x28 % 8 = 0 ∧ Issuing m0) ∧ 0x2C % 8 ≠ 0 ∧ entriesUsed m0 m0.cur < 24 ∧
    (let a := sPair64 m0.wave 10
     canonical a = true ∧ a % 8 = 0 ∧ a % 64 = 0) ∧
    (let m : F64M := ⟨false, 15, 2, 10, 0, 0, 0, 4, 2, 0⟩
     topM m 0 ≤ 8 * m0.wave.gran ∧ Claims.issueOrder m0 2 ∈ [0, 2, 4] ∧ canonical (Claims.laneAddress m0.wave m (m.off.signExtend 64) 0) = true) :=
  ⟨rfl, by decide, ⟨by decide, ⟨rfl, rfl⟩⟩, by decide⟩
theorem witness_PrefetchChangesNoRegister : let m : F64M := ⟨false, 15, 0, 10, 0, 0, 0, 4, 2, 0⟩
    Due m0 ∧ execLanes m0 m.g ≠ 0 ∧ Claims.issueOrder m0 0 = 0 ∧ Claims.issueScope m0 true 4 ≤ 2 ∧ topM m 0 ≤ 8 * m0.wave.gran :=
  ⟨rfl, by decide⟩
/-- `m0` with remote descriptors from 0x40000 on: number 0 is VALID, WR, of 4,096 bytes. -/
def net0 : State :=
  { m0 with part := [(0, BitVec.ofNat 2048 (part0.toNat + 0x40000 * 2 ^ 384))]
            mem := [(0x10008, 1), (0x1000E, 1), (0x10012, 2), (0x1001A, 3), (0x40001, 0x10), (0x40009, 0x07)] }
theorem witness_NetworkAccessesIssue : let m : F64M := ⟨false, 15, 2, 8, 0, 0, 0, 4, 2, 0⟩
    execLanes net0 m.g ≠ 0 ∧ Claims.issueOrder net0 0 ∈ [0, 1, 4] ∧ Claims.issueScope net0 false 7 = 7 ∧ topM m 4 ≤ 8 * net0.wave.gran ∧ Due net0 ∧
    entriesUsed net0 net0.cur < 24 ∧
    (let e := remoteDesc net0 0 0
     rdValid e = true ∧ 0xFFC + 4 ≤ rdLen e ∧ rdWrite e = true ∧ Claims.laneAddress net0.wave m 0 0 = 0x40) ∧ Issuing net0 ∧
    (let e := remoteDesc net0 0 0
     ¬ 0xFFD + 4 ≤ rdLen e) := by
  unfold Issuing Due; decide +kernel
/-- WAITA and POLL of the value 42 at 0x100. -/
def poll42 : F64M := ⟨false, 15, 2, 12, 0, 0x100, 0, 4, 2, 0⟩
/-- The same state with s12 at an address that is not mapped, or misaligned, or with an order that no wait takes. -/
def unmapped0 : State := mapped { wave0 with s := [(2, 9), (12, 0x100000)] }
def skewed0 : State := mapped { wave0 with s := [(2, 9), (12, 2)] }
def ordered0 : State := mapped { wave0 with ordp := 0x82 }
theorem wait_due : Claims.WaitDue m0 poll42 ∧ Claims.WaitDue unmapped0 poll42 := by
  unfold Claims.WaitDue Claims.orderTaken Claims.quietWave Claims.entryFree Issuing Due; decide
theorem witness_WaitOnAddress : Claims.WaitDue m0 poll42 ∧ (inTrap handler0.wave = true ∧ Issuing handler0 ∧ inTrap m0.wave = false) ∧
    (match locate m0 m0.cur 0 (Claims.waitAddr m0 poll42) with
      | (s, .ready pa md _ _) => (match (readWait s 0 0 5 md pa 4).2 with | .ok v => pa == 0x20100 && v == 42 | .error _ => false)
      | _ => false) = true ∧ Claims.waitValue wave0 poll42 = 9 ∧ Claims.waitValue { wave0 with s := [(2, 42)] } poll42 = 42 :=
  ⟨wait_due.1, ⟨by decide, ⟨rfl, rfl⟩, by decide⟩, by decide +kernel⟩
theorem witness_WaitingReadsStop : Claims.WaitDue unmapped0 poll42 ∧ (Issuing m0 ∧ inTrap m0.wave = false ∧ topM poll42 0 ≤ 8 * m0.wave.gran) ∧
    ¬ Claims.orderTaken ordered0 (Claims.waitRow poll42) ∧ Claims.orderTaken m0 (Claims.waitRow poll42) ∧ execLanes (st { wave0 with p := [] }) 0 = 0 ∧
    Claims.addrCause skewed0 (Claims.waitRow poll42) (Claims.waitAddr skewed0 poll42) = some 0x107 ∧ ¬ Claims.entryFree (many0 m0) ∧
    (match (locate unmapped0 unmapped0.cur 0 (Claims.waitAddr unmapped0 poll42)).2 with | .bad c => c != 0 | _ => false) = true := by
  refine ⟨wait_due.2, ⟨⟨rfl, rfl⟩, by decide, by decide⟩, ?_⟩
  unfold Claims.orderTaken Claims.entryFree; decide +kernel
theorem test_waita_takes_a_different_value : after (.waita64 poll42) m0 (fun t => (sGet t.wave 2, t.wave.waits.length)) = some (42, 0) ∧
    after (.waita64 poll42) (mapped { wave0 with s := [(2, 42)] }) (fun t => (sGet t.wave 2, t.wave.waits.map (·.lanes))) = some (42, [15]) := by decide +kernel
-- the worked trace of R263: a failed attempt lowers the level by one, a success restores it
theorem test_poll_backs_off : after (.poll64 { poll42 with off := 0x104, fn4 := 1 }) (mapped { wave0 with s := [] }) (fun t => (boff t.wave, sGet t.wave 2)) = some (1, 0) ∧
    after (.poll64 { poll42 with off := 0x108, fn4 := 1 }) (mapped { wave0 with s := [], wsw := 0x60000 }) (fun t => (boff t.wave, sGet t.wave 2)) = some (0, 7) := by
  decide +kernel
theorem witness_PollSucceedsOrBacksOff : 42 = Claims.waitValue { wave0 with s := [(2, 42)] } poll42 ∧ 42 ≠ Claims.waitValue wave0 poll42 ∧ poll42.fn4 % 4 = 0 := by decide
theorem witness_WaitOnCounters : let f := r64 0 0 0xFF 0xF0 0 0 3 3 3
    execLanes s0 f.g ≠ 0 ∧ (curPath s0.wave).idx = 0 ∧ Due s0 ∧ (∀ r ∈ Claims.waitRows f s0.wave, r.2.1 ≠ r.2.2 → r.1 ≤ r.2.1) ∧
    (¬ ∀ r ∈ Claims.waitRows f { wave0 with ld := 2, eng := 3 }, r.2.1 ≠ r.2.2 → r.1 ≤ r.2.1) ∧
    (curPath { wave0 with pathA := { wave0.pathA with idx := 1 } }).idx ≠ 0 := by unfold Due; decide
theorem witness_ControlRegisterReads : Claims.csrRow (.csrr32 ⟨false, 15, 6, 6⟩) wave0 = some (15, 6) ∧ execLanes s0 15 ≠ 0 ∧
    Claims.csrDest (.csrr32 ⟨false, 15, 6, 6⟩) = some 6 ∧ Claims.csrValue s0 6 = some 4 ∧ Due s0 ∧ Claims.csrValue s0 3 = none ∧ Issuing s0 := by unfold Issuing Due; decide
theorem witness_ControlRegisterWrites : let i := Instr.csrw32 ⟨false, 15, 6, 8⟩
    Claims.csrRow i wave0 = some (15, 8) ∧ Claims.csrSource i wave0 = some 3 ∧ execLanes s0 15 ≠ 0 ∧ Due s0 ∧ Issuing s0 ∧
    (9 * 2 ^ 17 / 2 ^ 17 % 16 > 8 ∧ 5 * 2 ^ 12 / 2 ^ 12 % 8 > 4 ∧ 8 * 2 ^ 17 / 2 ^ 17 % 16 ≤ 8 ∧ 4 * 2 ^ 12 / 2 ^ 12 % 8 ≤ 4) ∧
    (Claims.qcode 7 0 > 6 ∧ Claims.qcode 6 0 ≤ 6) ∧
    (Claims.qcode wave0.qmap0.toNat 0 ≠ Claims.qcode 3 0 ∧ smGet { wave0 with q := [(0, [0])] }.q [] 0 ≠ [] ∧ smGet wave0.q [] 0 = []) :=
  ⟨by decide, by decide, by decide, rfl, ⟨rfl, rfl⟩, by decide, by decide, by decide⟩

/-! ### Barrier objects, tags, allocation, tiles, commands, contexts, tasks, system operations -/

/-- `m0` whose bench holds in slot 1 an object: TARGET 2, PHASE 9, armed; and another with ERR and ECAUSE 0x204. -/
def bar0 : State := { m0 with bench := [(32, 2), (38, 9), (48, 1)] }
def barBad : State := { m0 with bench := [(32, 2), (38, 9), (48, 5), (49, 4), (50, 2)] }
/-- `bar0` whose unit tracks 64 other objects; with a wave parked on the memory object at 0x1000; and that object located. -/
def barMany : State := { bar0 with bars := (List.range 64).map (fun i => (2 * i + 100, { tracked := true })) }
def barWaited : State := { bar0 with mem := m0.mem ++ [(0x2100E, 1)] }
def objLocated (s : State) (a : Nat) : Option (State × Nat) :=
  match locate s 0 0 a with | (u, .ready pa _ _ _) => some (flushBar u (memObj pa), memObj pa) | _ => none
theorem witness_BariArms : let f := r64 0 0 1 5 0 0 3 3 0
    execLanes bar0 15 ≠ 0 ∧ Issuing bar0 ∧ Claims.barTargetOf bar0 (r64 0 0 1 0 0 0 3 3 0) = 0 ∧ 0 < Claims.barTargetOf bar0 f ∧ f.fn.toNat / 16 = 0 ∧
    Claims.slotFits bar0 1 ∧ Claims.slotFits bar0 31 ∧ barFull bar0 (Claims.slotNo bar0 1) = false ∧ barFull barMany (Claims.slotNo barMany 1) = true ∧
    Claims.quietWave bar0 ∧ Claims.barWaiters (bar0.bench.readN (Claims.slotAt bar0 1) 32) = 0 ∧
    (let s : State := { m0 with bench := [(32, 2), (46, 1)] }
     Claims.barWaiters (s.bench.readN (Claims.slotAt s 1) 32) = 1) ∧
    Due bar0 ∧ (r64 0 10 1 5 0 1 3 3 16).fn.toNat / 16 = 1 ∧ Claims.memCause (sPair64 bar0.wave 10) = none ∧ sPair64 bar0.wave 10 = 0x1000 ∧ Claims.entryFree bar0 ∧
    (objLocated bar0 0x1000).map (fun z => Claims.barWaiters (readObj z.1 z.2).2) = some 0 ∧
    (objLocated barWaited 0x1000).map (fun z => Claims.barWaiters (readObj z.1 z.2).2) = some 1 ∧ objLocated bar0 0x100000 = none ∧
    Claims.memCause (2 ^ 63) = some 0x104 ∧ Claims.memCause 0x1010 = some 0x107 := by
  unfold Issuing Due Claims.slotFits Claims.quietWave Claims.entryFree; decide +kernel
theorem witness_BaddIssues : Due bar0 ∧ execLanes bar0 15 ≠ 0 ∧ Claims.entryFree bar0 ∧ Claims.slotFits bar0 1 ∧ barFull bar0 (Claims.slotNo bar0 1) = false ∧
    (r64 0 10 1 1 0 1 3 3 16).fn.toNat / 16 = 1 ∧ Claims.memCause (sPair64 bar0.wave 10) = none ∧ barFull barMany (Claims.slotNo barMany 1) = true ∧
    Due (many0 bar0) ∧ ¬ Claims.entryFree (many0 bar0) := by
  unfold Due Claims.slotFits Claims.entryFree; decide +kernel
theorem witness_WaitbJudgesThePhase : Issuing bar0 ∧ execLanes bar0 15 ≠ 0 ∧ (Issuing handler0 ∧ inTrap handler0.wave = true) ∧ inTrap bar0.wave = false ∧
    Claims.ObjectAt bar0 (r64 2 0 1 0 1 0 3 0 0) bar0 (Claims.slotNo bar0 1) ∧
    Claims.barErr (readObj barBad (Claims.slotNo barBad 1)).2 ∧ ¬ Claims.barErr (readObj bar0 (Claims.slotNo bar0 1)).2 ∧
    barFull bar0 (Claims.slotNo bar0 1) = false ∧ barFull barMany (Claims.slotNo barMany 1) = true ∧
    Claims.barPhase (readObj bar0 (Claims.slotNo bar0 1)).2 = sGet bar0.wave 2 % 65536 ∧
    Claims.barPhase (readObj bar0 (Claims.slotNo bar0 1)).2 ≠ sGet bar0.wave 4 % 65536 ∧
    (objLocated bar0 0x1000).map (·.2) = some (memObj 0x21000) ∧ Claims.slotNo bar0 1 % 2 = 0 ∧
    (match (locate bar0 bar0.cur 0 0x100000).2 with | .bad c => c != 0 | _ => false) = true := by
  unfold Issuing Due Claims.ObjectAt Claims.slotFits Claims.quietWave Claims.barErr
  refine ⟨by decide, by decide, by decide, by decide, ⟨by decide, .inl ⟨by decide, rfl, by decide, rfl⟩⟩, ?_⟩
  decide +kernel
theorem test_waitb : after (.waitb64 (r64 4 0 1 0 1 0 3 0 0)) bar0 (fun t => (sGet t.wave 4, t.wave.waits.length)) = some (9, 0) ∧
    after (.waitb64 (r64 2 0 1 0 1 0 3 0 0)) bar0 (fun t => (t.wave.waits.map (·.lanes), Claims.barWaiters (t.bench.readN 32 32))) = some ([15], 1) ∧
    causeOf (.waitb64 (r64 4 0 1 0 1 0 3 0 0)) barBad = some (some 0x204) := by decide +kernel
/-- `m0` with tag 2 of die 0 owned by interface 0 with EXPECT 2, a crew bound or not, and what has arrived. -/
def tagged (bound arrived : Nat) : State :=
  { m0 with tags := [(2, { owner := some 0, expect := 2, bound := 1, arrived := arrived })], crews := smMod m0.crews {} 0 (fun c => { c with bound := bound }) }
/-- The same with one crew expected. -/
def released1 : State := { tagged 4 0 with tags := [(2, { owner := some 0, expect := 1, bound := 1 })] }
/-- The same of a set of both dies. -/
def pkgTagged (arrived : Nat) : State :=
  let g : Tag := { owner := some 0, pkg := true, expect := 2, bound := 1, arrived := arrived }
  { tagged 4 0 with tags := [(2, g), (10, g)] }
theorem witness_RouteTagsBindAndFree : let n := fun s => getTag s 0 2
    Issuing m0 ∧ execLanes m0 15 ≠ 0 ∧ (n m0).owner = none ∧ (r64 2 0 3 0 2 0 3 0 0).fn.getLsbD 0 = false ∧ (r64 2 0 3 0 2 0 3 0 2).fn.getLsbD 1 = true ∧
    (getTag (pkgTagged 0) 1 2).owner.isSome = true ∧ (getTag (pkgTagged 0) 1 2).expect ≠ 3 ∧ (getTag (pkgTagged 0) 1 2).pkg = true ∧
    ((n m0).bound + 0 + 1 ≤ 3 ∧ ¬ (n m0).bound + 0 + 1 ≤ 0) ∧ (n (tagged 0 0)).owner = some m0.wave.vif ∧ (n (tagged 0 0)).expect = 2 ∧ (n (tagged 0 0)).bound + 1 ≤ 2 ∧
    (n (tagged 4 0)).owner = some 0 ∧ (getCrew (tagged 4 0) 0).bound.testBit 2 = true ∧ (getCrew (tagged 0 0) 0).bound.testBit 2 = false ∧
    ((n { m0 with tags := [(2, { owner := some 5, expect := 2 })] }).owner = some 5 ∧ 5 ≠ m0.wave.vif) ∧
    (r64 2 0 0 0 2 0 0 0 1).fn.getLsbD 0 = true ∧ (n (tagged 4 0)).arrived < (n (tagged 4 0)).expect - 1 ∧ (n (tagged 4 0)).pkg = false ∧
    (n (tagged 4 1)).expect - 1 ≤ (n (tagged 4 1)).arrived ∧ (n released1).expect ≤ 1 ∧
    (∀ s ∈ [tagged 4 0, pkgTagged 0], ∀ w ∈ (getCrew s 0).slots, tagLanes (getWave s w) 2 = 0) := by
  unfold Issuing Due; decide
theorem test_bart : after (.bart64 (r64 2 0 3 0 2 0 3 0 0)) m0 (fun t => ((getTag t 0 2).owner, (getTag t 0 2).expect, (getTag t 0 2).bound, (getCrew t 0).bound)) =
      some (some 0, 3, 1, 4) ∧
    after (.bart64 (r64 2 0 0 0 2 0 0 0 1)) (tagged 4 0) (fun t => ((getTag t 0 2).expect, (getTag t 0 2).bound, (getCrew t 0).bound)) = some (1, 0, 0) := by decide
theorem witness_WaitbTagParksAndArrives : let s := tagged 4 0
    let s1 : State := { s with wave := parkPath s.wave (.tag 2) }
    let both : State := { s with wave := { s.wave with k := [(0, 0xFF)] } }
    Issuing s ∧ execLanes s 15 ≠ 0 ∧ inTrap s.wave = false ∧ (getCrew s 0).bound.testBit 2 = true ∧ (getCrew m0 0).bound.testBit 2 = false ∧
    (crewParked s1 0 2 = true ∧ crewParked s 0 2 = false) ∧ crewParked { both with wave := parkPath both.wave (.tag 2) } 0 2 = false ∧
    (getTag s 0 2).pkg = false ∧ (getTag s 0 2).arrived + 1 < (getTag s 0 2).expect ∧ (getTag (tagged 4 1) 0 2).expect ≤ (getTag (tagged 4 1) 0 2).arrived + 1 ∧
    (let t := pkgTagged 1
     crewParked { t with wave := parkPath t.wave (.tag 2) } 0 2 = true ∧ (getTag t 0 2).pkg = true ∧ (getTag t 1 2).owner.isSome = true ∧
       (getTag t 0 2).expect ≤ (getTag t 0 2).arrived + 1 + (getTag t 1 2).arrived) := by
  unfold Issuing Due; decide
theorem test_waitb_tag_arrives : after (.waitbTag64 (r64 2 0 0 0 2 0 0 0 0)) (tagged 4 0) (fun t => ((getTag t 0 2).arrived, t.wave.waits.map (·.on))) =
    some (1, [.tag 2]) ∧
    after (.waitbTag64 (r64 2 0 0 0 2 0 0 0 0)) (tagged 4 1) (fun t => ((getTag t 0 2).arrived, (getTag t 0 2).round, (getTag t 0 2).releasing)) =
    some (0, 1, true) := by decide
theorem witness_GrowAndShrinkComplete : let tight : State := { m0 with waves := [(1, { status := .running, gran := 1018 })] }
    Claims.growRow (.grow32 ⟨false, 15, 0, 4⟩) wave0 = some (15, 8) ∧ execLanes m0 15 ≠ 0 ∧ Issuing m0 ∧ m0.wave.gran < 8 ∧ asks m0 0 = [] ∧
    (getCrew m0 0).spilled = false ∧ (∀ k ∈ m0.wave.conts, k.cond ≠ .grow) ∧ 8 - m0.wave.gran ≤ granFree m0 0 ∧ granFree tight 0 < 8 - tight.wave.gran ∧
    asks tight 0 = [] ∧ Claims.growRow (.grow64 (r64 0 0 3 0 0 0 3 0 1)) wave0 = some (15, 3) ∧ 3 ≤ m0.wave.gran ∧
    Claims.growRow (.grow32 ⟨false, 15, 0, 29⟩) wave0 = some (15, 33) ∧ 32 < 33 ∧
    Claims.shrinkRow (.shrink32 ⟨false, 15, 0, 1⟩) wave0 = some (15, 3) ∧ smWf 0 m0.wave.v = true ∧
    Claims.shrinkRow (.shrink32 ⟨false, 15, 0, 4⟩) wave0 = some (15, 0) ∧ Claims.shrinkRow (.shrink64 (r64 0 0 9 0 0 0 3 0 1)) wave0 = some (15, 9) := by
  unfold Issuing Due; decide
theorem test_grow_and_shrink : after (.grow32 ⟨false, 15, 0, 4⟩) m0 (fun t => t.wave.gran) = some 8 ∧
    after (.shrink32 ⟨false, 15, 0, 3⟩) { m0 with wave := { wave0 with v := [(32, 7), (256, 9)] } } (fun t => (t.wave.gran, t.wave.v)) = some (1, [(32, 7)]) ∧
    causeOf (.shrink32 ⟨false, 15, 0, 4⟩) m0 = some (some 9) := by decide

/-- `m0` whose crew has tiles, convergence registers (0: threads 0 to 3; 1: 0 to 7), and records: BF16 operands A and B of one K-step, two
states, an A of three K-steps. -/
def mat0 : State :=
  { m0 with crews := smMod m0.crews {} 0 (fun c => { c with
      benchSize := 65536, tiles := [0, 1], cvs := [0, 1, 2], obs := [0, 1, 2, 3, 4]
      cv := [(0, { first := 0, count := 4 }), (1, { first := 0, count := 8 })]
      ob := [(0, { set := true, w0 := 0x20000000, w1 := 1 }), (1, { set := true, w0 := 0x20002000, w1 := 0x4001 }),
        (2, { set := true, w0 := 0x4000, w1 := 0x8019 }), (3, { set := true, w0 := 0x6000, w1 := 0x8019 }),
        (4, { set := true, w0 := 0x20008000, w1 := 3 })] }) }
/-- RSV of record 5: FP16, one K-step, as A, 44 units. -/
def rsv0 : F64P := ⟨r64 0xA4 0 0 0 2 0 0 0 0, 0x31600000, 1, 0, 0⟩
/-- The same not aligned; and `mat0` with a record that holds 511 units, and a sparse one. -/
def rsvFar : F64P := { rsv0 with w0 := 0x31600080 }
def mat1 : State :=
  { mat0 with crews := smMod mat0.crews {} 0 (fun c => { c with
      ob := [(0, { set := true, w0 := 0x20000000 + 511 * 2 ^ 19, w1 := 1 }), (1, { set := true, w0 := 0x20000000, w1 := 0x2001 })] }) }
theorem words_of_rsv : Claims.rsvWords mat0 (Claims.rsvRec mat0 rsv0) ∧ Claims.rsvWords mat0 (Claims.rsvRec mat0 rsvFar) ∧
    Claims.rsvWords mat1 (Claims.rsvRec mat1 rsv0) := by unfold Claims.rsvWords; decide +kernel
theorem witness_MatrixDeclarationsComplete : (Claims.rsvWords mat0 (Claims.rsvRec mat0 rsv0) ∧ Claims.rsvWords mat0 (Claims.rsvRec mat0 rsvFar) ∧
      Claims.rsvWords mat1 (Claims.rsvRec mat1 rsv0)) ∧
    Issuing mat0 ∧ execLanes mat0 15 ≠ 0 ∧ mat0.wave.shadow = false ∧ ({ wave0 with shadow := true } : Wave).shadow = true ∧
    Claims.unitsOk mat0 [] [] [rsv0.r.d.toNat % 32] ∧ recRange (Claims.rsvRec mat0 rsv0) (getCrew mat0 0).benchSize = false ∧
    recRange (Claims.rsvRec mat0 rsvFar) (getCrew mat0 0).benchSize = true ∧
    freeRun (usedUnits mat0 0 0 4) (recObn (Claims.rsvRec mat0 rsv0)) = some 0 ∧
    freeRun (usedUnits mat1 0 0 4) (recObn (Claims.rsvRec mat1 rsv0)) = none ∧ Claims.unitsOk mat0 [] [2] [] ∧
    (0 < 4 ∧ 0 + 4 ≤ (getCrew mat0 0).threads ∧ (getCrew mat0 0).threads < 0 + 5) ∧ (Claims.cvOf mat0 2).signed = 0 ∧ (Claims.cvOf mat0 2).arm = [] := by
  refine ⟨words_of_rsv, ?_⟩
  unfold Issuing Due Claims.unitsOk; decide +kernel
/-- `mat0` whose register 0 has been signed by thread 1; which is not declared; with credit 15. -/
def signed0 : State := { mat0 with crews := smMod mat0.crews {} 0 (fun c => { c with cv := [(0, { first := 0, count := 4, signed := 2 }), (1, { first := 1, count := 8 })] }) }
def credit15 : State := { mat0 with crews := smMod mat0.crews {} 0 (fun c => { c with cv := [(0, { first := 0, count := 4, credit := 15 })] }) }
def armed0 : State := { mat0 with crews := smMod mat0.crews {} 0 (fun c => { c with cv := [(0, { first := 0, count := 4, arm := [{ w := 0, seq := 3 }] })] }) }
theorem witness_SignClosesRounds : Issuing mat0 ∧ execLanes mat0 15 = 15 ∧ mat0.wave.shadow = false ∧ Claims.unitsOk mat0 [] [0] [] ∧ Claims.unitsOk mat0 [] [1] [] ∧
    mat0.wave.idx < 32 ∧ (Claims.cvOf mat0 2).count = 0 ∧ (Claims.cvOf mat0 0).count ≠ 0 ∧
    (∀ l < 4, Claims.declared (Claims.cvOf mat0 0) (Claims.threadOf mat0 l) ∧ (Claims.cvOf mat0 0).signed.getLsbD (Claims.threadOf mat0 l) = false) ∧
    (∀ t < 4, Claims.declared (Claims.cvOf mat0 0) t) ∧ ¬ Claims.declared (Claims.cvOf mat0 0) 4 ∧ Claims.declared (Claims.cvOf mat0 1) 7 ∧
    (Claims.cvOf signed0 0).signed.getLsbD 1 = true ∧ ¬ Claims.declared (Claims.cvOf signed0 1) 0 ∧ (Claims.cvOf mat0 0).credit < 15 ∧
    (Claims.cvOf credit15 0).credit = 15 ∧ (Claims.cvOf credit15 0).arm = [] ∧ (Claims.cvOf armed0 0).arm ≠ [] := by
  unfold Issuing Due Claims.unitsOk Claims.declared; decide +kernel
theorem test_sign : after (.sign32 ⟨false, 15, 0, 0, false⟩) mat0 (fun t => ((Claims.cvOf t 0).round, (Claims.cvOf t 0).credit, (Claims.cvOf t 0).signed)) = some (1, 1, 0) ∧
    after (.sign32 ⟨false, 15, 0, 0, false⟩) armed0 (fun t => ((getCore t 0).engine.map (·.seq), (Claims.cvOf t 0).credit)) = some ([3], 0) ∧
    causeOf (.sign32 ⟨false, 15, 0, 0, false⟩) signed0 = some (some 0x282) ∧ causeOf (.sign32 ⟨false, 15, 1, 0, false⟩) signed0 = some (some 0x284) ∧
    causeOf (.sign32 ⟨false, 15, 0, 0, false⟩) credit15 = some (some 0x286) := by decide +kernel
/-- MMA of tile 0 by records 0 and 1 on register 0; MDRAIN of its first element as FP32 to bench 64; LSTREAM and LSGRAD on state 2. -/
def mma0 : F64R := r64 0x80 0xA0 0xA1 0x60 2 2 2 2 18
def drain0 : F64P := ⟨r64 0x80 8 0 0 2 1 0 0 0, 0x10000, 0, 0, 0⟩
def lstream0 : F64P := ⟨r64 0x80 0xA0 0xA1 0xA2 2 2 2 2 18, 0x40000000, 0x02000001, 0x3F800000, 0⟩
def lsgrad0 : F64P := ⟨r64 0x80 0xA0 0xA1 0xA2 2 2 2 2 18, 0x40000000, 0, 0x3F800000, 0x3F800000⟩
/-- `mat0` whose states agree with those instructions: L is 1.0 in state 2, and state 3 is the shard behind it. -/
def states0 : State := { mat0 with bench := [(0x4006, 0x80), (0x4007, 0x3F), (0x6006, 0x80), (0x6007, 0x3F), (0x6008, 1), (0x600A, 1)] }
/-- The causes of checks, in their order, as a test. -/
def meetsB : Claims.Checks → Nat → Bool
  | [], _ => false
  | g :: rest, c => (g.any (fun e => e.1 && e.2 == c) && g.all (fun e => !e.1 || decide (c ≤ e.2))) || (g.all (fun e => !e.1) && meetsB rest c)
theorem meets_of : ∀ (l : Claims.Checks) (c : Nat), meetsB l c = true → Claims.Meets l c
  | [], _, h => by simp [meetsB] at h
  | g :: rest, c, h => by
    simp only [meetsB, Bool.or_eq_true, Bool.and_eq_true, List.any_eq_true, List.all_eq_true, beq_iff_eq, Bool.not_eq_true',
      decide_eq_true_eq] at h
    rcases h with ⟨⟨e, he, h1, h2⟩, h3⟩ | ⟨h1, h2⟩
    · refine Or.inl ⟨⟨e, he, h1, h2⟩, fun e' he' h' => ?_⟩
      rcases h3 e' he' with h | h
      · rw [h] at h'; cases h'
      · exact h
    · exact Or.inr ⟨h1, meets_of rest c h2⟩
/-- The operation, its crew and its words pass the checks, and the wave has a replay entry where it needs one. -/
def TileReady (i : Instr) : Prop :=
  ∃ r, Claims.tileRow i states0 = some r ∧ r.vregs ≤ 8 * states0.wave.gran ∧ r.form ∧ Claims.Clear (Claims.unitChecks states0 r.tiles [] r.obs ++ r.checks) ∧
    Claims.entryFree states0
theorem witness_TileOperationsIssue : Due states0 ∧ execLanes states0 15 ≠ 0 ∧ states0.wave.shadow = false ∧
    (Claims.Clear (Claims.unitChecks states0 [0] [0] [0, 1] ++ [Claims.setChecks [Claims.obOf states0 0, Claims.obOf states0 1],
        Claims.pairChecks (Claims.obOf states0 0) (Claims.obOf states0 1) 18, [(decide (8 ≤ (Claims.cvOf states0 0).arm.length), 0x285), ((Claims.cvOf states0 0).count == 0, 0x28C)]]) ∧
      recSparse (Claims.obOf states0 0) = false ∧ (Claims.cvOf states0 0).credit = 0 ∧ (Claims.cvOf credit15 0).credit ≠ 0) ∧
    (recSparse (Claims.obOf (many0 mat1) 1) = true ∧ ¬ Claims.entryFree (many0 mat1)) ∧
    TileReady (.mbyp64 (r64 0x80 0xA4 0 0 2 2 0 0 0)) ∧ TileReady (.rstat64 (r64 8 0x80 0 0 0 2 0 0 0)) ∧ TileReady (.mdrain64 drain0) ∧
    TileReady (.lstream64 lstream0) ∧ TileReady (.lsmerge64 (r64 0xA2 0xA3 0 0 2 2 0 0 0)) ∧ TileReady (.lsgrad64 lsgrad0) := by
  unfold Due Claims.Clear
  refine ⟨by decide, by decide +kernel, by decide, by decide +kernel, ?_, ?_⟩
  · unfold Claims.entryFree; decide +kernel
  · refine ⟨?_, ?_, ?_, ?_, ?_, ?_⟩ <;>
      (refine ⟨_, rfl, ?_⟩; dsimp only; unfold Claims.Clear Claims.entryFree; decide +kernel)
/-- The operation is well formed and meets cause `c`. -/
def TileMeets (s : State) (i : Instr) (c : Nat) : Prop :=
  ∃ r, Claims.tileRow i s = some r ∧ r.form ∧ r.vregs ≤ 8 * s.wave.gran ∧ Claims.Meets (Claims.unitChecks s r.tiles [] r.obs ++ r.checks) c
/-- `mat0` with a bench of 96 bytes; with a pair that is not canonical; with every tracker taken; with eight operations armed. -/
def small0 : State := { mat0 with crews := smMod mat0.crews {} 0 (fun c => { c with benchSize := 96 }) }
def skew0 : State := { mat0 with wave := { mat0.wave with s := [(8, 0x40), (9, 0x01000000)] } }
def tracked0 : State := { mat0 with bars := (List.range 64).map (fun i => (2 * i + 200, { tracked := true, work := 1 })) }
def armed8 : State := { mat0 with crews := smMod mat0.crews {} 0 (fun c => { c with cv := [(0, { first := 0, count := 4, arm := List.replicate 8 { w := 0, seq := 3 } })] }) }
theorem witness_TileOperationsFault :
    (TileMeets mat0 (.mdrain64 { drain0 with w1 := 0x13F }) 0x287 ∧ TileMeets mat0 (.mdrain64 { drain0 with w0 := 0x1FFFC, w1 := 0x100 }) 0x101 ∧
      TileMeets small0 (.mdrain64 { drain0 with w3 := 0x43 }) 0x101 ∧ TileMeets tracked0 (.mdrain64 { drain0 with w3 := 0x43 }) 0x207 ∧
      TileMeets skew0 (.mdrain64 { drain0 with r := r64 0x80 8 0 0 2 1 0 0 8 }) 0x104) ∧
    (TileMeets mat0 (.mbyp64 (r64 0x82 0xA4 0 0 2 2 0 0 0)) 0x287 ∧ TileMeets mat0 (.mbyp64 (r64 0x80 0xA5 0 0 2 2 0 0 0)) 0x289 ∧
      TileMeets mat1 (.mbyp64 (r64 0x80 0xA2 0 0 2 2 0 0 0)) 0x289 ∧ TileMeets mat0 (.mbyp64 (r64 0x80 0xA0 0 0 2 2 0 0 0)) 0x281) ∧
    TileMeets mat0 (.lstream64 { lstream0 with r := r64 0x80 0xA0 0xA1 0xA2 2 2 2 2 0 }) 0x281 ∧
    TileMeets mat0 (.lstream64 { lstream0 with r := r64 0x80 0xA0 0xA1 0xA4 2 2 2 2 18 }) 0x281 ∧ TileMeets mat0 (.lsmerge64 (r64 0xA2 0xA3 0 0 2 2 0 0 0)) 0x28B ∧
    TileMeets states0 (.lsgrad64 { lsgrad0 with w0 := 0x41000000 }) 0x287 := by
  refine ⟨⟨?_, ?_, ?_, ?_, ?_⟩, ⟨?_, ?_, ?_, ?_⟩, ?_, ?_, ?_, ?_⟩ <;>
    (refine ⟨_, rfl, ?_, ?_, meets_of _ _ ?_⟩ <;> dsimp only <;> decide +kernel)
/-- Reserved bits, a register beyond the allocation, and MMA's own causes. -/
theorem witness_TileOperationsMalformed : Issuing mat0 ∧ (∃ r, Claims.tileRow (.mdrain64 { drain0 with w0 := 0x110000 }) mat0 = some r ∧ ¬ r.form) ∧
    (∃ r, Claims.tileRow (.rstat64 (r64 27 0x80 0 0 0 2 0 0 0)) mat0 = some r ∧ r.form ∧ 8 * mat0.wave.gran < r.vregs) ∧
    Claims.Meets (Claims.unitChecks mat0 [0] [3] [0, 1]) 0x287 ∧ (Claims.cvOf mat0 2).count = 0 ∧ 8 ≤ (Claims.cvOf armed8 0).arm.length ∧
    Claims.Meets [Claims.pairChecks (Claims.obOf mat0 0) (Claims.obOf mat0 0) 18] 0x281 := by
  refine ⟨by unfold Issuing Due; decide, ⟨_, rfl, by dsimp only; decide +kernel⟩, ⟨_, rfl, trivial, by decide⟩, meets_of _ _ (by decide +kernel), by decide, by decide,
    meets_of _ _ (by decide +kernel)⟩

/-- Commands on `mat0`: a copy of 64 bytes from 0x1000 to bench 0x40, record 0's panel from 0x1000, one row of four FP32 gathered, and pooled. -/
def cpy0 : F64P := ⟨r64 0 10 8 0 0 1 1 0 1, 0x40, 0, 0, 0⟩
def plane0 : F64P := ⟨r64 0xA0 10 0 0 2 1 0 0 1, 0, 0x2000, 0, 0⟩
def gather0 : F64P := ⟨r64 10 10 8 4 1 1 1 1 0, 3, 0x10, 0, 0⟩
def pool0 : F64P := ⟨r64 10 10 8 4 1 1 1 1 0, 3, 0x10, 0x10000, 0⟩
def full0 : State := { mat0 with cores := [(0, { chan := [(1, List.replicate 16 { w := 5 })] })], gathers := [(0, List.replicate 64 { w := 5 })] }
/-- The command and its words pass the checks; or are well formed and meet cause `c`. -/
def CopyReady (i : Instr) : Prop := ∃ r, Claims.copyRow i mat0 = some (r, 1) ∧ r.form ∧ Claims.Clear (Claims.unitChecks mat0 [] [] r.obs ++ r.checks)
def GatherReady (i : Instr) : Prop := ∃ r, Claims.gatherRow i mat0 = some r ∧ r.form ∧ Claims.Clear r.checks
def CopyMeets (s : State) (i : Instr) (c : Nat) : Prop :=
  ∃ r, Claims.copyRow i s = some (r, 1) ∧ r.form ∧ Claims.Meets (Claims.unitChecks s [] [] r.obs ++ r.checks) c
def GatherMeets (s : State) (i : Instr) (c : Nat) : Prop := ∃ r, Claims.gatherRow i s = some r ∧ r.form ∧ Claims.Meets r.checks c
theorem witness_EngineCommandsIssue : Due mat0 ∧ execLanes mat0 15 ≠ 0 ∧ Claims.entryFree mat0 ∧ Claims.entryFree full0 ∧ ¬ Claims.entryFree (many0 mat0) ∧
    ((smGet (getCore mat0 0).chan [] 1).length < Config.channelDepth ∧ Config.channelDepth ≤ (smGet (getCore full0 0).chan [] 1).length ∧
     (smGet mat0.gathers [] 0).length < Config.gatherDepth ∧ Config.gatherDepth ≤ (smGet full0.gathers [] 0).length) ∧
    (CopyReady (.cpy64 cpy0) ∧ CopyReady (.plane64 plane0)) ∧ GatherReady (.gather64 gather0) ∧ GatherReady (.pool64 pool0) := by
  unfold Due Claims.entryFree
  refine ⟨by decide, by decide, by decide, by decide, ?_, by decide, ⟨?_, ?_⟩, ?_, ?_⟩
  · decide
  all_goals (refine ⟨_, rfl, ?_, ?_⟩ <;> dsimp only <;> (try unfold Claims.Clear) <;> decide +kernel)
/-- A bench too small; a base that is not canonical; no tracker free; a length out of range; a record not set, a state's; reserved bits. -/
theorem witness_EngineCommandsFault :
    (CopyMeets { small0 with crews := smMod small0.crews {} 0 (fun c => { c with benchSize := 127 }) } (.cpy64 cpy0) 0x101 ∧
      CopyMeets { mat0 with wave := { mat0.wave with s := [(8, 0x40), (11, 0x01000000)] } } (.cpy64 cpy0) 0x104 ∧
      CopyMeets tracked0 (.cpy64 { cpy0 with w3 := 0x43 }) 0x207 ∧ CopyMeets mat0 (.cpy64 { cpy0 with w0 := 0 }) 0x208) ∧
    (CopyMeets mat1 (.plane64 { plane0 with r := r64 0xA2 10 0 0 2 1 0 0 1 }) 0x289 ∧ CopyMeets mat0 (.plane64 { plane0 with r := r64 0xA2 10 0 0 2 1 0 0 1 }) 0x281) ∧
    (GatherMeets { small0 with crews := smMod small0.crews {} 0 (fun c => { c with benchSize := 0 }) } (.gather64 gather0) 0x101 ∧
      GatherMeets tracked0 (.gather64 { gather0 with w3 := 0x43 }) 0x207) ∧
    (∃ r, Claims.copyRow (.cpy64 { cpy0 with w2 := 1 }) mat0 = some (r, 1) ∧ ¬ r.form) ∧
    ∃ r, Claims.gatherRow (.gather64 { gather0 with w3 := 0x200 }) mat0 = some r ∧ ¬ r.form := by
  refine ⟨⟨?_, ?_, ?_, ?_⟩, ⟨?_, ?_⟩, ⟨?_, ?_⟩, ⟨_, rfl, by dsimp only; decide +kernel⟩,
    ⟨_, rfl, by dsimp only; decide +kernel⟩⟩ <;> (refine ⟨_, rfl, ?_, meets_of _ _ ?_⟩ <;> dsimp only <;> decide +kernel)

/-! ### Collective contexts, tasks, system operations at issue -/

/-- A member, with its key leaf 0; one of this pod, whose number is not known. -/
def memberIn (pod die : Nat) : BitVec 64 := BitVec.ofNat 64 (pod * 2 ^ 52 + die * 2 ^ 42)
def member (die : Nat) : BitVec 64 := memberIn Config.ownPod.toNat die
theorem member_in (pod die : Nat) (hp : pod < 4096) (hd : die < 1024) : memPod (memberIn pod die) = pod ∧ memDie (memberIn pod die) = die ∧
    natBits (memberIn pod die).toNat 41 0 = 0 ∧
    natBits (memberIn pod die).toNat 41 21 = 0 ∧ memKeyM (memberIn pod die) = 0 ∧ memKeyJ (memberIn pod die) = 0 := by
  simp only [memPod, memDie, memKeyM, memKeyJ, memberIn, natBits, BitVec.toNat_ofNat]; omega
theorem member_fields (die : Nat) (h : die < 1024) : memHere (member die) = true ∧ memDie (member die) = die ∧
    natBits (member die).toNat 41 0 = 0 ∧ natBits (member die).toNat 41 21 = 0 ∧ memKeyM (member die) = 0 ∧ memKeyJ (member die) = 0 := by
  obtain ⟨a, b, c⟩ := member_in _ die Config.ownPod.isLt h
  exact ⟨beq_iff_eq.2 a, b, c⟩
/-- `m0` with a descriptor of one member at 0x200, whose table, at 0x400, has a reserved bit; s12 names the descriptor. -/
def coll0 : State :=
  { m0 with mem := [(0x10008, 1), (0x1000E, 1), (0x10012, 2), (0x1001A, 3), (0x20200, 1), (0x20209, 4), (0x20403, 1)]
            wave := { wave0 with s := [(2, 9), (8, 0x40), (10, 0x1000), (12, 0x200)] } }
def start0 : F64R := r64 0 10 0 12 0 1 3 1 0
def desc0 : BitVec 512 := BitVec.ofNat 512 (1 + 4 * 2 ^ 72)
/-- The context as its descriptor stands loaded. -/
def ctxDesc : Context := { getCtx (Claims.ctxBegins coll0 start0) 0 with desc := desc0 }
theorem table_of_one (x : Context) (hm : x.members = [member 0]) (hk : keyM x = 0) : tableCause x 0 = none := by
  obtain ⟨h, d, -, e⟩ := member_fields 0 (by decide)
  simp [tableCause, rankOf, hm, hk, ctxDie, h, d, e, keyRange, List.zipIdx, List.eraseDups, List.eraseDupsBy, List.eraseDupsBy.loop]
/-- The answer is this value. -/
def okIs {α : Type} [DecidableEq α] (r : Except Nat α) (x : α) : Bool := match r with | .ok y => decide (y = x) | .error _ => false
theorem ok_of {α : Type} [DecidableEq α] {r : Except Nat α} {x : α} (h : okIs r x = true) : r = .ok x := by
  cases r with
  | ok y => exact congrArg Except.ok (of_decide_eq_true h)
  | error c => cases h
theorem witness_CollectiveInstructionsComplete : Issuing coll0 ∧ execLanes coll0 15 ≠ 0 ∧ 15 < sOrImm coll0.wave 3 16 ∧ Claims.ctxMine coll0 start0 ∧
    ¬ Claims.ctxMine { coll0 with part := [(0, BitVec.ofNat 2048 (0x10000 * 2 ^ 256 + 2 ^ 320 + 2 ^ 352))] } start0 ∧
    (let n := Claims.ctxNamed coll0 start0
     Claims.statusState (getCtx coll0 n) = 0 ∧ (∀ st < 4, Claims.statusState { status := BitVec.ofNat 32 (st * 2 ^ 30) } = st) ∧ sPair64 coll0.wave 10 % 16 = 0 ∧
     sPair64 coll0.wave 12 % 64 = 0 ∧ canonical (sPair64 coll0.wave 10) = true ∧ canonical (sPair64 coll0.wave 12) = true ∧ 0x1008 % 16 ≠ 0 ∧
     canonical (2 ^ 60) = false) ∧
    (let r := readVirt (Claims.ctxBegins coll0 start0) 0 0 0x200 64
     let y := ctxDesc
     (match r.2 with | .ok l => decide (BitVec.ofNat 512 (bytesNat l) = desc0) | .error _ => false) = true ∧
     descOk y = true ∧ hasFeature coll0 0 (if arrival y then 7 else 6) = true ∧ descBytes y 8 8 = 0x400 ∧ nmem y = 1 ∧
     (match (readVirt (modCtx r.1 0 (fun _ => y)) 0 0 0x400 8).2 with
      | .ok b => tableCause { y with members := [BitVec.ofNat 64 (bytesAt (bytesNat b) 0 8)] } 0 == some 0x303
      | .error _ => false) = true) ∧
    tableCause { ctxDesc with members := [member 0] } 0 = none ∧
    isOk (readVirt (Claims.ctxBegins coll0 start0) 0 0 0x100000 64).2 = false ∧
    isOk (readVirt (modCtx (Claims.ctxBegins coll0 start0) 0 (fun _ => ctxDesc)) 0 0 0x100000 8).2 = false ∧ descOk { ctxDesc with desc := 0 } = false :=
  ⟨⟨rfl, rfl⟩, by decide, by decide, by unfold Claims.ctxMine; decide +kernel, by unfold Claims.ctxMine; decide +kernel, by decide +kernel, by decide +kernel,
    table_of_one _ rfl (by decide +kernel), by decide +kernel⟩
/-- `m0` with task 5 VALID with one predecessor, and node 3, of records of 2 words, batches of 4, in a store of 64 units at 0x800; ring 0
loaded both. -/
def tasks0 : State :=
  { m0 with tasks := [(5, BitVec.ofNat 256 (2 ^ 31 + 1))], nodes := [(3, BitVec.ofNat 256 (2 * 2 ^ 64 + 4 * 2 ^ 96))]
            taskUnits := [(0, { store := 0x800, units := 64, nodeRing := [(3, 1)] })] }
/-- The same with lane 0 alone live, and a batch of the node open. -/
def batch0 : State :=
  { tasks0 with wave := { wave0 with k := [(0, 1)] }, taskUnits := [(0, { store := 0x800, units := 64, nodeRing := [(3, 1)], batches := [{ bin := 3, count := 1, units := 3 }] })] }
theorem witness_TaskInstructionsComplete : Claims.phaseRow (.phase32 ⟨false, 15, 5⟩) tasks0 = some (15, 5) ∧ Issuing tasks0 ∧ execLanes tasks0 15 ≠ 0 ∧
    (5 < 2 ^ 17 ∧ (getTask tasks0 0 5).testBit 31 = true ∧ (getTask tasks0 0 6).testBit 31 = false) ∧ 32 < 8 * tasks0.wave.gran + 1 ∧
    getNode tasks0 0 4 / 2 ^ 64 % 256 = 0 ∧ getNode tasks0 0 3 / 2 ^ 64 % 256 = 2 ∧ 8 * tasks0.wave.gran < 31 + 2 ∧ 30 + 2 ≤ 8 * tasks0.wave.gran ∧
    (match appendAll tasks0 0 3 [(0, 1), (1, 2), (2, 3), (3, 4)] with | some (_, []) => true | _ => false) = true ∧
    (appendAll { tasks0 with taskUnits := [] } 0 3 [(0, 1)]).isNone = true ∧
    (match appendAll { tasks0 with taskUnits := [(0, { store := 0x100000, units := 64, nodeRing := [(3, 1)] })] } 0 3 [(0, 1)] with | some (_, [(0, _)]) => true | _ => false) = true ∧
    unitsStopped tasks0 0 = false ∧ unitsStopped { tasks0 with ifaces := [(0, { frozen := true, exempt := 1 })] } 0 = true ∧
    entriesUsed tasks0 0 < Config.replayLimit ∧ Config.replayLimit ≤ entriesUsed (many0 tasks0) 0 ∧
    (let u := getUnit batch0 0
     let w (s : State) (a : Nat) : Except Nat Unit := (writeVirt { s with taskUnits := smSet s.taskUnits {} 0 (putBatch u { bin := 3, count := 2, units := 3 }) } 0 0
       (((a + 16 * 0) % 2 ^ 64 + 16 + 1 * (4 * 2)) % 2 ^ 64) false (natBytes 8 7)).2
     (openBatch u 3).isSome = true ∧ (lanesOf (execLanes batch0 15)).length = 1 ∧ isOk (w batch0 u.store) = true ∧ isOk (w batch0 0x100000) = false ∧
       1 + 1 < getNode batch0 0 3 / 2 ^ 96 % 65536) := by
  unfold Issuing Due; decide +kernel
theorem test_spawn : after (.spawn64 (r64 0 1 3 0 0 0 3 0 0)) batch0 (fun t => (homeRead (flushL2 t 0 0x410) 0x20818 8)) = some (7 + 5 * 2 ^ 32) := by decide +kernel
/-- `m0` whose interface has a system operation in progress. -/
def busy0 : State := { m0 with ifaces := [(0, { sysop := some {} })] }
def sys0 : State := { m0 with wave := { wave0 with s := [(4, 0xFFFFFFFF), (10, 0x10000)] } }
theorem witness_SystemOperationsBegin : let f := r64 8 10 4 0 0 1 1 0 0
    let s := sys0
    Claims.sysRow (.vacate64 f) s = some (f, 0, 0xFFFFFFFF, true) ∧ Claims.sysRow (.freeze64 f) s = some (f, 1, 0xFFFFFFFF, true) ∧
    Claims.sysRow (.thaw64 f) s = some (f, 2, 0, true) ∧ Claims.sysRow (.vacate64 (r64 8 10 0 0 0 1 3 0 0)) s = some (r64 8 10 0 0 0 1 3 0 0, 0, 0, false) ∧
    Issuing s ∧ execLanes s 15 ≠ 0 ∧ (getIface busy0 0).sysop.isSome = true ∧ (getIface s 0).sysop.isNone = true ∧
    ¬ Claims.areaOk s 0 0x1000 1 ∧ ¬ Claims.areaOk s 1 0x10000 1 ∧ Claims.areaOk s 1 0x10000 0xFFFFFFFF ∧ s.cur ∉ (getCrew s 7).slots := by
  unfold Claims.areaOk
  refine ⟨?_, ?_, ?_, ?_, ⟨rfl, rfl⟩, ?_⟩ <;> decide +kernel

/-! ### Steps of the machine's own: arbiter, memory, coherence, errors, objects, tags, waits -/

/-- `m0`'s wave at the header of a stroke of one TRAP at 0x1000. -/
def arb0 : State :=
  { m0 with wave := { wave0 with pathA := {}, lane := [(0, { pc := 0x1000 }), (1, { pc := 0x1000 }), (2, { pc := 0x1000 }), (3, { pc := 0x1000 })] }
            mem := [(0x10008, 1), (0x1000E, 1), (0x10012, 2), (0x1001A, 3), (0x21000, 7), (0x21002, 255), (0x21003, 255), (0x21004, 15), (0x21008, 0xF0),
              (0x21009, 0x0B), (0x2100B, 0xBC)] }
def late0 : State := { arb0 with wave := { arb0.wave with starved := 256 } }
def four0 : State := { arb0 with waves := (List.range 4).map (fun i => (i + 1, { wave0 with crew := 1 })) }
/-- `arb0` in depth-first mode, its wave of the second batch of a node with SP, and passed over before; beside other waves. -/
def deep0 (l : SMap Wave) : State :=
  { arb0 with wave := { arb0.wave with passed := true }, waves := l, nodes := [(3, BitVec.ofNat 256 (2 ^ 80))], crews := arb0.crews ++ [(1, { launch := 9, slots := [1] })]
              pkgs := [(0, { launches := [{ batch := some (0, 3, 7) }] })], taskUnits := [(0, { depthFirst := true, batches := [{ bin := 3, num := 6 }] })] }
theorem witness_ArbitrationStartsStrokes : portFree arb0 0 = true ∧ overdue arb0 0 = none ∧ arbiterChoice arb0 0 (readyWaves arb0 0) = some 0 ∧
    spHeld arb0 0 = false ∧ (spHeld (deep0 []) 0 = true ∧ overdue (deep0 []) 0 = none ∧ arbiterChoice (deep0 []) 0 (readyWaves (deep0 []) 0) = some 0 ∧
      (getWave (deep0 []) 0).passed = true ∧ readyWaves (deep0 []) 0 = [0]) ∧
    (let s := deep0 [(1, { arb0.wave with crew := 1 })]
     spHeld s 0 = true ∧ arbiterChoice s 0 (readyWaves s 0) = some 0 ∧ arbiterChoice s 0 ((readyWaves s 0).erase 0) = some 1 ∧ spHeld s 1 = false) ∧
    overdue late0 0 = some 0 ∧ portFree four0 0 = false ∧
    (match startGroups arb0 0 with
      | [g] => (match pathFor arb0 0 g with | .ok p => p.count == 1 && p.fall == 0x1010 | .error _ => false)
      | _ => false) = true ∧
    (match pathFor arb0 0 { pc := 0x1004 } with | .ok _ => false | .error e => e.1 == 5) = true ∧ (getWave arb0 0).status = .running ∧
    (let s : State := { arb0 with wave := { arb0.wave with conts := [{ lanes := 15, pc := 0x1008, head := 0x1000, cond := .replay }, { lanes := 1, pc := 0x1000, head := 0x1000 }] } }
     condMet s 0 .replay = true ∧ condMet s 0 .now = true ∧ s.wave.conts.length = 2) := by decide +kernel
/-- `m0` with an operation on the bench, of lane 0 at 0x40 (bytes 0x40 on hold 9 and 0xFF), in its own kinds. -/
def lane40 (data : Nat) : LaneAcc := { lane := 0, addr := 0x40, data := data, stage := .ready 0x40 0 0 0 }
def opOf (k : OpKind') (counter data : Nat) : Op := { id := 5, kind := k, counter := counter, space := 1, sz := 4, scope := 1, d := 5, lanes := [lane40 data] }
def opState (o : Op) : State := { m0 with ops := [o], bench := [(0x40, 9), (0x41, 0xFF)], wave := { wave0 with ld := 1, st := 1 } }
/-- The operation may be performed on the bench. -/
def BenchReady (o : Op) : Prop := Claims.BenchOp (opState o) o ∧ performable (opState o) o = true ∧ loadable (opState o) o = true
/-- The step's operation may be performed; or may not. -/
def DueAt (ev : Instr) (s : State) (o : Op) : Prop := ∃ id due does, Claims.performRow ev s = some (id, due, does) ∧ getOp s id = some o ∧ due o
def NotDueAt (ev : Instr) (s : State) (o : Op) : Prop := ∃ id due does, Claims.performRow ev s = some (id, due, does) ∧ getOp s id = some o ∧ ¬ due o
def fenceOp : Op := { id := 5, kind := .fence, order := 1, scope := 3 }
def devlOp : Op := { id := 5, kind := .devl, lanes := [lane40 0] }
theorem witness_MemoryOperationsPerform :
    (BenchReady (opOf .load 1 0) ∧ BenchReady (opOf .store 2 7) ∧ BenchReady (opOf .atom 1 7) ∧ BenchReady (opOf .red 2 7)) ∧
    (DueAt (.loadDataReturn 5) (opState (opOf .load 1 0)) (opOf .load 1 0) ∧ DueAt (.storePerformed 5) (opState (opOf .store 2 7)) (opOf .store 2 7) ∧
      DueAt (.storePerformed 5) (opState (opOf .badd 2 7)) (opOf .badd 2 7) ∧ DueAt (.atomResultReturn 5) (opState (opOf .atom 1 7)) (opOf .atom 1 7) ∧
      DueAt (.fenceComplete 5) (opState fenceOp) fenceOp ∧ DueAt (.devlPerformed 5) (opState devlOp) devlOp) ∧
    (NotDueAt (.loadDataReturn 5) (opState (opOf .store 2 7)) (opOf .store 2 7) ∧ NotDueAt (.storePerformed 5) (opState (opOf .load 1 0)) (opOf .load 1 0)) ∧
    (getOp (opState fenceOp) 5 = some fenceOp ∧ unblocked (opState fenceOp) fenceOp = true) ∧ getOp m0 5 = none ∧ 0xFF < 2 ^ (8 * 4) := by
  refine ⟨?_, ?_, ?_, by decide +kernel, by decide, by decide⟩
  · refine ⟨?_, ?_, ?_, ?_⟩ <;>
    exact ⟨⟨rfl, rfl, rfl, rfl, by decide +kernel, by decide, by decide, Or.inl rfl, by decide, fun a ha => by
      simp only [opOf, List.mem_singleton] at ha; subst ha; exact ⟨by decide, by decide +kernel, 0x40, 0, 0, rfl, by decide +kernel⟩⟩, by decide +kernel⟩
  · refine ⟨?_, ?_, ?_, ?_, ?_, ?_⟩ <;> (refine ⟨_, _, _, rfl, rfl, ?_⟩; (try dsimp only); decide +kernel)
  · refine ⟨?_, ?_⟩ <;> (refine ⟨_, _, _, rfl, rfl, ?_⟩; (try dsimp only); decide +kernel)
-- an atomic addition of 7 to 0xFF09 gives the old value back
theorem test_bench_operations : after (.loadDataReturn 5) (opState (opOf .load 1 0)) (fun t => (vGet t.wave 5 0, t.wave.ld, t.ops.length)) = some (0xFF09, 0, 0) ∧
    after (.storePerformed 5) (opState (opOf .store 2 7)) (fun t => (t.bench, t.wave.st)) = some ([(0x40, 7)], 0) ∧
    after (.atomResultReturn 5) (opState (opOf .atom 1 7)) (fun t => (vGet t.wave 5 0, t.bench)) = some (0xFF09, [(0x40, 0x10), (0x41, 0xFF)]) := by decide +kernel
/-- A store whose lane lies at an HC region, and the same of another slot; a load of package 4's memory; one that has been answered; a load
with a fault on lane 1. -/
def hcStore : Op := { id := 5, kind := .store, counter := 2, sz := 4, lanes := [{ lane := 0, addr := 0x100, stage := .ready 0x20100 2 0 0 }] }
def hcLater : Op := { hcStore with id := 6, w := 1 }
def farAddr : LaneAcc := { lane := 0, addr := 2 ^ 57 + 0x100 }
def farLoad : Op := { id := 5, kind := .load, counter := 1, sz := 4, space := 3, lanes := [farAddr] }
def farDone : Op := { farLoad with lanes := [{ farAddr with stage := .done }] }
def badLoad : Op := { id := 5, kind := .load, counter := 1, pc := 0x1008, lanes := [{ lane := 0, addr := 0x100 }, { lane := 1, addr := 0x200000, stage := .bad 0x100 }] }
theorem witness_MessagesWalksAndDeferredFaults :
    (∀ o ∈ [hcStore, farLoad, farDone], getOp (opState o) o.id = some o ∧ unblocked (opState o) o = true) ∧ messageDue (opState hcStore) hcStore = true ∧
    messageDue (opState { hcStore with stepped := 1 }) { hcStore with stepped := 1 } = true ∧
    (let s : State := { m0 with ops := [hcStore, hcLater] }
     getOp s 6 = some hcLater ∧ ∀ a ∈ hcLater.lanes, isMessage hcLater a = true ∧ awayLane s hcLater a = false ∧
       sourceRank (unitPkg hcLater a) hcStore < sourceRank (unitPkg hcLater a) hcLater ∧ unitReady s hcStore = true ∧
       (∃ y ∈ hcStore.lanes, laneUnit hcStore y = laneUnit hcLater a) ∧ laneUnit hcLater a ≠ none) ∧
    getOp (opState badLoad) 5 = some badLoad ∧ badLoad.lanes.any isBad = true ∧ (∀ a ∈ badLoad.lanes, isBad a = true → onFabric (opState badLoad) badLoad a = false) ∧
    badLoad.operands = [] ∧ (getWave (opState badLoad) 0).status = .running ∧
    (getWave (opState badLoad) 0).shadow = false ∧ badLoad.lanes.any (fun a => !isBad a) = true ∧ (∀ a ∈ badLoad.lanes, a.stage ≠ .bad 0) ∧
    (getWave (opState badLoad) 0).pathA.on = true ∧
    (let s : State := { opState badLoad with wave := { wave0 with pathA := {} } }
     getOp s 5 = some badLoad ∧ (getWave s 0).pathA.on = false ∧ (getWave s 0).status = .running) ∧
    ([{ seq := 3 }, { seq := 5 }] : List Replay).Pairwise (fun a b => a.seq < b.seq) ∧ (∀ y ∈ ([{ seq := 3 }] : List Replay), y.seq ≠ 4) := by decide +kernel
/-- Remote accesses (R192): package 4's interface of the job maps as interface 0's own does; no rail works; a request and an answer that have
arrived. -/
def farMapped (o : Op) : State := { opState o with part := [(0, part0), (256, part0)] }
def noRails (s : State) : State := { s with ports := (List.range 24).map (fun r => (2 * r, { up := false })) }
def hasRoute (s : State) (die : Nat) (a : LaneAcc) : Bool := (routeTo s die (accessPlace a).1 (accessPlace a).2 [entry 4 29 0 0]).isSome
def landedReq : Packet := { id := 3, kind := .request, cls := 0, index := 5, rank := 0, src := 0, dst := 8, hub := 8, origHub := 8, stack := [entry 4 29 0 0] }
def landedAns : Packet := { id := 3, kind := .response, cls := 1, index := 5, rank := 0, src := 8, dst := 0, hub := 0, origHub := 0, stack := [entry 4 29 0 0] }
def arrived (s : State) (p : Packet) : State := { s with packets := [p] }
theorem witness_RemoteAccesses : canSend (opState farLoad) farLoad farAddr = true ∧ hasRoute (opState farLoad) 0 farAddr = true ∧
    hasRoute (noRails (opState farLoad)) 0 farAddr = false ∧ canSend (noRails (opState farLoad)) farLoad farAddr = true ∧
    (let s := arrived (opState farLoad) landedReq
     canSend s farLoad farAddr = false ∧ landedRequests s farLoad = [landedReq] ∧ untranslated farAddr = true ∧
       remoteXlat s 0 (opAcc .load) farAddr.addr = (s, .bad 0x100) ∧
       (routeTo (setOp s { farLoad with lanes := [{ farAddr with stage := .bad 0x100 }] }) 8 0 0 [entry 4 29 0 0]).isSome = true) ∧
    (let s := arrived (farMapped farLoad) landedReq
     landedRequests s farLoad = [landedReq] ∧ getOp s 5 = some farLoad ∧
     (match remoteXlat s 0 (opAcc .load) farAddr.addr with
     | (u, .ready pa mode pte buf) =>
       let a' : LaneAcc := { farAddr with stage := .ready pa mode pte buf }
       let o' : Op := { farLoad with lanes := [a'] }
       let b := beginOp (setOp u o') o'
       let v := laneRead b.1 (threadOf 0 0) 3 0 (opPolicy farLoad) mode pa 4
       decide (pa = 0x20100) && unblocked (setOp u o') o' && !lanePoisoned b.1 false pa 4 && v.1.packets.contains landedReq &&
         (routeTo (setOp v.1 { b.2 with lanes := [{ a' with stage := .done, data := v.2 }] }) 8 0 0 [entry 4 29 0 0]).isSome
     | _ => false) = true) ∧
    (let s := arrived (opState farDone) landedAns
     getOp s 5 = some farDone ∧ s.packets.filter (fun q => landing farDone .response q && q.hub == waveDie farDone.w) = [landedAns] ∧
       ∀ q ∈ s.packets, accessPacket q = true → q.index = 5 → q.rank = 0 → q.id = 3) := by decide +kernel
/-- A load that waits for a walk, of a page that is mapped (a leaf of 1 GiB), and of one that is not. -/
def walkLoad : Op := { id := 5, kind := .load, counter := 1, sz := 4, lanes := [{ lane := 0, addr := 0x100008, stage := .walking }] }
def walk2 : Walk := { id := 2, va := 0x100000 }
def walking0 (root : Nat) : State :=
  { opState walkLoad with part := [(0, part0 + BitVec.ofNat 2048 root)], walks := [walk2]
                          mem := m0.mem ++ [(0x30000, 1), (0x30001, 0x10), (0x30002, 3), (0x31000, 1), (0x31001, 0x20), (0x31002, 3), (0x32000, 7)] }
theorem witness_PageWalks : ∀ r ∈ [(0x30000, true), (0x38000, false)], let s := walking0 r.1
    let s' : State := { s with walks := s.walks.filter (fun y => y.id != walk2.id) }
    let x := walkFrom s' 0 0 0x100008 (opAcc .load) (ptRoot s' 0) 5
    s.walks.find? (fun y => y.id == walk2.id) = some walk2 ∧ s.walks.any (fun y => y.id == 3) = false ∧ s.ops = [walkLoad] ∧ waveDie walkLoad.w = walk2.die ∧
    (getWave s 0).vif = walk2.vif ∧ (laneVif s 0 0 0x100008).2 / 65536 * 65536 = walk2.va ∧ (laneVif s 0 0 0x100008).2 % 2 ^ 57 = 0x100008 ∧
    isOk x.2 = r.2 ∧ x.1.ops = s'.ops := by decide +kernel

/-- Lines of one set of a cache, in every way. -/
def fullSet (lv u l : Nat) : SMap Line := (List.range 16).map (fun k => (cacheKey lv u (l + k * 8454144), { valid := true, way := k, dirty := 1, data := 7, moesi := 4, writers := 1 }))
/-- Die 1 holds line 0x500 modified; package 3 holds line 0x700 of package 0, and the filter says so; and a line of pooled memory. -/
def shared0 : State :=
  setLine (setLine { m0 with snoop := [(0x700, { holders := [3] })], backInv := [⟨0x700, 3⟩], dieInval := [(0, 0x900)] } 2 1 0x500
    { valid := true, data := 7, dirty := 1, moesi := 4 }) 2 6 0x700 { valid := true, data := 9, dirty := 1, moesi := 4 }
theorem witness_CoherenceStepsKeepTheBytes : (getLine shared0 2 (0 ^^^ 1) 0x500).valid = true ∧ (getLine shared0 2 0 0x500).valid = false ∧
    (0, 0x900) ∈ shared0.dieInval ∧ ((2 : Nat), (0 : Nat), (0x901 : Nat)) ≠ (2, 0, 0x900) ∧
    (let s : State := { m0 with cache := fullSet 2 0 0x500 }
     isVictim s 2 0 0x500 = true ∧ homePkg (0x500 * 128) = 0 / 2) ∧
    isVictim { m0 with cache := fullSet 1 0 0x500 } 1 0 0x500 = true ∧ 3 ∈ holdersOf shared0 0x700 512 ∧ (⟨0x700, 3⟩ : BackInv) ∈ shared0.backInv ∧
    (⟨0x700, 3⟩ : BackInv) ∉ ({ shared0 with backInv := [] } : State).backInv ∧
    (let l := 2 ^ 50 / 128 - 1
     let s := setLine m0 2 1 l { valid := true }
     regionOf (l * 128) = .cxl ∧ (getLine s 2 (2 * 0 + 1) l).valid = true) ∧
    (let l := 2 ^ 50 / 128 - 1
     let s := setLine m0 2 1 l { valid := true, dirty := 1 }
     regionOf (l * 128) = .cxl ∧ (getLine s 2 (0 ^^^ 1) l).dirty ≠ 0 ∧ (getLine s 2 0 l).valid = false) ∧
    (0x900 < 2 ^ 53 ∧ 0 < 131072) := by decide +kernel
/-- A packet of 40 bytes, and a held one; a context whose drain queue has nine elements. -/
def pkt40 : Packet := { id := 3, payload := List.replicate 40 7 }
def held40 : Held := { die := 0, pkt := pkt40 }
def drain9 : Context := { drain := (List.range 9).map (fun i => (i, 0, 0)) }
def struck0 : State := { mat0 with packets := [pkt40], held := [held40], ctxs := [(2, drain9)] }
theorem witness_ErrorsPoisonAndAreLogged : (0x41 : Nat) / 32 ≠ 0x20 / 32 ∧ (getPkg m0 0).errors.length < 4096 ∧ coreVif m0 0 = some 0 ∧
    (getWave struck0 0).status ≠ .absent ∧ (getWave struck0 7).status = .absent ∧
    ((getCrew struck0 0).waves ≠ 0 ∧ 1023 / 512 < (getCrew struck0 0).tiles.length ∧ (getCrew struck0 0).tiles.length ≤ 1024 / 512) ∧
    (pkt40 ∈ struck0.packets ∧ (∀ q ∈ struck0.packets, q.id = pkt40.id → q = pkt40) ∧ 32 * 1 < pkt40.payload.length ∧ ¬ 32 * 2 < pkt40.payload.length) ∧
    struck0.held[0]? = some held40 ∧
    (struck0.ctxs.find? (fun kv => kv.1 == 2) = some (2, drain9) ∧ (∀ kv ∈ struck0.ctxs, kv.1 = 2 → kv.2 = drain9) ∧ 8 * 1 < drain9.drain.length) := by decide +kernel
theorem test_register_and_corrected_errors : after (.uncorrectableError 2 5) m0 (fun t => (t.wave.poison, (getPkg t 0).errors.map (·.kind), (getIface t 0).errors.length)) =
      some ([(5, true)], [.registers], 1) ∧
    after (.correctedError 1 1 9) m0 (fun t => ((getPkg t 0).corrected, (getPkg t 0).errors.map (fun r => (r.kind, r.cls)))) = some (1, [(.vault, .corrected)]) := by decide +kernel
theorem test_uncorrectable_error_poisons : after (.uncorrectableError 0 0x20105) m0 (fun t => (t.poison, (getPkg t 0).errors.map (·.addr))) =
    some ([(0x1008, true)], [0x20105]) := by decide +kernel
/-- The object of `bar0` with arrivals and errors before its counting unit: TARGET 2, PHASE 9; with AUTO and ARRIVED 4; with a wave parked. -/
def counted (b : Barrier) : State := { bar0 with bars := [(2, b)] }
def auto0 : State := { m0 with bench := [(32, 2), (38, 9), (40, 4), (48, 3)], bars := [(2, { tracked := true })] }
def parked0 : State := { counted { tracked := true, parked := [0], arrived := 2 } with wave := { wave0 with waits := [{ lanes := 15, on := .barrier 2 6 }] } }
theorem witness_BarrierCyclesCountAndComplete : cycleDue (counted {}) 2 = false ∧ Claims.IdleBench (counted { arrived := 2 }) 2 ∧ (getBar (counted { arrived := 2 }) 2).arrived ≠ 0 ∧
    (let x := (readObj (counted { arrived := 2 }) 2).2
     Claims.barArmedNow x ∧ Claims.barTarget x ≤ (Claims.barArrived x + 2) % 2 ^ 48 ∧ ¬ Claims.barTarget x ≤ (Claims.barArrived x + 1) % 2 ^ 48) ∧
    ((getBar parked0 2).error = 0 ∧ (getBar parked0 2).parked = [0] ∧ (getWave parked0 0).waits = [{ lanes := 15, on := .barrier 2 6 }] ∧
      ¬ Claims.barErr (readObj parked0 2).2 ∧ (getBar parked0 2).arrived ≠ 0) ∧
    (let s : State := { parked0 with bench := smSet parked0.bench 0 46 1 }
     Claims.barWaiters (readObj s 2).2 = 1 ∧ (getBar s 2).parked.length = 1 ∧ (getBar s 2).parked.Nodup ∧ (getBar s 2).error = 0 ∧ (getBar s 2).arrived ≠ 0 ∧
       ¬ Claims.barErr (readObj s 2).2 ∧ Claims.barTarget (readObj s 2).2 ≤ (Claims.barArrived (readObj s 2).2 + 2) % 2 ^ 48) ∧
    (let s : State := { parked0 with bars := [(2, { tracked := true, parked := [0], error := 0x204 })] }
     (getBar s 2).error = 0x204 ∧ (getBar s 2).arrived = 0 ∧ ∀ w ∈ (getBar s 2).parked, (getWave s w).status ≠ .absent ∧ (getWave s w).status ≠ .ended ∧ (getWave s w).shadow = false) ∧
    ((getBar (counted { error := 0x204 }) 2).error = 0x204 ∧ (getBar (counted { error := 0x204 }) 2).parked = [] ∧ (getBar (counted { error := 0x204 }) 2).arrived = 0) ∧
    (Claims.IdleBench auto0 2 ∧ (getBar auto0 2).arrived = 0 ∧ (getBar auto0 2).tracked = true ∧ Claims.barAuto (readObj auto0 2).2 ∧
      Claims.barArmedNow (readObj auto0 2).2 ∧ Claims.barTarget (readObj auto0 2).2 ≤ Claims.barArrived (readObj auto0 2).2) := by
  unfold Claims.IdleBench Claims.barErr Claims.barAuto Claims.barArmedNow; decide +kernel
theorem test_barrier_completes : after (.barrierCountingCycle 2) parked0 (fun t => (sGet t.wave 6, t.wave.waits, Claims.barPhase (readObj t 2).2)) = some (10, [], 10) ∧
    after (.barrierAutoRecomplete 2) auto0 (fun t => (Claims.barPhase (readObj t 2).2, Claims.barArrived (readObj t 2).2)) = some (10, 2) := by decide +kernel
/-- A crew on tag 2 that has released its lanes; a wave that waits for its bench word at 0x40, or its memory word at 0x100, to differ from 9. -/
def released0 : State := { tagged 4 0 with tags := [(2, { owner := some 0, expect := 1, bound := 1, releasing := true })], wave := { wave0 with waits := [{ lanes := 15, on := .tag 10 }] } }
def wait9 (space addr timeout : Nat) (rr : Bool) : Wait :=
  { lanes := 15, pc := 0x1008, on := .value { addr := addr, space := space, pa := addr, cmp := 9, timeout := timeout, d := 6, reread := rr } }
def watch9 (space addr timeout : Nat) (rr : Bool) : Watch := { addr := addr, space := space, pa := addr, cmp := 9, timeout := timeout, d := 6, reread := rr }
def waiting0 (y : Wait) : State := { m0 with bench := [(0x40, 9)], wave := { wave0 with pathA := {}, waits := [y] } }
theorem witness_WaitsEndAsTheirEventsCome : (getTag released0 0 2).releasing = true ∧ (getTag released0 0 2).pkg = false ∧ (getTag m0 0 2).releasing = false ∧
    (∀ x ∈ [(1, 0x40, 0, false), (0, 0x100, 3, true)],
      Claims.WaitsFor (waiting0 (wait9 x.1 x.2.1 x.2.2.1 x.2.2.2)) 0 0 (wait9 x.1 x.2.1 x.2.2.1 x.2.2.2) (watch9 x.1 x.2.1 x.2.2.1 x.2.2.2)) ∧
    okIs (rereadWait (waiting0 (wait9 1 0x40 0 false)) 0 (watch9 1 0x40 0 false)).2 9 = true ∧
    okIs (rereadWait (waiting0 (wait9 0 0x100 3 true)) 0 (watch9 0 0x100 3 true)).2 42 = true ∧
    (let s : State := { waiting0 (wait9 1 0x40 0 false) with benchPoison := [(2, true)] }
     isOk (rereadWait s 0 (watch9 1 0x40 0 false)).2 = false ∧ (rereadWait s 0 (watch9 1 0x40 0 false)).1.wave.late = [] ∧ s.wave.status = .running ∧ s.wave.pathA.on = false ∧ s.wave.pathB.on = false ∧ s.cur = 0) := by
  unfold Claims.WaitsFor; decide +kernel

/-! ### Steps of a core's units and of the front end -/

/-- Crew 0's wave asks for 4 granules of core 0: granted; with no room left; the same beside crew 1 of a later launch; crew 0 spilled. -/
def ask0 : GrowReq := { w := 0, n := 4, pc := 0x1010, head := 0x1000 }
def grow0 : State :=
  { m0 with cores := [(0, { grow := [ask0] })], wave := { wave0 with pathA := {}, conts := [{ lanes := 15, pc := 0x1008, head := 0x1000, slot := some 0, cond := .grow }] } }
def full1 : State := { grow0 with waves := [(1, { status := .running, crew := 5, gran := 1018 })] }
def grower2 : Wave := { status := .running, crew := 2, gran := 4, v := [(5, 6)], k := [(0, 1)], conts := [{ lanes := 1, cond := .grow, slot := some 0 }] }
def crews2 : State :=
  { full1 with crews := m0.crews ++ [(1, { slots := [], idx := 1 }), (2, { launch := 1, slots := [2], waves := 1 })]
               waves := [(1, { status := .running, crew := 5, gran := 1014 }), (2, grower2)] }
def spilled0 : State :=
  { m0 with crews := smMod m0.crews {} 0 (fun c => { c with spilled := true, blocks := [(0, 1)] })
            wave := { wave0 with pathA := {}, status := .spilled, gran := 1, v := [] }, mem := m0.mem ++ [(0x10000300004, 7)] }
theorem witness_AllocatorGrantsSpillsAndRestores : asks m0 0 = [] ∧ asks grow0 0 = [.grow ask0] ∧ (getCrew grow0 (getWave grow0 0).crew).spilled = false ∧
    ask0.n ≤ granFree grow0 0 ∧ stepping (getWave grow0 0) = false ∧ granFree full1 0 < ask0.n ∧ asks full1 0 = [.grow ask0] ∧
    (let u := allocPass full1 0
     (unspilled u 0).length = 1 ∧ growStall u 0 = true ∧ (∀ k ∈ unspilled u 0, ∀ w ∈ k.2.slots, waitLanes (getWave u w) = 0)) ∧ growStall m0 0 = false ∧
    (growStall crews2 0 = true ∧ (unspilled crews2 0).map (·.1) = [0, 2] ∧ (∀ k ∈ unspilled crews2 0, crewRank k.2 ≤ 2 ^ 32) ∧
      writesVectors crews2 (getCrew crews2 2) = false ∧ writesVectors { crews2 with ops := [{ w := 2 }] } (getCrew crews2 2) = true) ∧
    (asks spilled0 0 = [.restore 0 1] ∧ 1 ≤ granFree spilled0 0 ∧ isOk (loadGran spilled0 0 0 (getCrew spilled0 0).blocks).2 = true ∧
      (getWave (loadGran spilled0 0 0 (getCrew spilled0 0).blocks).1 0).status = .spilled ∧
      granFree { spilled0 with waves := [(1, { status := .running, crew := 5, gran := 1024 })] } 0 < 1) := by decide +kernel
/-- A wave whose second GROW the first has left beyond its limit; a spilled crew that a halted wave holds; a crew with commands to issue again. -/
def ask29 : GrowReq := { ask0 with n := 29 }
def over0 : State := { grow0 with cores := [(0, { grow := [ask29] })] }
def haltedSpill : State := { spilled0 with wave := { spilled0.wave with status := .halted 0x100 0 } }
theorem witness_AllocatorRefusals : asks over0 0 = [.grow ask29] ∧ (getCrew over0 (getWave over0 0).crew).spilled = false ∧ ask29.n ≤ granFree over0 0 ∧
    granLimit (getWave over0 0) < (getWave over0 0).gran + ask29.n ∧ (getWave over0 0).status = .running ∧ (getWave over0 0).shadow = false ∧
    granLimit (getWave grow0 0) = 32 ∧ (getWave grow0 0).gran + ask0.n ≤ 32 ∧ growStall grow0 0 = false ∧
    crewHalted spilled0 (getCrew spilled0 0) = false ∧ crewHalted haltedSpill (getCrew haltedSpill 0) = true ∧ asks haltedSpill 0 = [.restore 0 1] ∧
    (0 ∈ (getCrew full1 0).slots ∧ (getCrew full1 0).slots.Nodup ∧ (∀ k ∈ (getWave full1 0).conts, k.cond = .grow) ∧ (getWave full1 0).conts ≠ [] ∧
      (getWave full1 0).status = .running ∧ (getWave full1 0).shadow = false) := by decide +kernel
theorem test_restore : after (.spillRestore 0 0) spilled0 (fun t => (t.wave.status, vGet t.wave 0 1)) = some (.running, 7) := by decide +kernel
/-- A wave of crew 0 that has ended beside another of its crew; entries on their way to a wave whose QMAP names code 1 at q0. -/
def ended0 : State := { m0 with wave := { wave0 with status := .ended, pathA := {} }, crews := smMod m0.crews {} 0 (fun c => { c with slots := [0, 1] }) }
def entry0 (q : SMap (List (BitVec 1024))) : State := { m0 with wave := { wave0 with qmap0 := 1, q := q, eng := 1 }, entries := [{ w := 0, code := 1, lowersEng := true }] }
theorem witness_SlotsAndEntriesAreReleased : (getWave ended0 0).status = .ended ∧ waveBusy ended0 0 = false ∧ (getWave ended0 0).partner = none ∧
    (getCrew ended0 0).cancelled = [] ∧ (getCrew ended0 0).slots.erase 0 ≠ [] ∧
    (let s : State := { ended0 with crews := smMod ended0.crews {} 0 (fun c => { c with cancelled := [{}] }) }
     (getWave s 0).status = .ended ∧ (getCrew s (getWave s 0).crew).cancelled ≠ []) ∧ (getWave m0 0).status ≠ .ended ∧
    (∀ i < 16, qmapCode m0.wave i ≠ 1) ∧ qmapCode (entry0 []).wave 0 = 1 ∧ (smGet (entry0 []).wave.q [] 0).length < 8 ∧
    8 ≤ (smGet (entry0 [(0, List.replicate 8 0)]).wave.q [] 0).length ∧ (entry0 []).wave.status ≠ .absent ∧ (entry0 []).wave.status ≠ .ended := by decide +kernel
/-- Copy commands at the head of channel 1: not started; started; with a block in; and cut through. -/
def cmd0 : Command := { instr := .cpy64 ⟨r64 0 10 8 0 0 1 1 0 1, 0x40, 0, 0, 0⟩, w0 := 0x40, va := 0x100, vb := 0x80 }
def cmdSlot : Command := { cmd0 with w3 := 0x41, instr := .cpy64 ⟨r64 0 10 8 0 0 1 1 0 17, 0x40, 0, 0, 0⟩, started := true, delivered := 64 }
def chan0 (c : Command) : State := { m0 with cores := [(0, { chan := [(1, [c, { cmd0 with id := 9 }])] })], wave := { wave0 with cpy := 2 } }
theorem witness_CopyChannelsMoveTheirBytes : Claims.Head (chan0 cmd0) 0 1 cmd0 ∧ cmd0.started = false ∧
    (let c := { cmd0 with started := true }
     Claims.Head (chan0 c) 0 1 c ∧ c.delivered < cmdTotal c ∧ isPlane c = false ∧ cmdOut c = false ∧ cmdCut c = false ∧ (cmdCopy c).wm = false ∧
     isOk (readStream (chan0 c) c (getCrew (chan0 c) c.crew).vif 0 0 64).2 = true ∧ cmdClobbers (chan0 c) c 0x80 64 = false) ∧
    (let c := { cmd0 with started := true, delivered := 64 }
     Claims.Head (chan0 c) 0 1 c ∧ cmdTotal c ≤ c.delivered ∧ blockIn c = some 64 ∧ c.refetched = false ∧ blockIn { c with refetched := true } = some 64) ∧
    (Claims.Head (chan0 cmdSlot) 0 1 cmdSlot ∧ blockIn cmdSlot = some 64 ∧ cmdCut cmdSlot = true ∧ (cmdCopy cmdSlot).bv = true ∧
      (crewSlot (getCrew m0 0) (cmdCopy cmdSlot).slot).isSome = true) ∧
    (let c := { cmd0 with started := true, delivered := 64, verified := 64 }
     Claims.Head (chan0 c) 0 1 c ∧ cmdTotal c ≤ c.verified) ∧
    (let c := { cmd0 with started := true, instr := .cpy64 ⟨r64 0 10 8 0 0 1 1 0 9, 0x40, 0, 0, 0⟩ }
     Claims.Head (chan0 c) 0 1 c ∧ c.delivered < cmdTotal c ∧ isPlane c = false ∧ cmdOut c = true ∧ (cmdCopy c).wm = false ∧
       (writeStream (chan0 c) c (getCrew (chan0 c) c.crew).vif 0 0 64).2 = (64, none)) ∧ headCmd m0 0 1 = none := by unfold Claims.Head; decide +kernel
/-- `cmd0` with a mirror word at bench 0x60, a block in; a wave that waits for the object there; cut through. -/
def mirror0 : Command := { cmd0 with w3 := 0x40006000, started := true, delivered := 64 }
def mirrorWaited (c : Command) : State := { chan0 c with bench := [(0x6E, 1)], bars := [(6, { tracked := true })] }
def mirrorCut : Command := { mirror0 with instr := .cpy64 ⟨r64 0 10 8 0 0 1 1 0 17, 0x40, 0, 0, 0⟩ }
theorem witness_MirrorWords : Claims.Head (chan0 mirror0) 0 1 mirror0 ∧ blockIn mirror0 = some 64 ∧ (cmdCopy mirror0).wm = true ∧ (cmdCopy mirror0).bv = false ∧
    cmdCut mirror0 = false ∧ mirrorClobbers (chan0 mirror0) mirror0 = false ∧ mirrorClobbers (mirrorWaited mirror0) mirror0 = true ∧
    live (getWave (mirrorWaited mirror0) 0) ≠ 0 ∧ (getWave (mirrorWaited mirror0) 0).status = .running ∧
    (Claims.Head (chan0 mirrorCut) 0 1 mirrorCut ∧ blockIn mirrorCut = some 64 ∧ cmdCut mirrorCut = true ∧
      mirrorClobbers (placePos (unverified (chan0 mirrorCut) mirrorCut) 0 1 mirrorCut mirrorCut.verified true) mirrorCut = false) := by
  unfold Claims.Head; decide +kernel
theorem test_mirror_and_retraction :
    after (.copyBlockVerified 0 1) (chan0 mirror0) (fun t => (t.bench.readN 0x60 8, Claims.wptrPos (getWptr t 0 1))) = some (0xC0, 0xC0) ∧
    after (.chanTagFail 0 1) (chan0 mirrorCut) (fun t => (getWptr t 0 1).getLsbD 31) = some true := by decide +kernel
/-- An MMA of one K-step of INT8 operands (a single product of 3 and −2 in cell 1, 2) and an RSTAT at the head of core 0's engine. -/
def intA : ObRec := { set := true, w0 := 0x40000000, w1 := 1 }
def intB : ObRec := { set := true, w0 := 0x40001000, w1 := 0x4001 }
def int0 (o : TileOp) : State :=
  { mat0 with cores := [(0, { engine := [o] })], wave := { wave0 with tile := 1 }
              bench := [(3, 1), (0xC3, 1)] ++ (List.range 7).map (fun i => (0x10C0 + 0xC0 * i, 4)) }
def mmaOp : TileOp := { instr := .mma64 (r64 0x80 0xA0 0xA1 0x60 2 2 2 2 36), ra := intA, rb := intB, lanes := 15 }
def rstatOp : TileOp := { instr := .rstat64 (r64 8 0x80 0 0 1 2 0 0 3), lanes := 15, operands := [8, 0, 0, 0] }
/-- Operations of crew 0 at the head of core 0's engine: a BF16 MMA, a sparse one whose masks are zero, drains, a by-pass, RSTAT of rows. -/
def opAt (i : Instr) (l : List Nat) : TileOp := { instr := i, lanes := 15, operands := l, ra := Claims.obOf mat0 0, rb := Claims.obOf mat0 1, rc := Claims.obOf mat0 2 }
def mmaFp : TileOp := opAt (.mma64 mma0) []
def mmaSparse : TileOp := { mmaFp with ra := { set := true, w0 := 0x20000000, w1 := 0x2001 } }
def drainOp (w0 : Word) (dst addr : Nat) : TileOp := opAt (.mdrain64 { drain0 with w0 := w0, r := r64 0x80 8 0 0 2 1 0 0 (8 * dst) }) [0, addr, 0, 0]
def mbypOp : TileOp := { opAt (.mbyp64 (r64 0x80 0xA4 0 0 2 2 0 0 0)) [] with ra := Claims.obOf mat0 4 }
def rstatRows : TileOp := { rstatOp with instr := .rstat64 (r64 8 0x80 0 0 0 2 0 0 0) }
/-- `int0` with a wave that waits for the object at bench offset `b`. -/
def waitedAt (o : TileOp) (b : Nat) : State := { int0 o with bench := [(b + 14, 1)], bars := [(2 * (b / 32), { tracked := true })] }
theorem drain_bytes (k : Nat) (e : Nat × Nat × Nat) (n : Nat) : (List.replicate k e).foldl (fun n e => n + fmtBytes e.2.1) n = n + k * fmtBytes e.2.1 := by
  induction k generalizing n with
  | zero => simp
  | succ k ih => rw [List.replicate_succ, List.foldl_cons, ih]; rw [Nat.succ_mul]; omega
theorem witness_EnginesRunTheirOperations : (getCore m0 0).engine = [] ∧
    (∀ o ∈ [mmaOp, mmaFp, mmaSparse, drainOp 0x10000 0 0x40, mbypOp, rstatOp, rstatRows], (getCore (int0 o) 0).engine = [o] ∧ o.tile < 32) ∧
    smWf 0 (getCrew (int0 mmaOp) mmaOp.crew).cell = true ∧
    (badMask (int0 mmaOp) (getCrew (int0 mmaOp) 0) mmaOp.ra = false ∧ fmtFloat (recFmt mmaOp.ra) = false ∧ fmtFloat (recFmt mmaFp.ra) = true ∧
      badMask (int0 mmaSparse) (getCrew (int0 mmaSparse) 0) mmaSparse.ra = true) ∧
    (faultWave (int0 mmaSparse) 0 0 = some 0 ∧ (getWave (int0 mmaSparse) 0).status = .running ∧ (getWave (int0 mmaSparse) 0).shadow = false ∧
      faultWave { int0 mmaSparse with wave := { wave0 with k := [] } } 0 0 = none) ∧
    (tileInt (getCrew mat0 0) 0 = false ∧ drainInt 10 = true ∧ drainInt 1 = false ∧
      (let d := drainOf { drain0 with w0 := 0x10000 }
       d.dst = 0 ∧ d.ncols * fmtBytes d.ofmt ≤ d.stride ∧ (∀ e ∈ drainOffsets d, spanClobbers (int0 mmaFp) (getCrew mat0 0) (0x40 + e.2.2) 4 = false) ∧
         ∃ e ∈ drainOffsets d, spanClobbers (waitedAt mmaFp 0x40) (getCrew mat0 0) (0x40 + e.2.2) 4 = true) ∧
      (latentCause (int0 mmaFp) 0 0 0x100 4 = none ∧ (latentCause (int0 mmaFp) 0 0 0x100000 4).isSome = true ∧ (getCrew mat0 0).cellPoison = []) ∧
      (vifPkg 0 = 0 ∧ (partField mat0 0 88 4).testBit 0 = true ∧ (partField { mat0 with part := [] } 0 88 4).testBit 0 = false ∧ drainBytes [] + 4 ≤ 65536)) ∧
    ((∀ st < 3, spanClobbers (int0 mbypOp) (getCrew mat0 0) (recBase mbypOp.ra + st * recStride mbypOp.ra) (panelBytes 1 1536) = false) ∧
      spanClobbers (waitedAt mbypOp 0x8000) (getCrew mat0 0) (recBase mbypOp.ra + 0 * recStride mbypOp.ra) (panelBytes 1 1536) = true) ∧
    ((r64 8 0x80 0 0 1 2 0 0 3).fn.getLsbD 0 = true ∧ live (getWave (int0 rstatOp) 0) ≠ 0 ∧ (r64 8 0x80 0 0 0 2 0 0 0).fn.getLsbD 0 = false) := by decide +kernel
theorem witness_FullDrainQueue : 65536 < drainBytes (List.replicate 16384 (0, 1, 0)) + 1 * 1 * 4 := by unfold drainBytes; rw [drain_bytes]; decide
/-- Logit operations on state 2: a stream that begins and one that goes on, a merge, a gradient; a block with a candidate on its sheet, whose
record has no room for it. -/
def streamOp (init : Bool) : TileOp := opAt (.lstream64 { lstream0 with w1 := if init then 0x02000001 else 1 }) []
def mergeOp : TileOp := opAt (.lsmerge64 (r64 0xA2 0xA3 0 0 2 2 0 0 0)) []
def gradOp : TileOp := opAt (.lsgrad64 lsgrad0) []
def tight0 (o : TileOp) : TileOp := { o with rc := { set := true, w0 := 0x4000, w1 := 0x8001 } }
def sheet0 (o : TileOp) : State := { int0 o with bench := [(0x400C, 1), (0x400E, 1), (0x4048, 1)] }
theorem witness_LogitOperations : (∀ o ∈ [streamOp true, streamOp false, mergeOp, gradOp], (getCore (int0 o) 0).engine = [o] ∧ o.resumed = false) ∧ mat0.benchPoison = [] ∧
    ((lsRecOf { lstream0 with w1 := 1 }).init = false ∧ (lsRecOf { lstream0 with w1 := 0x02000001 }).init = true) ∧
    (lsClobbers (int0 mergeOp) (getCrew mat0 0) mergeOp.rc = false ∧ lsClobbers (waitedAt mergeOp 0x4000) (getCrew mat0 0) mergeOp.rc = true) ∧
    (orphan (int0 mergeOp) mergeOp = false ∧ lsUsed (readLs (int0 mergeOp) (getCrew mat0 0) mergeOp.rc) ≤ sheetCap mergeOp.rc ∧
      sheetCap (tight0 mergeOp).rc < lsUsed (readLs (sheet0 mergeOp) (getCrew mat0 0) (tight0 mergeOp).rc)) ∧
    (let d := readLs (sheet0 mergeOp) (getCrew mat0 0) (tight0 mergeOp).rc
     let rs := (d.rows.zip d.rows).zipIdx.map (fun e => if e.2 < d.nrows then mergeRow d e.1.1 e.1.2 else (e.1.1, 0))
     sheetCap (tight0 mergeOp).rc < lsUsed { d with rows := rs.map (·.1) }) := by decide +kernel
/-- A POOL of one bag whose offsets 0 and 1 are in order, and are not; a GATHER of one row of four FP32, in range, from memory that is not
mapped, and beyond LIMIT. -/
def gatherCmd (limit addr : Nat) : Command := { instr := .gather64 gather0, w0 := 3, w1 := 0x10, vd := limit, va := addr, vb := 0x100, vc := 0x40 }
def poolCmd : Command := { gatherCmd 4 0x100 with instr := .pool64 pool0, w2 := 0x10000 }
def engine0 (c : Command) (first : Nat) : State := { m0 with gathers := [(0, [c])], bench := if first = 0 then [(0x108, 1)] else [(0x104, 2), (0x108, 1)] }
theorem witness_GatherPoolEngines : (smGet (engine0 (gatherCmd 4 0x100) 0).gathers [] 0)[0]? = some (gatherCmd 4 0x100) ∧ (smGet m0.gathers [] 0)[0]? = none ∧
    (cmdGather (gatherCmd 4 0x100)).dsp = false ∧ badOffsets (engine0 (gatherCmd 4 0x100) 0) (getCrew m0 0) (gatherCmd 4 0x100) = false ∧
    badOffsets (engine0 poolCmd 0) (getCrew m0 0) poolCmd = false ∧ badOffsets (engine0 poolCmd 2) (getCrew m0 0) poolCmd = true ∧
    isOk (gatherRows (engine0 (gatherCmd 4 0x100) 0) (getCrew m0 0) 0 (gatherCmd 4 0x100) {} 0 1).2 = true ∧
    isOk (gatherRows (engine0 (gatherCmd 4 0x100000) 0) (getCrew m0 0) 0 (gatherCmd 4 0x100000) {} 0 1).2 = false ∧
    isOk (poolBags (engine0 poolCmd 0) (getCrew m0 0) 0 poolCmd {} 0 1).2 = true ∧
    (gatherCmd 0 0x100).vd ≤ cRead (engine0 (gatherCmd 0 0x100) 0) (getCrew m0 0) 0x100 4 ∧ isOk (writeOut (engine0 poolCmd 0) (getCrew m0 0) 0 (gatherCmd 0 0x100) 0 16 0 false).2 = true ∧
    isOk (engReadN (engine0 poolCmd 0) 0 0 0 0x100 16).2 = true ∧
    isOk (bagSum (engine0 poolCmd 0) (getCrew m0 0) 0 poolCmd (List.replicate 4 (2 ^ 31, 0)) false {} 0 1).2 = true := by decide +kernel

/-- `m0` with ring 0 at 0x4000, its control block at 0x600, and a packet at its start, in lines that die 0 caches. -/
def held (l x : Nat) : Nat × Line := (cacheKey 2 0 l, { valid := true, data := BitVec.ofNat 1024 x })
def ring0 (p head : Nat) : State :=
  { m0 with rings := [(0, { configured := true, base := 0x4000, size := 4096, ctl := 0x600 })], cache := [held 0x402 (42 + 7 * 2 ^ 64 + 2 ^ 286), held 0x40C head, held 0x480 p] }
/-- One crew of 40 threads with 4 granules and 256 bytes of bench at 0x1000; the entry at 0x100 as task 5; an empty node 5, store 0x800;
42 to 0x100; and 0x100 to reach 42. -/
def pLaunch : Nat := 1 + 2 ^ 32 + 2 ^ 48 + 2 ^ 64 + 40 * 2 ^ 80 + 4 * 2 ^ 96 + 2 ^ 112 + 0x1000 * 2 ^ 128 + 0x1234 * 2 ^ 256
def pTasks : Nat := 2 + 5 * 2 ^ 32 + 0x100 * 2 ^ 64
def pNodes : Nat := 3 + 5 * 2 ^ 32 + 0x140 * 2 ^ 64 + 0x800 * 2 ^ 128 + 64 * 2 ^ 192
def pEvent : Nat := 4 + 0x100 * 2 ^ 64 + 42 * 2 ^ 128 + 2 ^ 8
def pWaitv (v : Nat) : Nat := 5 + 0x100 * 2 ^ 64 + v * 2 ^ 128
/-- The front end finds packet `p` at TAIL 0 of ring 0, whose turn it is. -/
def turns (p : Nat) : Bool := let s := ring0 p 64; (match (lookRing s 0).2 with | .packet q t => q == p && t == 0 | _ => false) && ringTurn s 0 == some 0
theorem witness_RingPacketsAreTaken : (∀ p ∈ [pLaunch, pTasks, pNodes, pEvent, pWaitv 42, 7, pLaunch + 2 ^ 11, pTasks + 65535 * 2 ^ 48, pTasks + 2 ^ 69, pNodes - 2 ^ 70, pTasks + 2 ^ 84, pEvent + 2 ^ 192, pWaitv 42 + 2 ^ 8], turns p = true) ∧
    (match (lookRing { ring0 pLaunch 64 with rings := [(0, { configured := true, base := 0x4000, size := 4096, ctl := 0x100000 })] } 0).2 with | .lost _ => true | _ => false) = true ∧
    (match (lookRing { ring0 pLaunch 64 with rings := [(0, { configured := true, base := 0x100000, size := 4096, ctl := 0x600 })] } 0).2 with | .unread 0 => true | _ => false) = true ∧
    (match (lookRing (ring0 pLaunch 32) 0).2 with | .straddle 0 => true | _ => false) = true ∧
    (let u (p : Nat) : State := (lookRing (ring0 p 64) 0).1
     launchReason (u pLaunch) 0 pLaunch = none ∧ launchReason (u (pLaunch + 2 ^ 11)) 0 (pLaunch + 2 ^ 11) = some 1 ∧
     (match (readImage (u pTasks) 0 (pk pTasks 8 8) (pk pTasks 6 2 + 1)).2 with | .ok l => l.length == 1 && !l.any badTask && l.any badNode | .error _ => false) = true ∧
     (match (readImage (u (pTasks + 2 ^ 69)) 0 0x120 1).2 with | .ok l => l.any badTask | .error _ => false) = true ∧
     (match (readImage (u pNodes) 0 (pk pNodes 8 8) (pk pNodes 6 2 + 1)).2 with | .ok l => l == [0] | .error _ => false) = true ∧
     isOk (readImage (u (pTasks + 2 ^ 84)) 0 0x100100 1).2 = false ∧
     (match (frontRead (u (pWaitv 42)) 0 0x100 8).2 with | .ok w => w == 42 | .error _ => false) = true) ∧
    Claims.tablePacketOk pTasks 65536 16 ∧ ¬ Claims.tablePacketOk (pTasks + 65535 * 2 ^ 48) 65536 16 ∧ Claims.tablePacketOk pNodes 4096 28 ∧ pk (pWaitv 42) 1 7 = 0 ∧
    pk (pWaitv 42) 24 40 = 0 ∧ pk pEvent 2 6 = 0 ∧ pk pEvent 24 40 = 0 := by
  unfold Claims.tablePacketOk; decide +kernel
/-- Ring 0 with an EVENT recorded, of 42 to `a`; with its WAITV held; stopped, with an ERROR in its control block. -/
def evented (a : Nat) : State := { ring0 pEvent 64 with rings := [(0, { configured := true, base := 0x4000, size := 4096, ctl := 0x600, events := [(1, a, 42, true, 0)] })] }
def heldAt (v : Nat) : State := { ring0 (pWaitv v) 64 with rings := [(0, { configured := true, base := 0x4000, size := 4096, ctl := 0x600, held := true })] }
def launch0 : Launch := { packet := BitVec.ofNat 512 pLaunch, args := 0x1234, task := 0xFFFFFFFF }
def listed (l : Launch) : State := { m0 with pkgs := [(0, { launches := [l], nextLaunch := 1 })] }
theorem witness_EventsAndStopsAreWritten : launchesDone (evented 0x100) 0 1 = true ∧ launchesDone { evented 0x100 with pkgs := [(0, { launches := [launch0] })] } 0 1 = false ∧
    isOk (frontWrite (modRing (evented 0x100) 0 (fun x => { x with events := [] })) 0 0x100 8 42).2 = true ∧
    isOk (frontWrite (modRing (evented 0x100000) 0 (fun x => { x with events := [] })) 0 0x100000 8 42).2 = false ∧
    (getRing (ring0 pEvent 64) 0).events = [] ∧ isOk (frontSpan m0 0 0x100000 8 1) = false ∧
    (∀ v ∈ [42, 43], (getRing (heldAt v) 0).held = true ∧ (lookRing (heldAt v) 0).2 = .packet (pWaitv v) 0 ∧
      (match (frontRead (lookRing (heldAt v) 0).1 0 0x100 8).2 with | .ok w => w == 42 | .error _ => false) = true) ∧
    (∀ h ∈ [64, 64 + 2 ^ 639], (getRing (ring0 pEvent h) 0).lost = false ∧
      (match (frontRead (ring0 pEvent h) 0 0x648 8).2 with | .ok e => e.testBit 63 == decide (h ≠ 64) | .error _ => false) = true ∧
      isOk (frontWrite (frontRead (ring0 pEvent h) 0 0x648 8).1 0 0x640 8 64).2 = true) ∧
    isOk (frontWrite (ring0 pEvent 64) 0 0x648 8 (2 ^ 63 + 6 * 2 ^ 48)).2 = true := by decide +kernel
/-- Completions at the task unit of die 0; task 5 READY with its packet at 0x4000; a batch of node 3 open, with a timer, and closed with a
packet of one crew. -/
def doneAt (l : List (Nat × Nat × Nat × Lanes)) : State := { tasks0 with taskUnits := [(0, { (getUnit tasks0 0) with done := l })] }
def ready0 (p : Nat) : State :=
  { ring0 p 64 with tasks := [(5, BitVec.ofNat 256 (2 ^ 31 + 2 ^ 30 + 0x4000 * 2 ^ 128))], taskUnits := [(0, { loader := [(5, (1, 64))] })] }
def batchOf (p stage timer : Nat) : State :=
  { ring0 p 64 with nodes := [(3, BitVec.ofNat 256 (0x4000 + 2 * 2 ^ 64 + 4 * 2 ^ 96 + timer * 2 ^ 112))]
                    taskUnits := [(0, { store := 0x800, units := 64, nodeRing := [(3, 1)], batches := [{ bin := 3, count := 1, units := 3, stage := stage }] })] }
def batch1 (stage timer : Nat) : State := batchOf pLaunch stage timer
/-- The interface of wave 0's launch is frozen, and this launch is what the SYSOP leaves running. -/
def halfFrozen : State :=
  modIface tasks0 (getWave tasks0 0).vif (fun i => { i with frozen := true, exempt := (getCrew tasks0 (getWave tasks0 0).crew).launch + 1 })
theorem witness_TasksAndBatchesLaunch : (getUnit (doneAt [(6, 0, 0, 1), (5, 0, 2, 3)]) 0).done = [(6, 0, 0, 1), (5, 0, 2, 3)] ∧ (getUnit tasks0 0).done = [] ∧
    (let x := 5 * 2 ^ 32 + 6 * 2 ^ 48
     taskSucc x 0 = 5 ∧ getTask tasks0 0 5 % 65536 = 1 ∧ taskSucc x 1 = 6 ∧ getTask tasks0 0 6 % 65536 = 0) ∧
    nextTask tasks0 0 = none ∧ nextTask (ready0 pLaunch) 0 = some (0, 5) ∧ listFull (ready0 pLaunch) 0 = false ∧
    (let s : State := { ready0 pLaunch with pkgs := [(0, { launches := List.replicate Config.launchList {} })] }
     nextTask s 0 = some (0, 5) ∧ listFull s 0 = true) ∧
    (∀ p ∈ [pLaunch, pLaunch + 2 ^ 11], (let s := ready0 p
      let u := frontRead (setTask s 0 5 (getTask s 0 5 - 2 ^ 30)) 0 0x4000 64
      (match u.2 with | .ok q => q == p && (launchReason u.1 0 p).isNone == decide (p = pLaunch) | .error _ => false) = true)) ∧
    (openBatch (getUnit (batch1 0 9) 0) 3).isSome = true ∧ nodeTimer (getNode (batch1 0 9) 0 3) = 9 ∧ nodeTimer (getNode (batch1 0 0) 0 3) = 0 ∧
    nextBatch (batch1 0 0) 0 = none ∧ (nextBatch (batch1 1 0) 0).isSome = true ∧
    (∀ p ∈ [pLaunch, pLaunch + 2 ^ 11], (let s := batchOf p 1 0
      let u := frontRead s 0 (getNode s 0 3 % 2 ^ 64) 64
      (match u.2 with | .ok q => q == p && lCrews q == 1 && (launchReason u.1 0 q).isNone == decide (p = pLaunch) | .error _ => false) = true)) ∧
    unitsStopped tasks0 0 = false ∧ unitsStopped halfFrozen 0 = true ∧
    (let s := modIface (batch1 0 9) 0 (fun i => { i with frozen := true })
     (getIface s (nodeVif (getUnit s 0) 3)).frozen = true) ∧
    (let u := getUnit (batch1 1 0) 0
     (∀ d ∈ u.batches, d.bin < 4096 ∧ d.num < 2 ^ 32) ∧
       (match nextBatch (batch1 1 0) 0 with | some b => u.batches.contains b && b.stage == 1 | none => false) = true) := by decide +kernel
/-- The same launch with a shadow wave for each of its waves, that starts at 0x2000. -/
def launch1 : Launch := { launch0 with packet := BitVec.ofNat 512 (pLaunch + 0x2000 * 2 ^ 192) }
theorem witness_PlacementStartsCrews : rankedLaunches m0 0 = [] ∧
    (∀ l ∈ [launch0, launch1], rankedLaunches (listed l) 0 = [l] ∧ nextFrozen (listed l) l = none ∧ (findPlace (listed l) l 0).isSome = true ∧
      (depOf (listed l) l 0).2 = .met ∧ lShadow l.packet.toNat = decide (l = launch1) ∧ lSlots l.packet.toNat ≤ 64) ∧
    (let s := { listed launch0 with cores := [(0, { failed := true })] }
     rankedLaunches s 0 = [launch0] ∧ findPlace s launch0 0 = none) := by decide +kernel

/-! ### Command words and contexts -/

/-- `m0` with context 0 of die 0 RUNNING at word 1 of its list, which is `w`; its members are dies 0 and 2. -/
def ctx1 : Context := { status := 0x40000020, list := 0x1000, desc := 2, members := [member 0, member 2] }
def running (w : Nat) (f : Context → Context) : State := { m0 with ctxs := [(0, f ctx1)], cache := [held 0x420 (w * 2 ^ 128)] }
/-- SEND, RECV, RSCAT and AGATH of 4 elements at 0x200, with rank 1; MCAST of 16 bytes at 0x200; a wide SIGNAL of 1 at 0x300; a LOOP back
by one word, twice; HALT. -/
def wSend (code : Nat) : Nat := code + 2 ^ 16 + 0x200 * 2 ^ 32 + 4 * 2 ^ 96
def wMcast : Nat := 5 + 0x200 * 2 ^ 32 + 16 * 2 ^ 96
def wSignal : Nat := 0x106 + 0x300 * 2 ^ 32 + 2 ^ 96
def wLoop : Nat := 7 + 2 * 2 ^ 16 + 2 ^ 32
/-- The word is due, within its limits where `ok`. -/
def due (s : State) (code : Nat) (ok : Bool) : Bool := match dueWord s 0 code with | some (u, c) => cmdOk (getCtx u 0) c == ok | none => false
theorem route_to_rank (s : State) (x : Context) (c : Nat) (t : List Word) (h : x.members = [member 0, member 2]) :
    routeRank s x 0 1 c t = routeTo s 0 2 c t := by
  obtain ⟨a, b, -⟩ := member_fields 2 (by decide)
  simp [routeRank, h, a, b]
/-- The route of a contribution in format `f` from die 0 to die 2: by the die of its rail, the format's sum, and its delivery. -/
def contribVia (s : State) (c f : Nat) : Option (List Word) :=
  ((liveRail s (c % 24) 0 1).map (railDie 0)).bind (fun meet =>
    (routeTo s meet 2 c [entry (f + 1) 29 0 0, entry 4 29 0 0]).map (fun t => dieHop 0 meet (entry (f + 1) 29 0 0 :: t)))
theorem contribution_route (s : State) (x : Context) (c : Nat) (m : BitVec 64) (hm : x.members[1]? = some m) (a : memHere m = true) (b : memDie m = 2) (hp : inPairs x 0 x.words c = false) (ha : arrival x = false) :
    contribRoute s x 0 0 1 c = contribVia s c (cfmt x) := by
  unfold contribRoute meetRoute contribVia
  simp only [hm, a, if_true, b, hp, Bool.false_eq_true, if_false, Bool.not_false, ha]
  cases liveRail s (c % 24) 0 1 with
  | none => simp
  | some r => simp
theorem packages_of_two (x : Context) (h : x.members = [member 0, member 2]) : otherCtxs x 0 = [32] ∧ pkgCtxs x 0 = [32] ∧ extraPkgs x 0 = [] := by
  obtain ⟨a, b, -⟩ := member_fields 0 (by decide)
  obtain ⟨c, d, -⟩ := member_fields 2 (by decide)
  have : otherCtxs x 0 = [32] := by simp [otherCtxs, h, a, b, c, d, ctxOf, ctxNum]
  simp [pkgCtxs, extraPkgs, this, ctxDie]
/-- A member of another pod. -/
def farMember : BitVec 64 := memberIn ((Config.ownPod.toNat + 1) % 4096) 0
theorem far_member : memHere farMember = false := by
  have next (o : Nat) (h : o < 4096) : (o + 1) % 4096 < 4096 ∧ (o + 1) % 4096 ≠ o := by omega
  obtain ⟨lt, ne⟩ := next _ Config.ownPod.isLt
  exact beq_eq_false_iff_ne.2 (by rw [farMember, (member_in _ 0 lt (by decide)).1]; exact ne)
theorem pod_of_package (m : BitVec 64) : natBits m.toNat 63 43 / 512 = memPod m := by
  simp only [natBits, memPod]; omega
theorem far_ranks {x : Context} {m f : BitVec 64} (h : x.members = [m, f]) (hm : memHere m = true) (hf : memHere f = false) : farRanks x = [1] := by
  rw [memHere, ← pod_of_package, beq_iff_eq] at hm
  rw [memHere, ← pod_of_package, beq_eq_false_iff_ne] at hf
  have hd : natBits m.toNat 63 43 ≠ natBits f.toNat 63 43 := fun e => hf (e ▸ hm)
  simp [farRanks, h, hm, hf, hd, List.range_succ]
theorem far_of_two (x : Context) (h : x.members = [member 0, farMember]) :
    farRanks x = [1] ∧ extraPkgs x 0 = [] ∧ pkgCtxs x 0 = [] ∧ spansPods x = true := by
  obtain ⟨a, b, -⟩ := member_fields 0 (by decide)
  have hq : otherCtxs x 0 = [] := by simp [otherCtxs, h, a, b, far_member, ctxOf, ctxNum]
  exact ⟨far_ranks h a far_member, by simp [extraPkgs, pkgCtxs, hq], by simp [pkgCtxs, hq], by simp [spansPods, h, far_member]⟩
/-- What a word of context 0 that names rank 1 has to send, and what cannot be read. -/
def wordReads (c : CmdWord) : Bool :=
  let s := running (wSend 3) id
  (match (readVirt (modCtx (running (wSend 1) id) 0 (fun y => { y with sent := [(1, 0)] })) 0 0 0x200 16).2 with | .ok l => l.length == 16 | .error _ => false) &&
    isOk (readElems s 0 c 0 4).2 && isOk (contribution s 0 c 0 4).2 && isOk (readElems (running (wSend 4) id) 0 c 0 4).2 &&
    !isOk (readElems s 0 { c with w1 := 0x100000 } 0 4).2 && !isOk (contribution s 0 { c with w1 := 0x100000 } 0 4).2
theorem witness_CollectiveWordsRun :
    ((∀ c ∈ [1, 2, 3, 4], due (running (wSend c) id) c true = true) ∧ due (running wMcast id) 5 true = true ∧ due (running wSignal id) 6 true = true ∧
      due (running wLoop id) 7 true = true ∧ due (running 8 id) 8 true = true ∧ due (running (wSend 1 + 2 ^ 17) id) 1 false = true ∧
      (dueWord m0 0 1).isNone = true ∧ due (running wMcast (fun x => { x with begun := true })) 5 true = true) ∧
    (let c := cmdOf (wSend 1)
     cmdBit c = false ∧ c.w3 ≤ perChunk ctx1 ∧ drainBreaks ctx1 c = false ∧ drainBreaks { ctx1 with drain := [(9, 1, 0)] } { c with w0 := 0x10101 } = true ∧
       cmdHigh c = 1 ∧ withRes ctx1 = false ∧ wire ctx1 = 0 ∧ arrival ctx1 = false ∧ cfmt ctx1 = 0 ∧ wordReads c = true) ∧
    ((routeTo m0 0 2 0 [entry 4 29 0 0]).isSome = true ∧ (contribVia m0 0 0).isSome = true ∧
      (routeTo m0 0 2 0 [entry 5 29 0 0]).isSome = true ∧ isOk (readVirt (running wMcast id) 0 0 0x200 16).2 = true ∧
      isOk (objAt (running wSignal id) 0 0 0x300) = true ∧ isOk (objAt (running wSignal id) 0 0 0x301) = false ∧ ctxRunning ctx1 = true ∧
      ctxWord ctx1 = 1 ∧ 1 < (cmdOf (wLoop + 2 ^ 33)).w1 ∧ ctx1.stopReq = false ∧ ctx1.freezing = false) ∧
    (ctx1.members[1]? = some (member 2) ∧ memHere (member 2) = true ∧ memDie (member 2) = 2 ∧ ctx1.members[0]? = some (member 0) ∧
      memHere (member 0) = true ∧ memDie (member 0) / 2 = ctxDie 0 / 2 ∧ (∀ k, inPairs ctx1 0 ctx1.words k = false) ∧
      (∃ e ∈ ({ ctx1 with drainBad := [1] } : Context).drainBad, 0 ≤ e ∧ e < 0 + 4) ∧ cmdBit (cmdOf (wSend 3 + 2 ^ 8)) = true ∧ cmdCode (cmdOf (wSend 3 + 2 ^ 8)) ≠ 5) ∧
    (∀ s, routeRank s ctx1 0 1 0 [entry 4 29 0 0] = routeTo s 0 2 0 [entry 4 29 0 0] ∧
      contribRoute s ctx1 0 0 1 0 = contribVia s 0 0) ∧
    (otherCtxs ctx1 0 = [32] ∧ pkgCtxs ctx1 0 = [32] ∧ extraPkgs ctx1 0 = []) ∧
    (let x := { ctx1 with members := [member 0, farMember] }
     farRanks x = [1] ∧ extraPkgs x 0 = [] ∧ pkgCtxs x 0 = [] ∧ spansPods x = true) := by
  obtain ⟨h, d, -⟩ := member_fields 2 (by decide)
  obtain ⟨h0, d0, -⟩ := member_fields 0 (by decide)
  have hp : ∀ k, inPairs ctx1 0 ctx1.words k = false := fun k => by simp [inPairs, show arrival ctx1 = false by decide +kernel]
  refine ⟨by decide +kernel, by decide +kernel, by decide +kernel, ⟨rfl, h, d, rfl, h0, by rw [d0]; rfl, hp, by decide, by decide +kernel, by decide +kernel⟩, fun s => ⟨route_to_rank s ctx1 0 _ rfl, ?_⟩, packages_of_two ctx1 rfl, far_of_two _ rfl⟩
  rw [contribution_route s ctx1 0 (member 2) rfl h d (hp 0) (by decide +kernel), show cfmt ctx1 = 0 by decide +kernel]
theorem witness_CollectiveContextsEnd :
    (∀ w ∈ [0, 0x40, 9, 8], let s := running w id
      ctxRunning (getCtx s 0) = true ∧ (getCtx s 0).begun = false ∧ (getCtx s 0).heldBy = 0 ∧
      (match (readCmd s 0 (ctxWord (getCtx s 0))).2 with | .ok c => cmdCode c == w | .error _ => false) = true) ∧
    (let s := running 0 (fun x => { x with list := 0x100000 })
     isOk (readCmd s 0 (ctxWord (getCtx s 0))).2 = false) ∧
    (∀ a ∈ [0, 1], let s := running wMcast (fun x => { x with begun := true, acks := a })
      (match (readCmd s 0 (ctxWord (getCtx s 0))).2 with | .ok c => cmdCode c == 5 && wordDone (getCtx s 0) 0 c == decide (a = 0) | .error _ => false) = true) ∧
    (let s : State := { running 0 (fun x => { x with begun := true, status := 0x40000000 + 32 * 32767, list := 0x1000 + 2 ^ 64 - 16 * 32766 }) with cache := [held 0x420 (wMcast * 2 ^ 128)] }
     (match (readCmd s 0 (ctxWord (getCtx s 0))).2 with | .ok c => wordDone (getCtx s 0) 0 c && ctxWord (getCtx s 0) + 1 == 32768 | .error _ => false) = true) ∧
    awaiting (running (wSend 2) (fun x => { x with begun := true })) 0 = true ∧ awaiting (running (wSend 2) id) 0 = false ∧
    (getCtx (running 8 (fun x => { x with aborted := true })) 0).aborted = true ∧ (getCtx (running 8 (fun x => { x with freezeIn := 1 })) 0).freezeIn ≠ 0 ∧
    (getCtx (running 8 (fun x => { x with thawIn := [(1, 4)] })) 0).thawIn = [(1, 4)] ∧ ctx1.members[1]? = some (member 2) := by
  refine ⟨?_, ?_, ?_, ?_, ?_, ?_, rfl, by decide, rfl, rfl⟩ <;> decide +kernel

/-! ### Packets, links, bulk reservation -/

/-- `m0` with one packet at the hub of die 0, of some route and kind. -/
def pktAt (k : PktKind) (st : List Word) : Packet := { id := 1, kind := k, stack := st, orig := st, addr := 0x200, barrier := 0x300, payload := natBytes 4 7 }
def carries (p : Packet) : State := { m0 with packets := [p] }
def fwdTo (port : Nat) : Packet := pktAt .send [entry 0 port 2 0, entry 4 29 0 0]
def ports0 (t : Port) : State := { carries (fwdTo 0) with ports := [(0, t)] }
def downPorts : State := { carries (fwdTo 0) with ports := (List.range 24).map (fun r => (2 * r, { up := false })) }
/-- The packet of a SEND of 4 elements, and the context that runs the RECV for it. -/
def sentPkt (total : Nat) : Packet := { pktAt .send [entry 4 29 0 0] with addr := 0, index := 1, total := total }
def receives (p : Packet) : State := { running (wSend 2 - 2 ^ 16) (fun x => { x with begun := true, recvs := [(0, 1)] }) with packets := [p] }
/-- Packets 1 and 2 of the bulk class, in that order, in the ingress buffer of die 0. -/
def bulkPkt (id : Nat) : Packet := { fwdTo 29 with id := id, ingress := 0, arr := id, payload := List.replicate 4096 0 }
def twoBulk : State := { m0 with packets := [bulkPkt 1, bulkPkt 2] }
/-- How a packet matches: 0 it waits, 1 the words disagree, 2 it belongs to the word. -/
def matches' (s : State) (p : Packet) : Nat := match matchWord s p with | .wait => 0 | .bad => 1 | .word _ => 2
theorem witness_PacketsTakeTheirRoutes :
    (∀ p ∈ [fwdTo 0, fwdTo 24, fwdTo 25, pktAt .mcast [entry 4 29 0 0], pktAt .signal [entry 5 29 0 0], pktAt .mcast [entry 3 29 0 1, entry 4 29 0 0],
        pktAt .rscat [entry 1 29 0 2, entry 4 29 0 0], pktAt .rscat [entry 2 29 0 2, entry 4 29 0 0], sentPkt 4],
      getPkt (carries p) 1 = some p ∧ atHub p = true ∧ routeError p = false ∧ p.stack ≠ [] ∧ bulkTurn (carries p) p = true) ∧
    ([fwdTo 0, fwdTo 24, fwdTo 25].map (fun p => p.stack.map (fun e => (entOp e, entPort e)))) = [[(0, 0), (4, 29)], [(0, 24), (4, 29)], [(0, 25), (4, 29)]] ∧
    (Claims.hubRow (.fwd 1) = some (1, 0) ∧ getPkt m0 1 = none ∧ atHub { fwdTo 0 with out := 1 } = false) ∧
    (liveRail downPorts 0 0 1 = none ∧ liveRail (ports0 {}) 0 0 1 = some 0 ∧ (getPort (ports0 {}) 0).retry.length + flitCount (fwdTo 0) ≤ 512 ∧
      512 < (getPort (ports0 { retry := List.replicate 512 ⟨0, 9, false⟩ }) 0).retry.length + flitCount (fwdTo 0) ∧ outranked (ports0 {}) (fwdTo 0) 0 = false ∧
      outranked { ports0 {} with packets := [fwdTo 0, { fwdTo 0 with id := 2, payload := List.replicate 4096 0 }] } (fwdTo 0) 0 = true ∧
      getPkt (carries (fwdTo 29)) 1 = some (fwdTo 29) ∧ atHub (fwdTo 29) = true ∧ routeError (fwdTo 29) = false ∧ entPort (entry 0 29 2 0) = 29) ∧
    (ctxIface m0 0 = some 0 ∧ ctxIface State.reset 0 = none ∧ isOk (writeVirt m0 0 0 0x200 false (natBytes 4 7)).2 = true ∧
      isOk (writeVirt m0 0 0 0x100200 false (natBytes 4 7)).2 = false) ∧
    (matches' m0 (sentPkt 4) = 0 ∧ matches' (receives (sentPkt 5)) { sentPkt 5 with stack := [] } = 1 ∧
      matches' (receives (sentPkt 4)) { sentPkt 4 with stack := [] } = 2 ∧ isOk (writeVirt (receives (sentPkt 4)) 0 0 0x200 false (natBytes 4 7)).2 = true) ∧
    (isOk (objAt m0 0 0 0x300) = true ∧ isOk (objAt m0 0 0 0x301) = false) ∧
    (smGet ([(1, [0x8000])] : SMap (List Word)) [] (64 * 0 + entArg (entry 3 29 0 1) % 64) = [0x8000] ∧ entPort 0x8000 = 0 ∧
      railUp m0 0 0 (entDie 0x8000 / 2) = true ∧ railUp downPorts 0 0 (entDie 0x8000 / 2) = false) ∧
    (let p := pktAt .rscat [entry 4 29 0 0]
     let h : Held := ⟨0, 1, { p with id := 0 }⟩
     m0.held.find? (fun h => sameNode h p) = none ∧ ([h].find? (fun h => sameNode h p)) = some h ∧ h.count + 1 < 3) ∧
    (routeError (pktAt .send []) = true ∧ (let p := { pktAt .send [entry 4 29 0 0] with ingress := 0 }
      p.stack.all (fun e => entOp e != 0) = true ∧ p.ingress ≠ 29 ∧ p.resent = false)) := by decide +kernel
-- the same statement's packets that wait their turn, and those of remote accesses
theorem witness_PacketTurns : getPkt twoBulk 2 = some (bulkPkt 2) ∧
    bulkTurn twoBulk (bulkPkt 2) = false ∧ bulkTurn twoBulk (bulkPkt 1) = true ∧ atHub (bulkPkt 2) = true ∧
    (∀ k ∈ [PktKind.request, .response], let p := pktAt k [entry 4 29 0 0]
      getPkt (carries p) 1 = some p ∧ atHub p = true ∧ routeError p = false ∧ bulkTurn (carries p) p = true ∧ ofWord p = false) ∧
    (let p := { pktAt .request [] with index := 5 }
     getOp (opState farLoad) p.index = some farLoad ∧ routeError p = true ∧ ofWord p = false ∧ ofWord (pktAt .send []) = true) ∧
    (let p := { pktAt .rscat [entry 0 25 2 0, entry 4 29 0 0] with id := 2, ingress := 3 }
     let q := { p with id := 1, ingress := 1, stack := [entry 1 29 0 2, entry 0 25 2 0, entry 4 29 0 0] }
     earlierPort { carries q with packets := [p, q] } p (entry 1 29 0 2) = true) ∧
    (let p := { pktAt .rscat [entry 4 25 2 0] with chunk := 1 }
     let h : Held := ⟨0, 1, { p with id := 0, chunk := 0, payload := List.replicate 4096 0 }⟩
     shareRoom { carries p with held := List.replicate 32 h } p = false) := by
  refine ⟨rfl, ?_⟩; decide +kernel
/-- Link 1, into package 0, with `t` at its end. -/
def link1 (t : Port) (p : Packet) : State := { m0 with ports := [(1, t)], packets := [p] }
def crossing : Packet := { fwdTo 0 with out := 2, ingress := 30 }
/-- 193 packets of 4,096 bytes at the hub of die 0, beside one that crosses link 1. -/
def fullHub : State :=
  { link1 { wire := [⟨0, 1, true⟩] } { crossing with drop := true } with
    packets := { crossing with drop := true } :: (List.range 193).map (fun i => { id := i + 2, drop := true, ingress := 0, payload := List.replicate 4096 0 }) }
def bulk0 : Bulk := { dst := 2, bytes := 5000000 }
def bulkAt (b : Bulk) (p : Packet) : State := { carries p with bulks := [b] }
def lost1 : Packet := { fwdTo 0 with dst := 2, dropped := 1, out := 0 }
theorem witness_LinksAndReservations :
    ((getPort m0 1).wire = [] ∧ linkUp m0 1 = true ∧ linkUp (link1 {} crossing) 1 = true ∧ linkUp downPorts 1 = false) ∧
    (∀ f ∈ [(⟨0, 1, true⟩ : Flit), ⟨0, 1, false⟩, ⟨3, 1, true⟩], (getPort (link1 { wire := [f] } crossing) 1).wire = [f] ∧ (f.seq = 3 ∨ f.seq = (getPort (link1 { wire := [f] } crossing) 1).recvSeq)) ∧
    (getPkt (link1 {} crossing) 1 = some crossing ∧ crossing.out = 1 + 1 ∧ crossing.drop = false ∧ 786432 < bulkBytes fullHub 0 ∧
      getPkt fullHub 1 = some { crossing with drop := true }) ∧
    (let t : Port := { ackIn := some 5, nakIn := some 5, retry := [⟨4, 1, false⟩, ⟨5, 1, true⟩, ⟨6, 2, true⟩], unacked := 15, nakSent := true, replays := 8 }
     let s := link1 t crossing
     (getPort s 1).ackIn = some 5 ∧ (getPort s 1).nakIn = some 5 ∧ t.retry.findIdx? (fun f => f.seq == 5) = some 1 ∧ (∀ f ∈ t.retry, f.seq ≠ 9) ∧ t.unacked ≠ 0 ∧
       t.nakSent = true ∧ linkUp s 1 = true ∧ 8 ≤ (getPort s 1).replays) ∧
    (getPkt (carries lost1) 1 = some lost1 ∧ lost1.dropped = 1) ∧
    (∀ b ∈ [{ bulk0 with gathering := true }, { bulk0 with requested := true }, { bulk0 with requested := true, granted := true }, { bulk0 with scheduled := true },
        { bulk0 with scheduled := true, quota := 9 }], (bulkAt b lost1).bulks[0]? = some b) ∧
    0 < (grantFor m0 1 5000000).2.1 ∧ pendingBulk (bulkAt bulk0 { lost1 with dropped := 2 }) bulk0 = [{ lost1 with dropped := 2 }] ∧
    pendingBulk (bulkAt bulk0 { fwdTo 0 with drop := true }) bulk0 = [{ fwdTo 0 with drop := true }] := by decide +kernel

/-! ### Network requests and CXL events -/

/-- A load from, and an atomic at, 0x10 of region 3, which lies at 0x100 with 256 bytes; its request, of the machine's own pod. -/
def rgetOp (k : OpKind') : Op := { id := 5, kind := k, counter := 1, space := 4, sz := 4, d := 5, vlimit := 32, lanes := [{ lane := 0, addr := 0x10 }] }
def req0 (stage : Nat) : NetReq := { id := 7, op := 5, lanes := [0], pod := Config.ownPod.toNat, region := 3, gen := 2, bytes := 4, stage := stage }
def region3 : BitVec 256 := BitVec.ofNat 256 (0x100 + 0x100 * 2 ^ 64 + 2 * 2 ^ 128 + 15 * 2 ^ 144)
def netState (k : OpKind') (stage : Nat) : State :=
  { m0 with ops := [rgetOp k], netReqs := [req0 stage], regions := [(3, region3)], wave := { wave0 with ld := 1 } }
def fullAtoms (k : OpKind') (stage : Nat) : State := { netState k stage with atomCache := List.replicate 4096 (0, 9, [], []) }
theorem full_atoms (k : OpKind') (stage : Nat) : atomFull (fullAtoms k stage) 0 = true := by
  simp [atomFull, fullAtoms, -List.reduceReplicate]
theorem due_request (s : State) (h : sendable s (req0 0) = true) : reqDue s (req0 0) = true := by
  simp only [reqDue, h]; simp [req0]
/-- A request that carries a chunk of a collective, whose packet is number 1. -/
def chunkReq (n : Nat) : NetReq := { req0 0 with coll := 1, retries := n, pkt := 1 }
def chunked : State := { netState .rget 0 with netReqs := [chunkReq 0] }
theorem witness_NetworkRequestsAreApplied :
    Claims.reqRow (.netRequest 7) = some 7 ∧ getReq m0 7 = none ∧ getReq (netState .rget 0) 7 = some (req0 0) ∧
    (reqDue (netState .rget 0) (req0 0) = true ∧ targetBusy (netState .rget 0) (req0 0) = false ∧
      contextMissing (leaves (netState .rget 0) (req0 0)) (req0 0) = true ∧ missCount (leaves (netState .rget 0) (req0 0)) 0 = 0 ∧
      (getReq (leaves (netState .rget 0) (req0 0)) 7).isSome = true ∧ (ethFrom (netState .rget 0) (reqDie (netState .rget 0) (req0 0) / 2) 0).isSome = true) ∧
    (let s := { netState .rget 0 with linkDown := (List.range 8).map (ethLink 0) }
     reqDue s (req0 0) = true ∧ (ethFrom s (reqDie s (req0 0) / 2) 0).isSome = false) ∧
    (otherPod (req0 0) = false ∧ otherPod (chunkReq 0) = true ∧ getReq chunked 7 = some (chunkReq 0) ∧ reqDue chunked (chunkReq 0) = true) ∧
    contextMissing { netState .rget 0 with regionCache := [(0, 3)] } (req0 0) = false ∧
    256 ≤ missCount { netState .rget 0 with netReqs := List.replicate 256 { op := 5, stage := 1 } } 0 ∧
    (reqDue (fullAtoms .ratom 0) (req0 0) = true ∧ targetBusy (fullAtoms .ratom 0) (req0 0) = true) ∧ reqDue (netState .rget 4) (req0 4) = false ∧
    (getOp (netState .rget 0) 5 = some (rgetOp .rget) ∧ netIface (netState .rget 0) (req0 0) = some 0 ∧
      (let e := getRegion (netState .rget 0) 0 3
       rgValid e = true ∧ rgGen e = 2 ∧ rgGen e ≠ 3 ∧ rgValid (getRegion m0 0 3) = false ∧ e.testBit (Claims.permBit .rget) = true ∧
         e.testBit (Claims.permBit .ratom) = true ∧ (region3.toNat - 2 ^ 144).testBit (Claims.permBit .rget) = false ∧ netOffset 0x10 + 4 ≤ rgLen e ∧
         rgLen e < netOffset 0xFE + 4)) ∧
    (atomKept (netState .ratom 0) (req0 0)).isNone = true ∧ (atomKept { netState .ratom 0 with atomCache := [(0, 7, [], [])] } (req0 0)).isSome = true ∧
    (canonical 0x110 = true ∧ canonical (2 ^ 60) = false ∧ isOk (translate m0 0 0 0x110 0 false).2 = true ∧ isOk (translate m0 0 0 0x100110 0 false).2 = false ∧
      poisoned m0 0x20110 4 = false ∧ poisoned { m0 with poison := [(0x20110 / 32, true)] } 0x20110 4 = true) ∧
    (missWaiters m0 0 3 = [] ∧ missWaiters (netState .rget 1) 0 3 = [7] ∧ targetBusy (netState .rget 1) (req0 1) = false ∧
      missWaiters (fullAtoms .ratom 1) 0 3 = [7] ∧ targetBusy (fullAtoms .ratom 1) (req0 1) = true) := by
  have hb (n : Nat) : targetBusy (fullAtoms .ratom n) (req0 n) = true := by
    have h1 : reqAtomic (fullAtoms .ratom n) (req0 n) = true := rfl
    have h2 : netDie (fullAtoms .ratom n) (req0 n) = 0 := rfl
    have h3 : atomKept (fullAtoms .ratom n) (req0 n) = none := by
      simp [atomKept, fullAtoms, req0, -List.reduceReplicate]
    simp only [targetBusy, h1, h2, h3, full_atoms]; rfl
  have hw (s : State) (h : s.netReqs.filter (fun q => q.stage == 1 && netDie s q == 0 && regionKey s q == 3) = [req0 1]) : missWaiters s 0 3 = [7] := by
    simp [missWaiters, h, req0]
  refine ⟨rfl, rfl, rfl, ⟨due_request _ ?_, ?_⟩, ⟨due_request _ ?_, ?_⟩, ⟨by simp [otherPod, req0], rfl, rfl, ?_⟩, ?_, ?_, ⟨due_request _ ?_, hb 0⟩, ?_, ⟨rfl, ?_⟩, ?_, ?_, ?_,
    by simp [missWaiters, m0, mapped, State.reset], hw _ rfl, ?_, hw _ rfl, hb 1⟩ <;> decide +kernel
/-- A request that has its answer; an access of pooled memory. -/
def answered : NetReq := { req0 2 with values := [(0, 42)] }
def cxlOp (k : OpKind') : Op := { id := 5, kind := k, counter := 1, sz := 4, lanes := [{ lane := 0, addr := 0x100, stage := .ready 0x2000000000100 0 0 0 }] }
def chunkDone : State := { chunked with netReqs := [{ chunkReq 7 with stage := 2 }], packets := [fwdTo 25] }
theorem witness_NetworkAnswersAndCxlEvents :
    (getReq { netState .rget 2 with netReqs := [answered] } 7 = some answered ∧ getReq (netState .rget 3) 7 = some (req0 3) ∧
      getReq chunkDone 7 = some { chunkReq 7 with stage := 2 } ∧ getReq (netState .rget 4) 7 = some (req0 4) ∧ getReq m0 7 = none) ∧
    (answered.stage = 2 ∧ answered.causes = [] ∧ (∀ a ∈ (rgetOp .rget).lanes, a.lane < 32 ∧ a.lane ∈ answered.lanes) ∧
      ((rgetOp .rget).lanes.map (·.lane)).Nodup ∧ (rgetOp .rget).counter = 1 ∧ ∃ a ∈ (rgetOp .rget).lanes, a.lane ∈ (req0 3).lanes) ∧
    ((chunkReq 7).coll ≠ 0 ∧ getPkt chunkDone 1 = some (fwdTo 25) ∧ (fwdTo 25).acked = false ∧ getPkt chunked 1 = none ∧
      (req0 0).sent = false ∧ ({ req0 2 with sent := true } : NetReq).stage ≠ 4 ∧ (req0 0).retries < 7 ∧ 7 ≤ (chunkReq 7).retries) ∧
    (let s : State := { m0 with atomCache := [(0, 7, [], [])] }
     (s.atomCache.filter (fun c => c.1 == 0))[0]? = some (0, 7, [], []) ∧ (s.atomCache.filter (fun c => c.1 == 0))[1]? = none) ∧
    (let c : Nat × Nat × Nat := (4096, 1, 0)
     4096 ≤ c.1 ∧ c.1 ≤ 4194304 ∧ 0 < c.2.1 ∧ c.2.1 - 1 + 5000 < 6000) ∧ (0 < 4 ∧ 0x1000 ≠ 0 ∧ 0x2000 % 4096 = 0) ∧ getOp m0 5 = none ∧
    (∀ k ∈ [OpKind'.load, OpKind'.store], getOp (opState (cxlOp k)) 5 = some (cxlOp k) ∧ (cxlOp k).lanes.any (cxlLane (cxlOp k)) = true ∧
      unblocked (opState (cxlOp k)) (cxlOp k) = true) ∧ opWrites .load = false ∧ opWrites .store = true ∧ (rgetOp .rget).lanes.any (cxlLane (rgetOp .rget)) = false := by
  refine ⟨⟨rfl, rfl, rfl, rfl, rfl⟩, ?_⟩
  refine ⟨?_, ?_, ?_, ?_, ?_⟩ <;> decide +kernel

/-! ### Commands of the host -/

/-- A command of function `fn` of package 0; whether it runs, for a driver's command. -/
def cmdOf0 (fn : Nat) : CmdHead := ⟨0, fn, 0x80000001⟩
/-- Its function reaches a READY package, and its queue has no ring and nothing that waits. -/
abbrev CmdOk (s : State) (c : CmdHead) : Prop :=
  (c.pkg < Config.packages ∧ c.fn ≤ Config.interfaces ∧ (getPkg s c.pkg).ready = true) ∧
    ((getQueue s (queueKey c)).again = false ∧ queueSet (getQueue s (queueKey c)) = false ∧ (getQueue s (queueKey c)).held = []) ∧
    (c.fn = 0 ∨ (getIface s (cmdVif c)).sysop.all (fun o => o.cmd.isNone) = true)
theorem cmd_runs {s : State} {c : CmdHead} (ev : Instr) (h : CmdOk s c) : Claims.Reaches s c ∧ Claims.Taken s s c ev ∧ Claims.QueueFree s c :=
  ⟨h.1, .inr (.inl ⟨h.2.1.1, .inl h.2.1.2.1, rfl⟩), h.2.1.2.2, fun f o ho => by
    rcases h.2.2 with e | e
    · exact (f e).elim
    · simpa [ho] using e⟩
abbrev VfOk (s : State) (ev : Instr) (c : CmdHead) : Prop :=
  Claims.vfRow s ev = some (c, false) ∧ CmdOk s c ∧ c.fn ≠ 0 ∧ enabled s (cmdVif c) = true
theorem vf_runs {s : State} {ev : Instr} {c : CmdHead} (h : VfOk s ev c) : Claims.VfRuns s s ev c :=
  let ⟨a, b, d⟩ := cmd_runs ev h.2.1
  ⟨h.1, a, h.2.2.1, b, d, h.2.2.2⟩
/-- `m0` with the queue of function 1 at 0x20000 of die 0's memory, of 4 KiB, with its area at 0x21000, and the command `x` in it; with a
PHASESET that waits. -/
def queued (x : Nat) (q : CmdQueue → CmdQueue) : State :=
  { m0 with cmdqs := [(1, q { base := 0x20100, size := 4096, area := 0x21000, head := 64 })], cache := [held 0x402 x] }
def phase1 : Nat := 4 + 0x80000001 * 2 ^ 32
def waits1 : State := queued phase1 (fun q => { q with held := [.phaseset (cmdOf0 1) 1 9] })
/-- `m0`, its wave halted in its handler; with a `SYSOP` command in progress. -/
def halted0 (e : Nat) : State := { mapped { wave0 with status := .halted 0x3E4 e, pathA := {} } with crews := m0.crews }
def commanded0 : State := { m0 with ifaces := [(0, { sysop := some { cmd := some (cmdOf0 1) } })] }
theorem witness_DriverCommandsComplete : let c := cmdOf0 1
    (∀ ev ∈ [Instr.regionModeSwitch c 0 128, .invalidate c 0 0x10000, .esload c 1 (2 ^ 12), .phaseset c 1 9, .ringcfg c 3 0x4000 4096 0x600,
        .rdesc c (.region 3 region3), .rdesc c (.remote 3 7), .bufmap c 0 0, .ctrread c 4 1 true, .ctrread c 0 0 false, .sysopVacate c 0x10000 1,
        .sysopVacate c 0 0, .sysopVacate c 0x1000 1, .sysopFreeze c 0x10000 0xFFFFFFFF, .sysopFreeze c 0x10000 0, .sysopThaw c 0x10000, .sysopThaw c 0x1000],
      VfOk m0 ev c) ∧
    (∀ ev ∈ [Instr.sysopVacate c 0x10000 1, .sysopFreeze c 0x10000 0xFFFFFFFF, .sysopThaw c 0x10000], VfOk busy0 ev c) ∧
    (sysopCause busy0 0 0 0x10000 1 true = some 0x3C0 ∧ sysopCause m0 0 0 0x1000 1 true = some 0x3C1 ∧ sysopCause m0 0 0 0x10000 1 true = none ∧
      sysopCause m0 0 0 0 0 false = none ∧ sysopCause m0 0 1 0x10000 0xFFFFFFFF true = none ∧ sysopCause m0 0 2 0x10000 0 true = none) ∧
    (let s : State := { m0 with part := [(0, BitVec.ofNat 2048 (part0.toNat + 64 * 2 ^ 192 + 0x8000 * 2 ^ 64))] }
     VfOk s (.bmread c 9 3) c ∧ 9 % 8 + 3 ≤ 8) ∧
    (Claims.vfRow m0 (.phaseset c 2 9) = some (c, true) ∧ Claims.vfRow m0 (.phaseset (cmdOf0 0) 1 9) = some (cmdOf0 0, false) ∧
      Claims.vfRow m0 (.phaseset (cmdOf0 2) 1 9) = some (cmdOf0 2, false) ∧ enabled m0 (cmdVif (cmdOf0 2)) = false ∧
      (getIface m0 (cmdVif (cmdOf0 2))).sysop = none ∧ Config.interfaces < (cmdOf0 65).fn ∧
      (getPkg { m0 with pkgs := [(0, { ready := false })] } 0).ready = false) ∧
    ctrUnit m0 c 4 1 = some 1 ∧ ctrUnit m0 c 0 0 = some 0 ∧ devlOn m0 0 0 = false ∧
    devlOn { m0 with ops := [{ kind := .devl, lanes := [{ stage := .ready 0 0 0 1 }] }] } 0 0 = true ∧
    (∀ e ∈ [0x085, 0x086], let s := halted0 e
      namedHalt s 0 0 0 = some 0 ∧ Claims.vfRow s (.wavectlResume c 0 0) = some (c, false) ∧ enabled s 0 = true ∧ (getIface s 0).sysop = none ∧
      (getCrew s (getWave s 0).crew).spilled = false ∧ (getWave s (mainWave s 0)).status = .halted 0x3E4 e ∧ handlerValid s (mainWave s 0) e = decide (e = 0x085)) ∧
    (getIface busy0 0).sysop ≠ none := by
  refine ⟨?_, ?_, ?_, ?_, ?_, ?_⟩ <;> decide +kernel
/-- The state with the next command taken from its ring; that command may be taken. -/
def took (s : State) : State := modQueue s 1 (fun q => { q with taken := q.taken + 64 })
theorem next_taken {s : State} {ev : Instr} (h : let q := getQueue s 1
    q.again = false ∧ queueSet q = true ∧ q.taken ≠ q.head ∧ rawBad (ringCommand s q) = false ∧ opcOf ev = some (rawOpc (ringCommand s q)) ∧
      rawTag (ringCommand s q) = (cmdOf0 1).tag) : Claims.Taken s (took s) (cmdOf0 1) ev :=
  .inr (.inr ⟨h.1, h.2.1, h.2.2.1, h.2.2.2.1, h.2.2.2.2.1, h.2.2.2.2.2, rfl⟩)
theorem queue_free {s : State} {t : Word} (h : (getQueue s 1).held = [] ∧ (getIface s 0).sysop = none) : Claims.QueueFree s ⟨0, 1, t⟩ :=
  ⟨h.1, fun _ o ho => by rw [show cmdVif ⟨0, 1, t⟩ = 0 from rfl, h.2] at ho; cases ho⟩
/-- A BUFMAP that waits, with a DEVL in flight that names its entry. -/
def bufmap1 : Instr := .bufmap (cmdOf0 1) 0 0
def waits2 : State := { queued phase1 (fun q => { q with held := [bufmap1] }) with ops := [{ kind := .devl, lanes := [{ stage := .ready 0 0 0 1 }] }] }
/-- What the queue of function 1 holds after its first waiting command is tried again. -/
def heldAfter (s : State) (ev : Instr) : Option (List Instr) := after ev (modQueue s 1 (fun q => { q with held := [], again := true })) (fun t => (getQueue t 1).held)
theorem witness_CommandsAreTaken : let c := cmdOf0 1
    let ev : Instr := .phaseset c 1 9
    (let s := queued phase1 id
     Claims.vfRow s ev = some (c, false) ∧ Claims.Reaches s c ∧ Claims.Taken s (took s) c ev ∧ Claims.QueueFree (took s) c) ∧
    (let s := queued phase1 (fun q => { q with again := true })
     Claims.Taken s (modQueue s 1 (fun q => { q with again := false })) c ev) ∧
    (¬ ∃ u, Claims.Taken (queued phase1 (fun q => { q with taken := 64 })) u c ev) ∧
    (Claims.Taken waits1 (took waits1) c ev ∧ ¬ Claims.QueueFree (took waits1) c) ∧ ¬ Claims.QueueFree commanded0 c ∧
    (∀ x ∈ [11, phase1 + 2 ^ 8], let s := queued x id
      (queueSet (getQueue s 1) = true ∧ (getQueue s 1).taken ≠ (getQueue s 1).head ∧ (getPkg s 0).ready = true ∧
        rawBad (ringCommand s (getQueue s 1)) = true) ∧ Claims.QueueFree s ⟨0, 1, rawTag x⟩) ∧
    ((getQueue waits1 1).held = [ev] ∧ heldAfter waits1 ev = some []) ∧ ((getQueue waits2 1).held = [bufmap1] ∧ heldAfter waits2 bufmap1 = some [bufmap1]) := by
  refine ⟨⟨by decide +kernel, ⟨by decide, by decide, by decide +kernel⟩, next_taken ?_, queue_free ?_⟩, .inl ⟨?_, rfl⟩, fun ⟨u, h⟩ => ?_,
    ⟨next_taken ?_, fun h => absurd h.1 ?_⟩, fun h => ?_, fun x hx => ?_, ?_, ?_⟩
  · decide +kernel
  · decide +kernel
  · decide +kernel
  · rcases h with h | h | h
    · exact absurd h.1 (by decide +kernel)
    · exact absurd h.2.1 (by decide +kernel)
    · exact h.2.2.1 (by decide +kernel)
  · decide +kernel
  · decide +kernel
  · cases h.2 (by decide) { cmd := some (cmdOf0 1) } (by decide +kernel)
  · simp only [List.mem_cons, List.not_mem_nil, or_false] at hx
    rcases hx with rfl | rfl <;> exact ⟨by decide +kernel, queue_free (by decide +kernel)⟩
  · decide +kernel
  · decide +kernel
/-- An entry that takes all that interface 0 has. -/
def part1 : BitVec 2048 := BitVec.ofNat 2048 (part0.toNat + 2 ^ 852)
theorem witness_ManagementCommandsComplete : let c := cmdOf0 0
    (∀ ev ∈ [Instr.partset c 1 0, .partset c 1 part1, .lctset c 0 1 0x8001, .linkctlRetrain c 3, .linkctlDisable c 3, .powercap c 600, .featlock c 0 1],
      Claims.mgmtRow ev = some (c, false)) ∧ CmdOk m0 c ∧ c.fn = 0 ∧ CmdOk m0 (cmdOf0 1) ∧
    Claims.mgmtRow (.powercap c 599) = some (c, true) ∧ Claims.mgmtRow (.powercap (cmdOf0 1) 600) = some (cmdOf0 1, false) ∧ (cmdOf0 1).fn ≠ 0 ∧
    partConflict m0 0 1 part1.toNat = true ∧ partConflict m0 0 1 0 = false ∧ (getPort m0 (2 * 3)).up = true ∧ (getPort downPorts (2 * 3)).up = false ∧
    (getPort { m0 with ports := [(6, { up := false, training := true })] } (2 * 3)).training = true ∧ (getPort m0 (2 * 3)).training = false ∧
    (let port := ethLink 0 5
     let s : State := { m0 with pkgs := [(0, { ready := false, booting := true })], linkTrain := [port] }
     3 < 24 * Config.packages ∧ port ∈ s.linkTrain ∧ port ∉ m0.linkTrain ∧ (getPkg m0 0).booting = false ∧ (getPkg s 0).booting = true ∧
       (let t := { s with linkTrain := [] }
        (∀ k < 12, 24 * Config.packages + 12 * 0 + k ∉ t.linkTrain) ∧ ∀ r < 24, (getPort t (2 * (24 * 0 + r))).training = false)) := by
  decide +kernel

/-! ### Resets, power, system operations, the whole machine -/

theorem witness_ResetsAndPowerControl : 0 < Config.packages ∧ Config.packages ≤ 512 ∧ Claims.TablesWf m0 ∧ (State.reset.cache = [] ∧ partField State.reset 0 48 8 = 0) ∧ Claims.TablesWf commanded0 ∧
    Config.interfaces * Config.packages ≤ 64 * 512 ∧ 0 < Config.interfaces * Config.packages ∧ (getIface m0 0).sysop = none ∧
    (getIface commanded0 0).sysop = some { cmd := some (cmdOf0 1) } ∧
    commandOn m0 0 = none ∧ commandOn waits1 0 = some (cmdOf0 1) ∧ commandOn commanded0 0 = some (cmdOf0 1) ∧ Claims.TablesWf waits1 := by unfold Claims.TablesWf; decide +kernel
/-- An operation of each kind in progress on interface 0, of no crew, of crew 0, which runs, and of crew 3, which has none left. -/
def op0 (k : Nat) (cs : List Nat) : SysOp := { kind := k, base := 0x10000, size := 0, w := some 0, d := 8, crews := cs, cores := [] }
def inOp (o : SysOp) : State := { m0 with ifaces := [(0, { sysop := some o })] }
theorem witness_SystemOperationsComplete :
    ((getCore m0 0).failed = false ∧ (getCore { m0 with cores := [(0, { failed := true })] } 0).failed = true ∧ smWf 0 m0.lct = true ∧
      physCore m0 0 1 ≠ some 0 ∧ coreVif m0 0 = some 0 ∧ crewsOn m0 0 ≠ []) ∧
    (let s := inOp (op0 1 [0])
     drainingCrews s 0 = [0] ∧ (crewCommands s 0).isEmpty = true ∧
     drained { s with cores := (chan0 cmd0).cores, wave := { wave0 with cpy := 2 } } 0 = false ∧
     ((drainingCrews { s with cores := (chan0 cmd0).cores } 0).filter (fun ci => !(crewCommands { s with cores := (chan0 cmd0).cores } ci).isEmpty)) = [0]) ∧
    (let s : State := { m0 with ifaces := [(0, { failing := [9] })] }
     (getIface s 0).failing.find? (fun c => (crewsOn s c).all (fun kv => drained s kv.1)) = some 9) ∧
    (getIface m0 0).failing = [] ∧ (getIface m0 0).sysop = none ∧
    (∀ k < 3, let s := inOp (op0 k [3])
      (getIface s 0).failing = [] ∧ (getIface s 0).sysop = some (op0 k [3]) ∧ drained s 3 = true ∧ ctxsAtRest s 0 = true) ∧
    ctxsAtRest (running 8 id) 0 = false ∧
    (let o := op0 0 []
     o.w = some 0 ∧ o.cmd = none ∧ (getWave m0 0).crew = o.crew ∧ (getWave m0 0).status ≠ .absent) ∧
    (let o : SysOp := { kind := 2, cmd := some (cmdOf0 1) }
     o.w = none ∧ o.cmd = some (cmdOf0 1) ∧ o.crews = [] ∧ o.kind = 2) := by decide +kernel
/-- The outcome is a next state. -/
def isNext (o : Host.Outcome State Fault Refusal) : Bool := match o with | .next _ => true | _ => false
theorem next_of {o : Host.Outcome State Fault Refusal} (h : isNext o = true) : ∃ t, o = .next t := by
  cases o with
  | next t => exact ⟨t, rfl⟩
  | fault e => cases h
  | refused e => cases h
theorem witness_StepKeepsTheMemoriesCanonical : memoriesWf m0 ∧ ∃ t, step m0 = .next t := by
  constructor
  · unfold memoriesWf; decide +kernel
  · exact next_of (by decide +kernel)

end Sys2Proof.Tests
end

section
/-! PROOFS. Integer division (R140): the arithmetic of the extended operands, and what `idivR` does, said once. -/

open Sys2Proof Sys2Proof.Machine

namespace Sys2Proof.Proofs

/-! ### Extension and truncation as bit vectors -/

theorem sext_eq_toInt (x n : Nat) : sext x n = (BitVec.ofNat n x).toInt := by
  simp only [sext, BitVec.toInt_eq_toNat_cond, BitVec.toNat_ofNat]

theorem truncI_eq_toNat_ofInt (x : Int) (n : Nat) : truncI x n = (BitVec.ofInt n x).toNat :=
  (BitVec.toNat_ofInt ..).symm

theorem truncI_natCast (x n : Nat) : truncI (x : Int) n = x % 2 ^ n := by
  rw [truncI, ← Int.natCast_emod, Int.toNat_natCast]

theorem truncI_ones (n : Nat) : truncI ((2 ^ n - 1 : Nat) : Int) n = 2 ^ n - 1 := by
  rw [truncI_natCast, Nat.mod_eq_of_lt (Nat.sub_one_lt_of_lt (Nat.two_pow_pos n))]

theorem extElem_eq (uns : Bool) (n x : Nat) :
    extElem uns n x = if uns then ((x % 2 ^ n : Nat) : Int) else (BitVec.ofNat n x).toInt := by
  rw [extElem, sext_eq_toInt]

/-- Truncation undoes extension, signed or unsigned. -/
theorem truncI_extElem (uns : Bool) (n x : Nat) : truncI (extElem uns n x) n = x % 2 ^ n := by
  cases uns with
  | true => exact (truncI_natCast ..).trans (Nat.mod_mod ..)
  | false => rw [extElem_eq, truncI_eq_toNat_ofInt]; simp

theorem extElem_eq_zero_iff (uns : Bool) (n x : Nat) : extElem uns n x = 0 ↔ x % 2 ^ n = 0 := by
  constructor
  · intro h
    rw [← truncI_extElem uns, h]
    rfl
  · intro h
    cases uns <;> simp [extElem, sext, h]

/-! ### Quotient and remainder (R140) -/

theorem divRem_zero (n : Nat) (a : Int) : divRem n a 0 = (((2 ^ n - 1 : Nat) : Int), a) := if_pos rfl

theorem divRem_of_ne_zero (n : Nat) (a : Int) {b : Int} (hb : b ≠ 0) : divRem n a b = (a.tdiv b, a.tmod b) := by
  rw [divRem, if_neg hb, Int.tmod_def, Int.mul_comm]

/-- The value that `idivR` gives D from the values of A and B. -/
def quotOrRem (n : Nat) (uns wantRem : Bool) (a b : Nat) : Nat :=
  let q := divRem n (extElem uns n a) (extElem uns n b)
  truncI (if wantRem then q.2 else q.1) n

theorem quotOrRem_eq_divOf (n : Nat) (uns wantRem : Bool) (a b : Nat) :
    quotOrRem n uns wantRem a b = Claims.divOf n uns wantRem a b := by
  unfold quotOrRem Claims.divOf
  by_cases hb : b % 2 ^ n = 0
  · rw [if_pos hb, (extElem_eq_zero_iff ..).2 hb, divRem_zero]
    cases wantRem with
    | true => exact truncI_extElem ..
    | false => exact truncI_ones n
  · rw [if_neg hb, divRem_of_ne_zero _ _ (mt (extElem_eq_zero_iff ..).1 hb), truncI_eq_toNat_ofInt, extElem_eq, extElem_eq]

/-! ### Writing a destination leaves the turn -/

@[simp] theorem turnB_vWrite (x : Wave) (r l : Nat) (wide : Bool) (v : Nat) : (vWrite x r l wide v).turnB = x.turnB := by
  unfold vWrite; split <;> rfl

theorem turnB_foldl_vWrite (ls : List Nat) (r : Nat) (wide : Bool) (f : Nat → Nat) (x : Wave) :
    (ls.foldl (fun y l => vWrite y r l wide (f l)) x).turnB = x.turnB := by
  induction ls generalizing x with
  | nil => rfl
  | cons l ls ih => exact (ih _).trans (turnB_vWrite ..)

@[simp] theorem turnB_writeOpnd (x : Wave) (ex : Lanes) (o : Opnd) (f : Nat → Nat) : (writeOpnd x ex o f).turnB = x.turnB := by
  unfold writeOpnd
  split
  · split
    · rfl
    · split <;> rfl
  · exact turnB_foldl_vWrite ..

/-! ### The instruction (R140) -/

/-- The executing lanes whose divisor is zero. -/
def zeroDivisors (f : F64R) (s : State) : List Nat :=
  (lanesOf (execLanes s f.g)).filter (fun l => readOpnd s.wave (intB f) l % 2 ^ elemWidth (fW f) = 0)

theorem mem_zeroDivisors {f : F64R} {s : State} {l : Nat} : l ∈ zeroDivisors f s ↔
    (l < 32 ∧ (execLanes s f.g).getLsbD l = true) ∧ readOpnd s.wave (intB f) l % 2 ^ elemWidth (fW f) = 0 := by
  rw [zeroDivisors, List.mem_filter, mem_lanesOf, decide_eq_true_iff]

/-- The value that lane `l` of D takes. -/
def divValue (wantRem : Bool) (f : F64R) (s : State) (l : Nat) : Nat :=
  quotOrRem (elemWidth (fW f)) (fUns f) wantRem (readOpnd s.wave (intA f) l) (readOpnd s.wave (intB f) l)

theorem exec_divInstr (wantRem : Bool) (f : F64R) (s : State) :
    exec (Claims.divInstr wantRem f) s = idivR (fun _ => Claims.divInstr wantRem f) wantRem f s := by
  cases wantRem
  · exact exec_idiv64 f s
  · exact exec_irem64 f s

theorem idivR_completes (mk : F64R → Instr) (wantRem : Bool) {f : F64R} {s : State} (hd : Due s)
    (hn : topReg [intD f, intA f, intB f] ≤ 8 * s.wave.gran) (hz : fnBits f.fn 0 0 = 1 → zeroDivisors f s = []) :
    ∃ t, idivR mk wantRem f s = .next t ∧
      Retired (mk f) s { s with wave := writeOpnd s.wave (execLanes s f.g) (intD f) (divValue wantRem f s) } t := by
  have hno : ¬(fnBits f.fn 0 0 = 1 && !(zeroDivisors f s).isEmpty) = true := by
    simpa using hz
  unfold idivR
  exact runInstr_done hd rfl hn (if_neg hno) rfl (turnB_writeOpnd ..)

theorem idivR_traps (mk : F64R → Instr) (wantRem : Bool) {f : F64R} {s : State} (hi : Issuing s)
    (hn : topReg [intD f, intA f, intB f] ≤ 8 * s.wave.gran) (ht : fnBits f.fn 0 0 = 1) (hz : zeroDivisors f s ≠ []) :
    ∃ t, idivR mk wantRem f s = .next t ∧ Raised s t 0x015 (maskOf (zeroDivisors f s)) := by
  have hyes : (fnBits f.fn 0 0 = 1 && !(zeroDivisors f s).isEmpty) = true := by
    simpa [ht] using hz
  unfold idivR
  exact runInstr_fault hi.2 hn (if_pos hyes) rfl hi.1

/-- A well-formed word of either instruction has a width of 32 or 64 bits and OPT[1] zero. -/
theorem divInstr_wf {wantRem : Bool} {f : F64R} (h : (Claims.divInstr wantRem f).wf = true) : fW f ≤ 1 ∧ fnBits f.fn 1 1 = 0 := by
  have hwf : (wfAlu f 2 false (intFn f false true false 1) && pairsIf (isW64 f) f true true true false) = true := by
    cases wantRem <;> exact h
  have hfn : intFn f false true false 1 = true := by
    rw [wfAlu, wfR, Bool.and_eq_true, Bool.and_eq_true] at hwf
    exact hwf.1.2
  simp only [intFn, Bool.false_or, Bool.true_or, Bool.and_eq_true, decide_eq_true_eq] at hfn
  obtain ⟨⟨_, hw⟩, hopt⟩ := hfn
  refine ⟨hw, ?_⟩
  simp only [fnBits, natBits, Nat.shiftRight_eq_div_pow] at hopt ⊢
  omega

/-! ### The obligation -/

theorem divisionCompletes : Claims.DivisionCompletes := by
  refine ⟨fun _ _ => divInstr_wf, fun wantRem f s hd hn hz => ?_⟩
  have hnone (htrap : fnBits f.fn 0 0 = 1) : zeroDivisors f s = [] :=
    List.eq_nil_iff_forall_not_mem.2 fun l hl =>
      have ⟨⟨hlt, hex⟩, hzero⟩ := mem_zeroDivisors.1 hl
      hz htrap l hlt hex hzero
  obtain ⟨t, hexec, hret⟩ := idivR_completes (fun _ => Claims.divInstr wantRem f) wantRem hd hn hnone
  exact ⟨divValue wantRem f s, t, (exec_divInstr ..).trans hexec, hret, fun _ => quotOrRem_eq_divOf ..⟩

theorem divisionByZeroTraps : Claims.DivisionByZeroTraps := by
  rintro wantRem f s hi hn htrap ⟨l, hlt, hex, hzero⟩
  have hsome : zeroDivisors f s ≠ [] := List.ne_nil_of_mem (mem_zeroDivisors.2 ⟨⟨hlt, hex⟩, hzero⟩)
  obtain ⟨t, hexec, hraised⟩ := idivR_traps (fun _ => Claims.divInstr wantRem f) wantRem hi hn htrap hsome
  exact ⟨t, _, (exec_divInstr ..).trans hexec, hraised, fun j hj => maskOf_filter_getLsbD _ _ j hj⟩

/-- Settles O9: a TRAP form faults exactly in the executing lanes whose divisor is zero, and every other division retires with the
quotient or remainder of R140. -/
theorem divisionCompletesOrTraps : Obligations.DivisionCompletesOrTraps := by
  unfold Obligations.DivisionCompletesOrTraps
  exact ⟨divisionCompletes, divisionByZeroTraps⟩

end Sys2Proof.Proofs
end

section
/-! PROOFS. Traps raised by program (R182, R183): an instruction that acts once for its wave, and a cause raised behind an instruction that
completes. -/

open Sys2Proof Sys2Proof.Machine

namespace Sys2Proof.Proofs

/-! ### A wave-wide instruction (R88) -/

section Wide
variable {i : Instr} {g : BitVec 5} {s : State} {body : Path → Lanes → Res}

theorem runWide_idle (hd : Due s) (hex : execLanes s g = 0) : ∃ t, runWide i g none s body = .next t ∧ Retired i s s t :=
  runInstr_done hd rfl (Nat.zero_le _) (if_pos (beq_iff_eq.2 hex)) rfl rfl

theorem runWide_acts (hd : Due s) (hex : execLanes s g ≠ 0) :
    runWide i g none s body = .next (commit i s (body (curPath s.wave) (execLanes s g))) := by
  have hon : (curPath s.wave).on = true := hd
  have hbody : (if execLanes s g == 0 then Res.done s else body (curPath s.wave) (execLanes s g)) =
      body (curPath s.wave) (execLanes s g) := if_neg (mt beq_iff_eq.1 hex)
  unfold execLanes at hbody ⊢
  simp only [runWide, runInstr, hon, Bool.not_true, Bool.false_eq_true, if_false, Nat.not_lt_zero, gt_iff_lt, hbody]

end Wide

/-! ### A cause that stands already outlives a further one -/

/-- A property of a wave that raising a further cause does not end. -/
structure OutlivesRaise (P : Wave → Prop) : Prop where
  mark : ∀ x m c, P x → P (markLanes x m c)
  pend : ∀ (x : Wave) q, P x → P { x with pend := x.pend ++ [q] }
  stop : ∀ b st x, P x → P (stopAs b st x)
  step : ∀ x : Wave, P x → P { x with stepped := true }

theorem outlivesRaise_pend (q : Pending) : OutlivesRaise (fun x => q ∈ x.pend) where
  mark _ _ _ h := h
  pend _ _ h := List.mem_append_left _ h
  stop b st x h := (pend_stopAs b st x).symm ▸ h
  step _ h := h

theorem outlivesRaise_stopped : OutlivesRaise (fun x => x.status = .stopped) where
  mark _ _ _ h := h
  pend _ _ h := h
  stop b st x h := by rw [status_stopAs (by rw [h]; decide)]; exact h
  step _ h := h

theorem modWave_keeps {P : Wave → Prop} {f : Wave → Wave} (hf : ∀ x, P x → P (f x)) {s : State} {j : Nat} (w : Nat)
    (h : P (getWave s j)) : P (getWave (modWave s w f) j) := by
  rw [getWave_modWave]
  split
  · next e => subst e; exact hf _ h
  · exact h

section Outlives
variable {P : Wave → Prop} (hP : OutlivesRaise P) {s : State} {j : Nat}
include hP

theorem stopWave_keeps (w : Nat) (b : Bool) (h : P (getWave s j)) : P (getWave (stopWave s w b) j) := by
  have hmain := modWave_keeps (hP.stop b .stopped) (mainWave s w) h
  unfold stopWave
  dsimp only
  split
  · exact modWave_keeps (hP.stop b .held) _ hmain
  · exact hmain

theorem raise_keeps (w : Nat) (p : Pending) (h : P (getWave s j)) : P (getWave (raise s w p) j) := by
  unfold raise
  dsimp only
  split
  · exact h
  · exact stopWave_keeps hP _ _ (modWave_keeps (fun x => hP.pend x _) _ (modWave_keeps (fun x => hP.mark x _ _) _ h))

theorem stepTrap_keeps (w : Nat) (i : Instr) (was : Bool) (path : Nat) (m : Lanes) (h : P (getWave s j)) :
    P (getWave (stepTrap s w i was path m) j) := by
  unfold stepTrap
  split
  · exact raise_keeps hP _ _ (modWave_keeps hP.step _ h)
  · exact h

end Outlives

/-- A step trap behind a cause leaves that cause raised (R420). -/
theorem raised_stepTrap {u t : State} {c : Nat} {m : Lanes} (h : Raised u t c m) (w : Nat) (i : Instr) (was : Bool) (path : Nat)
    (act : Lanes) : Raised u (stepTrap t w i was path act) c m := by
  obtain ⟨helse, hregs, ⟨p, hp, hcause, hlanes⟩, hstop⟩ := h
  obtain ⟨kelse, kregs, -⟩ := issueSide_stepTrap t w i was path act
  refine ⟨helse.trans kelse, fun j => (hregs j).trans (kregs j),
    ⟨p, stepTrap_keeps (outlivesRaise_pend p) w i was path act hp, hcause, hlanes⟩, fun hs => ?_⟩
  rw [← getWave_cur t] at hstop
  rw [← getWave_cur, ← kelse.cur]
  exact stepTrap_keeps outlivesRaise_stopped w i was path act (hstop hs)

/-! ### A cause raised behind an instruction (R182) -/

theorem status_advance (x : Wave) (n : Nat) : (advance x n).status = x.status :=
  advance_field (·.status) (fun y b p => by unfold setPath; split <;> rfl) (fun _ _ _ => rfl) (fun _ => rfl)
    (fun y => by unfold passTurn; dsimp only; split <;> rfl) (fun _ _ _ => rfl) x n

theorem commit_trap (i : Instr) (s : State) (cause : Nat) (lanes : Lanes) (hr : s.wave.status = .running) :
    Raised { s with wave := advance s.wave (instrBytes i) } (commit i s (.trap s cause lanes)) cause lanes := by
  unfold commit
  dsimp only
  rw [modWave_self]
  exact raised_stepTrap (raise_raised { s with wave := advance s.wave (instrBytes i) } _ rfl ((status_advance ..).trans hr)) _ _ _ _ _

theorem instrBytes_trap32 (f : F32Z) : instrBytes (.trap32 f) = 4 := rfl

/-- Settles O19: TRAP completes and raises its cause behind itself, BKPT faults before it takes effect, and with no lane executing both
only go on. -/
theorem trapInstructionsRaiseTheirCause : Obligations.TrapInstructionsRaiseTheirCause := by
  unfold Obligations.TrapInstructionsRaiseTheirCause
  refine ⟨fun f hwf => ?_, rfl, fun f s hi => ⟨fun hex => ?_, fun hex => ?_, fun hex => ⟨?_, ?_⟩⟩⟩
  · have hfn : wf32Z f 127 = true := hwf
    rw [wf32Z, Bool.and_eq_true, decide_eq_true_iff] at hfn
    exact hfn.2
  · rw [exec_trap32, execTrap32, ← instrBytes_trap32 f]
    exact ⟨_, runWide_acts hi.2 hex, commit_trap _ s _ _ hi.1⟩
  · rw [exec_bkpt32, execBkpt32]
    exact ⟨_, runWide_acts hi.2 hex, commit_fault _ s s _ _ _ _ rfl hi.1⟩
  · rw [exec_trap32, execTrap32]
    exact runWide_idle hi.2 hex
  · rw [exec_bkpt32, execBkpt32]
    exact runWide_idle hi.2 hex

end Sys2Proof.Proofs
end

section
/-! PROOFS. Values moved between the lanes of a tile (R179, R180). -/

open Sys2Proof Sys2Proof.Machine

namespace Sys2Proof.Proofs

/-! ### The source lane of SHFL by mode (R179) -/

/-- The number `r` of a lane within its tile, where a tile of `w` lanes has it. -/
def within (w : Nat) (r : Int) : Option Nat := if 0 ≤ r && r < (w : Int) then some r.toNat else none

theorem within_natCast (w r : Nat) : within w r = if r < w then some r else none := by simp [within]

theorem within_sub (w l n : Nat) : within w ((l : Int) - n) = if n ≤ l ∧ l - n < w then some (l - n) else none := by
  by_cases h : n ≤ l
  · rw [← Int.natCast_sub h, within_natCast]
    simp [h]
  · rw [within, if_neg (by simp; omega), if_neg (fun hc => h hc.1)]

theorem shflFrom_idx (w l n : Nat) : shflFrom 0 w l n = if n % w < w then some (n % w) else none :=
  within_natCast w (n % w)

theorem shflFrom_up (w l n : Nat) : shflFrom 1 w l n = if n ≤ l ∧ l - n < w then some (l - n) else none :=
  within_sub w l n

theorem shflFrom_down (w l n : Nat) : shflFrom 2 w l n = if l + n < w then some (l + n) else none :=
  within_natCast w (l + n)

theorem shflFrom_xor (mode w l n : Nat) :
    shflFrom (mode + 3) w l n = if l ^^^ (n % w) < w then some (l ^^^ (n % w)) else none :=
  within_natCast w (l ^^^ (n % w))

/-- The lane that `execShfl64` reads for lane `l`. -/
def shflLane (f : F64R) (x : Wave) (ex : Lanes) (l : Nat) : Nat :=
  let w := tileWidth x
  match shflFrom (fnBits f.fn 1 0) w (l % w) (readOpnd x (opnd f.cb f.b false f.b.toNat) l) with
  | some r => if ex.getLsbD (l / w * w + r) then l / w * w + r else l
  | none => l

theorem shflLane_eq_shflSource (f : F64R) (x : Wave) (ex : Lanes) (l : Nat) : shflLane f x ex l = Claims.shflSource f x ex l := by
  unfold shflLane Claims.shflSource
  dsimp only
  match fnBits f.fn 1 0 with
  | 0 => rw [shflFrom_idx]; rfl
  | 1 => rw [shflFrom_up]; rfl
  | 2 => rw [shflFrom_down]; rfl
  | mode + 3 => rw [shflFrom_xor]; rfl

/-! ### The instructions -/

/-- The value that `execShfl64` gives lane `l` of D. -/
def shflValue (f : F64R) (x : Wave) (ex : Lanes) (l : Nat) : Nat :=
  readOpnd x (opnd f.ca f.a (f.fn.getLsbD 3) 0) (shflLane f x ex l)

/-- The value that `execPush64` gives lane `l` of D. -/
def pushValue (f : F64R) (x : Wave) (ex : Lanes) (l : Nat) : Nat :=
  match Claims.pushSource f x ex l with
  | some m => readOpnd x (opnd f.ca f.a (f.fn.getLsbD 3) 0) m
  | none => readOpnd x (opnd f.cd f.d (f.fn.getLsbD 3) 0) l

theorem shfl64_wf {f : F64R} (h : (Instr.shfl64 f).wf = true) : fnBits f.fn 5 4 = 0 ∧ fnBits f.fn 2 2 = 0 := by
  have hfn := Laws.wfR_fn (Bool.and_eq_true_iff.1 h).1
  simpa using hfn

theorem push64_wf {f : F64R} (h : (Instr.push64 f).wf = true) : f.fn = 0 ∨ f.fn = 8 := by
  have hfn := Laws.wfR_fn (Bool.and_eq_true_iff.1 h).1
  simpa using hfn

section Instructions
variable {f : F64R} {s : State} (hd : Due s)
  (hn : topReg [opnd f.ca f.a (f.fn.getLsbD 3) 0, opnd f.cb f.b false f.b.toNat, opnd f.cd f.d (f.fn.getLsbD 3) 0] ≤ 8 * s.wave.gran)
include hd hn

theorem shfl64_completes : let ex := execLanes s f.g
    ∃ t, exec (.shfl64 f) s = .next t ∧ Retired (.shfl64 f) s
      { s with wave := writeOpnd s.wave ex (opnd f.cd f.d (f.fn.getLsbD 3) 0) (shflValue f s.wave ex) } t := by
  rw [exec_shfl64, execShfl64]
  exact runInstr_done hd rfl hn rfl rfl (turnB_writeOpnd ..)

theorem push64_completes : let ex := execLanes s f.g
    ∃ t, exec (.push64 f) s = .next t ∧ Retired (.push64 f) s
      { s with wave := writeOpnd s.wave ex (opnd f.cd f.d (f.fn.getLsbD 3) 0) (pushValue f s.wave ex) } t := by
  rw [exec_push64, execPush64]
  exact runInstr_done hd rfl hn rfl rfl (turnB_writeOpnd ..)

end Instructions

/-- Settles O17: SHFL reads the lane that its mode names where that lies in the tile and executes, PUSH leaves the value of the highest
executing lane that sends, and both retire with nothing but D written. -/
theorem shuffleAndPushComplete : Obligations.ShuffleAndPushComplete := by
  unfold Obligations.ShuffleAndPushComplete
  refine ⟨fun _ => ⟨shfl64_wf, push64_wf⟩, rfl, fun f s hd => ?_⟩
  intro wide a d ex hn
  refine ⟨?_, ?_⟩
  · obtain ⟨t, hexec, hret⟩ := shfl64_completes hd hn
    exact ⟨_, t, hexec, hret, fun l _ => congrArg (readOpnd s.wave a) (shflLane_eq_shflSource f s.wave ex l)⟩
  · obtain ⟨t, hexec, hret⟩ := push64_completes hd hn
    exact ⟨_, t, hexec, hret, fun _ _ => rfl⟩

end Sys2Proof.Proofs
end

section
/-! PROOFS. Votes over the executing lanes of a tile (R178). -/

open Sys2Proof Sys2Proof.Machine

namespace Sys2Proof.Proofs

/-! ### The lanes of a tile (R175, R177) -/

/-- Lane `j` lies in the tile of lane `l`, for tiles of `w` lanes. -/
def inTile (w l j : Nat) : Bool := decide (l / w * w ≤ j) && decide (j < l / w * w + w)

theorem tileMask_getLsbD (l w j : Nat) (hj : j < 32) : (tileMask l w).getLsbD j = inTile w l j := by
  rw [tileMask, BitVec.getLsbD_ofNat, Nat.testBit_mul_two_pow, Nat.testBit_two_pow_sub_one, decide_eq_true hj, Bool.true_and, inTile]
  by_cases h : l / w * w ≤ j
  · rw [decide_eq_true h, Bool.true_and, Bool.true_and, decide_eq_decide]
    omega
  · rw [decide_eq_false h, Bool.false_and, Bool.false_and]

theorem tileMates_eq_mates (x : Wave) (ex : Lanes) (l : Nat) : tileMates x ex l = Claims.mates x ex l := by
  rw [tileMates, lanesOf, Claims.mates]
  refine List.filter_congr fun j hj => ?_
  rw [BitVec.getLsbD_and, tileMask_getLsbD _ _ _ (List.mem_range.1 hj), inTile, Bool.and_assoc]

/-! ### Predicate registers and masks written -/

/-- A predicate register's mask after lanes `ex` wrote `b` to it. -/
def predMask (x : Wave) (ex : Lanes) (d : Nat) (b : Nat → Bool) : Lanes := (pGet x d &&& ~~~ex) ||| maskOf ((lanesOf ex).filter b)

theorem writePred_eq (x : Wave) (ex : Lanes) (d : Nat) (b : Nat → Bool) : writePred x ex d b = pPut x d (predMask x ex d b) := rfl

theorem predMask_written (x : Wave) (ex : Lanes) (d : Nat) (b : Nat → Bool) :
    Claims.PredWritten ex (pGet x d) (predMask x ex d b) b := by
  intro l hl
  rw [predMask, BitVec.getLsbD_or, maskOf_filter_getLsbD _ _ _ hl, BitVec.getLsbD_and, BitVec.getLsbD_not, decide_eq_true hl]
  cases ex.getLsbD l <;> simp

theorem turnB_evalMasks (x : Wave) : (evalMasks x).turnB = x.turnB := by
  unfold evalMasks
  split
  · rfl
  · exact foldLane_field (·.turnB) (fun _ _ _ => rfl) _ (fun _ => _) x

/-! ### Kinds of operands (R84) -/

theorem class_eq_zero_of_vector {cls : BitVec 2} {f : BitVec 8} (h : opKind cls f = some .v) : cls = 0 := by
  unfold opKind at h
  split at h
  · next hcls => exact BitVec.eq_of_toNat_eq hcls
  · simp at h
  · simp at h
  · dsimp only at h
    split at h <;> simp at h

theorem class_ne_zero_of_scalar_or_mask {cls : BitVec 2} {f : BitVec 8} (h : opKind cls f = some .s ∨ opKind cls f = some .k) : cls ≠ 0 := by
  rintro rfl
  rcases h with h | h <;> cases h

theorem wfR_a {f : F64R} {d a b c : List OpKind} {rounds ok : Bool} (h : wfR f d a b c rounds ok = true) :
    accepts a f.ca f.a = true := by
  simp only [wfR, Bool.and_eq_true] at h
  obtain ⟨⟨⟨⟨⟨⟨-, -⟩, ha⟩, -⟩, -⟩, -⟩, -⟩ := h
  exact ha

theorem accepts_singleton {c : OpKind} {cls : BitVec 2} {f : BitVec 8} (h : accepts [c] cls f = true) : opKind cls f = some c := by
  unfold accepts at h
  cases hk : opKind cls f with
  | none => simp [hk] at h
  | some j => simpa [hk] using h

theorem vote64_wf {f : F64R} (h : (Instr.vote64 f).wf = true) :
    fnBits f.fn 5 2 = 0 ∧ (fnBits f.fn 1 0 = 2 → opKind f.ca f.a = some .v) ∧
    (fnBits f.fn 1 0 = 3 → opKind f.cd f.d = some .s ∨ opKind f.cd f.d = some .k → opKind f.ca f.a = some .p) := by
  have hwf : wfVote f = true := h
  rw [wfVote] at hwf
  refine ⟨?_, fun hmode => ?_, fun hmode hkind => ?_⟩
  · have hfn := of_decide_eq_true (Laws.wfR_fn hwf)
    simp only [fnBits, natBits, Nat.shiftRight_eq_div_pow]
    omega
  · rw [hmode] at hwf
    exact accepts_singleton (wfR_a hwf)
  · have hcd : ¬(f.cd == 0) = true := mt beq_iff_eq.1 (class_ne_zero_of_scalar_or_mask hkind)
    have ha := wfR_a hwf
    simp only [hmode, if_neg hcd] at ha
    exact accepts_singleton ha

/-! ### What VOTE gives (R178) -/

/-- The first vector register beyond VOTE's operands. -/
def voteTop (f : F64R) : Nat := topReg [opnd f.ca f.a false 0, opnd f.cd f.d false 0]

/-- The result of `.any`, `.all` and `.uni` in lane `l`. -/
def votePred (f : F64R) (x : Wave) (ex : Lanes) (mode l : Nat) : Bool :=
  match mode with
  | 0 => (Claims.mates x ex l).any (Claims.voteTruth f x)
  | 1 => (Claims.mates x ex l).all (Claims.voteTruth f x)
  | _ => (Claims.mates x ex l).all (fun j => decide (vGet x f.a.toNat j = vGet x f.a.toNat l))

/-- The ballot: the executing lanes in which A is true. -/
def ballot (f : F64R) (x : Wave) (ex : Lanes) : Lanes := maskOf ((lanesOf ex).filter (Claims.voteTruth f x))

theorem ballot_getLsbD (f : F64R) (x : Wave) (ex : Lanes) (j : Nat) (hj : j < 32) :
    (ballot f x ex).getLsbD j = (ex.getLsbD j && Claims.voteTruth f x j) := maskOf_filter_getLsbD _ _ _ hj

/-- What lane `l` of a register receives of the ballot: its tile's bits in a vector, the whole in a scalar. -/
def ballotPart (f : F64R) (x : Wave) (ex : Lanes) (l : Nat) : Lanes :=
  if f.cd == 0 then ballot f x ex &&& tileMask l (tileWidth x) else ballot f x ex

theorem ballotPart_getLsbD {f : F64R} {x : Wave} {ex : Lanes} {l j : Nat} (hkind : opKind f.cd f.d = some .v ∨ opKind f.cd f.d = some .s)
    (hj : j < 32) : (ballotPart f x ex l).getLsbD j =
      (ex.getLsbD j && Claims.voteTruth f x j && (opKind f.cd f.d == some .s || inTile (tileWidth x) l j)) := by
  unfold ballotPart
  rcases hkind with hv | hs
  · rw [if_pos (beq_iff_eq.2 (class_eq_zero_of_vector hv)), BitVec.getLsbD_and, ballot_getLsbD _ _ _ _ hj, tileMask_getLsbD _ _ _ hj, hv]
    rfl
  · rw [if_neg (mt beq_iff_eq.1 (class_ne_zero_of_scalar_or_mask (.inl hs))), ballot_getLsbD _ _ _ _ hj, hs]
    simp

/-! ### VOTE by its mode and its destination -/

section Forms
variable {f : F64R} (s : State)

theorem execVote64_pred {mode : Nat} (hlt : mode < 3) (hmode : fnBits f.fn 1 0 = mode) (hkind : opKind f.cd f.d = some .p) :
    execVote64 f s = runInstr (.vote64 f) f.g none (voteTop f) s fun _ ex =>
      .done { s with wave := pPut s.wave (f.d.toNat % 32) (predMask s.wave ex (f.d.toNat % 32) (votePred f s.wave ex mode)) } := by
  unfold execVote64
  simp only [hmode, hkind, tileMates_eq_mates, writePred_eq]
  match mode, hlt with
  | 0, _ => rfl
  | 1, _ => rfl
  | 2, _ => rfl

theorem execVote64_mask (hmode : fnBits f.fn 1 0 = 3) (hkind : opKind f.cd f.d = some .k) (hk : f.d.toNat % 32 ≠ 0) :
    execVote64 f s = runInstr (.vote64 f) f.g none (voteTop f) s fun _ ex =>
      .done (if ex == 0 then s else writeMask s (f.d.toNat % 32) (ballot f s.wave ex)) := by
  have hpre : k0Cause (f.d.toNat % 32) = none := if_neg hk
  unfold execVote64
  simp only [hmode, hkind, if_true, hpre]
  rfl

theorem execVote64_register (hmode : fnBits f.fn 1 0 = 3) (hkind : opKind f.cd f.d ≠ some .k) :
    execVote64 f s = runInstr (.vote64 f) f.g none (voteTop f) s fun _ ex =>
      .done { s with wave := writeOpnd s.wave ex (opnd f.cd f.d false 0) (fun l => (ballotPart f s.wave ex l).toNat) } := by
  unfold execVote64
  simp only [hmode, if_neg hkind]
  rfl

end Forms

theorem vote_k0_raises {f : F64R} {s : State} (hi : Issuing s) (hkind : opKind f.cd f.d = some .k) (hk : f.d.toNat % 32 = 0) :
    ∃ t, execVote64 f s = .next t ∧ Raised s t 0x002 (activeLanes s.wave (curPath s.wave)) := by
  have hpre : (if opKind f.cd f.d = some .k then k0Cause (f.d.toNat % 32) else none) = some 0x002 := by
    rw [if_pos hkind, k0Cause, if_pos hk]
  unfold execVote64
  dsimp only
  rw [hpre]
  exact runInstr_pre hi

section Completes
variable {f : F64R} {s : State} (hd : Due s) (hn : voteTop f ≤ 8 * s.wave.gran)
include hd hn

theorem vote_pred_completes {mode : Nat} (hlt : mode < 3) (hmode : fnBits f.fn 1 0 = mode) (hkind : opKind f.cd f.d = some .p) :
    let ex := execLanes s f.g
    let k := f.d.toNat % 32
    ∃ t, execVote64 f s = .next t ∧
      Retired (.vote64 f) s { s with wave := pPut s.wave k (predMask s.wave ex k (votePred f s.wave ex mode)) } t := by
  rw [execVote64_pred s hlt hmode hkind]
  exact runInstr_done hd rfl hn rfl rfl rfl

theorem ballot_mask_completes (hmode : fnBits f.fn 1 0 = 3) (hkind : opKind f.cd f.d = some .k) (hk : f.d.toNat % 32 ≠ 0)
    (hex : execLanes s f.g ≠ 0) : ∃ t, execVote64 f s = .next t ∧
      Retired (.vote64 f) s (writeMask s (f.d.toNat % 32) (ballot f s.wave (execLanes s f.g))) t := by
  rw [execVote64_mask s hmode hkind hk]
  exact runInstr_done hd rfl hn (congrArg Res.done (if_neg (mt beq_iff_eq.1 hex))) rfl (turnB_evalMasks _)

theorem ballot_mask_idle (hmode : fnBits f.fn 1 0 = 3) (hkind : opKind f.cd f.d = some .k) (hk : f.d.toNat % 32 ≠ 0)
    (hex : execLanes s f.g = 0) : ∃ t, execVote64 f s = .next t ∧ Retired (.vote64 f) s s t := by
  rw [execVote64_mask s hmode hkind hk]
  exact runInstr_done hd rfl hn (congrArg Res.done (if_pos (beq_iff_eq.2 hex))) rfl rfl

theorem ballot_register_completes (hmode : fnBits f.fn 1 0 = 3) (hkind : opKind f.cd f.d ≠ some .k) : let ex := execLanes s f.g
    ∃ t, execVote64 f s = .next t ∧ Retired (.vote64 f) s
      { s with wave := writeOpnd s.wave ex (opnd f.cd f.d false 0) (fun l => (ballotPart f s.wave ex l).toNat) } t := by
  rw [execVote64_register s hmode hkind]
  exact runInstr_done hd rfl hn rfl rfl (turnB_writeOpnd ..)

end Completes

/-- Settles O16, by VOTE's mode and the class of its destination. -/
theorem voteCompletes : Obligations.VoteCompletes := by
  unfold Obligations.VoteCompletes
  refine ⟨fun _ => vote64_wf, rfl, fun f s hd hn => ?_⟩
  simp only [exec_vote64]
  refine ⟨fun mode hlt hmode hkind => ?_, fun hmode hkind hk hex => ?_, ballot_mask_idle hd hn,
    fun hkind hk hi => vote_k0_raises hi hkind hk, fun hmode hkind => ?_⟩
  · obtain ⟨t, hexec, hret⟩ := vote_pred_completes hd hn hlt hmode hkind
    exact ⟨_, t, hexec, hret, predMask_written _ _ _ (votePred f s.wave _ mode)⟩
  · obtain ⟨t, hexec, hret⟩ := ballot_mask_completes hd hn hmode hkind hk hex
    exact ⟨_, t, hexec, hret, ballot_getLsbD f s.wave _⟩
  · have hne : opKind f.cd f.d ≠ some .k := by rcases hkind with h | h <;> rw [h] <;> decide
    obtain ⟨t, hexec, hret⟩ := ballot_register_completes hd hn hmode hne
    exact ⟨_, t, hexec, hret, fun l _ j hj => ballotPart_getLsbD hkind hj⟩

end Sys2Proof.Proofs
end

section
/-! PROOFS. The control registers (R121 to R131, R381): what each reads as, what a write leaves of it, and CSRR and CSRW, said once for both
sizes. -/

open Sys2Proof Sys2Proof.Machine

namespace Sys2Proof.Proofs

/-! ### Fields of a word replaced -/

/-- The bits of a word, as a number, that a mask of `k` ones above bit `lo` keeps. -/
theorem and_ones_mul (w lo k : Nat) : w &&& (2 ^ k - 1) * 2 ^ lo = w / 2 ^ lo % 2 ^ k * 2 ^ lo := by
  refine Nat.eq_of_testBit_eq fun j => ?_
  rw [Nat.testBit_and, Nat.testBit_mul_two_pow, Nat.testBit_mul_two_pow, Nat.testBit_two_pow_sub_one, Nat.testBit_mod_two_pow,
    Nat.testBit_div_two_pow]
  by_cases h : lo ≤ j
  · rw [Nat.sub_add_cancel h, decide_eq_true h]
    simp [Bool.and_comm]
  · simp [h]

/-- A number with bits `lo` to `lo + k - 1` replaced, in three parts. -/
theorem replaced_parts (w v lo k : Nat) : w - (w &&& (2 ^ k - 1) * 2 ^ lo) + v * 2 ^ lo % 2 ^ (lo + k) =
    2 ^ lo * (2 ^ k * (w / 2 ^ lo / 2 ^ k) + v % 2 ^ k) + w % 2 ^ lo := by
  have hw : 2 ^ lo * (2 ^ k * (w / 2 ^ lo / 2 ^ k) + w / 2 ^ lo % 2 ^ k) + w % 2 ^ lo = w := by
    rw [Nat.div_add_mod, Nat.div_add_mod]
  have hv : v * 2 ^ lo % 2 ^ (lo + k) = 2 ^ lo * (v % 2 ^ k) := by
    rw [Nat.pow_add, Nat.mul_comm v, Nat.mul_mod_mul_left]
  rw [and_ones_mul, hv, Nat.mul_comm _ (2 ^ lo)]
  rw [Nat.mul_add] at hw ⊢
  omega

theorem testBit_replaced (w v lo k j : Nat) : (w - (w &&& (2 ^ k - 1) * 2 ^ lo) + v * 2 ^ lo % 2 ^ (lo + k)).testBit j =
    if lo ≤ j ∧ j < lo + k then v.testBit (j - lo) else w.testBit j := by
  rw [replaced_parts, Nat.testBit_two_pow_mul_add _ (Nat.mod_lt _ (Nat.two_pow_pos lo))]
  split
  · next hlow => rw [if_neg (by omega), Nat.testBit_mod_two_pow, decide_eq_true hlow, Bool.true_and]
  · rw [Nat.testBit_two_pow_mul_add _ (Nat.mod_lt _ (Nat.two_pow_pos k))]
    split
    · next hmid => rw [if_pos (by omega), Nat.testBit_mod_two_pow, decide_eq_true hmid, Bool.true_and]
    · rw [if_neg (by omega), Nat.testBit_div_two_pow, Nat.testBit_div_two_pow, show j - lo - k + k + lo = j by omega]

theorem setBits_natBits_getLsbD (w : Word) {hi lo : Nat} (v : Nat) (hlo : lo ≤ hi) {b : Nat} (hb : b < 32) :
    (setBits w hi lo (natBits v hi lo)).getLsbD b = if lo ≤ b ∧ b ≤ hi then v.testBit b else w.getLsbD b := by
  have hbit := testBit_replaced w.toNat (natBits v hi lo) lo (hi + 1 - lo) b
  rw [show lo + (hi + 1 - lo) = hi + 1 by omega] at hbit
  rw [setBits, BitVec.getLsbD_ofNat, decide_eq_true hb, Bool.true_and, hbit]
  split
  · next h =>
    rw [if_pos (by omega), natBits, Nat.testBit_mod_two_pow, Nat.testBit_shiftRight, decide_eq_true (by omega), Bool.true_and,
      show lo + (b - lo) = b by omega]
  · rw [if_neg (by omega), ← BitVec.getLsbD]

/-! ### What a control register reads as (R123, R128, R130) -/

theorem csrRead_eq_csrValue (s : State) (n : Nat) : csrRead s n = Claims.csrValue s n := by
  unfold csrRead Claims.csrValue
  dsimp only
  split
  case h_4 => exact congrArg some (by omega)
  case h_7 =>
    simp only [waveSlot, waveCore, waveDie, coreDie, corePkg]
    exact congrArg some (by omega)
  all_goals simp [*]

/-! ### The bindings of the queue registers (R131) -/

theorem nibble_eq_qcode (w i : Nat) : nibble w i = Claims.qcode w i := by
  have hplace : 2 ^ (4 * i) = 16 ^ i := Nat.pow_mul 2 4 i
  have hwidth : 2 ^ (4 * i + 3 + 1 - 4 * i) = 16 := congrArg (2 ^ ·) (show 4 * i + 3 + 1 - 4 * i = 4 by omega)
  rw [nibble, Claims.qcode, natBits, Nat.shiftRight_eq_div_pow, hwidth, hplace]

/-- The word that a write of QMAP0 or, `hi`, QMAP1 replaces. -/
def qmapWord (x : Wave) (hi : Bool) : Nat := if hi then x.qmap1.toNat else x.qmap0.toNat

/-- The queue registers of the word whose code the write of `v` changes. -/
def qmapChanged (x : Wave) (hi : Bool) (v : Nat) : List Nat :=
  (List.range 8).filter (fun i => nibble (qmapWord x hi) i != nibble v i)

/-- `qmapCause` finds a code that the word may not take. -/
def qmapReserved (x : Wave) (hi : Bool) (v : Nat) : Bool :=
  (List.range 8).any (fun i => nibble v i > 6 || (nibble v i == 1 && !(!hi && (x.shadow || x.partner.isSome))))

/-- `qmapCause` finds a changed register that the window of a pair is bound to. -/
def qmapUnbinds (x : Wave) (hi : Bool) (v : Nat) : Bool := (qmapChanged x hi v).any (fun i => nibble (qmapWord x hi) i == 1)

/-- `qmapCause` finds a changed register that holds entries. -/
def qmapHolds (x : Wave) (hi : Bool) (v : Nat) : Bool :=
  (qmapChanged x hi v).any (fun i => !(smGet x.q [] ((if hi then 8 else 0) + i)).isEmpty)

theorem qmapCause_eq (x : Wave) (hi : Bool) (v : Nat) : qmapCause x hi v =
    if qmapReserved x hi v || qmapUnbinds x hi v then some 0x002 else if qmapHolds x hi v then some 0x206 else none := by
  have hfirst (a b c : Bool) : firstCause [(a, 0x002), (b, 0x002), (c, 0x206)] =
      if a || b then some 0x002 else if c then some 0x206 else none := by
    cases a <;> cases b <;> cases c <;> rfl
  exact hfirst ..

theorem mem_qmapChanged {x : Wave} {hi : Bool} {v i : Nat} : i ∈ qmapChanged x hi v ↔
    i < 8 ∧ Claims.qcode (if hi then x.qmap1 else x.qmap0).toNat i ≠ Claims.qcode v i := by
  rw [qmapChanged, List.mem_filter, List.mem_range, bne_iff_ne, nibble_eq_qcode, nibble_eq_qcode, qmapWord, apply_ite BitVec.toNat]

theorem qmapReserved_iff {x : Wave} {hi : Bool} {v : Nat} : qmapReserved x hi v = true ↔
    ∃ i < 8, Claims.qcode v i > 6 ∨ (Claims.qcode v i = 1 ∧ (hi = true ∨ (x.shadow = false ∧ x.partner = none))) := by
  simp [qmapReserved, nibble_eq_qcode]

theorem qmapUnbinds_iff {x : Wave} {hi : Bool} {v : Nat} : qmapUnbinds x hi v = true ↔
    let old := (if hi then x.qmap1 else x.qmap0).toNat
    ∃ i < 8, Claims.qcode old i ≠ Claims.qcode v i ∧ Claims.qcode old i = 1 := by
  simp only [qmapUnbinds, List.any_eq_true, mem_qmapChanged, beq_iff_eq, nibble_eq_qcode, qmapWord, apply_ite BitVec.toNat, and_assoc]

theorem qmapBad_iff {x : Wave} {hi : Bool} {v : Nat} :
    Claims.qmapBad x hi v ↔ (qmapReserved x hi v || qmapUnbinds x hi v) = true := by
  simp only [Bool.or_eq_true, qmapReserved_iff, qmapUnbinds_iff, Claims.qmapBad, ← exists_or, ← and_or_left, or_assoc]

theorem qmapBusy_iff {x : Wave} {hi : Bool} {v : Nat} : Claims.qmapBusy x hi v ↔ qmapHolds x hi v = true := by
  simp only [qmapHolds, List.any_eq_true, mem_qmapChanged, Claims.qmapBusy, Bool.not_eq_true', List.isEmpty_eq_false_iff, ne_eq, and_assoc]

/-! ### The cause of a write, and the word that it leaves -/

section Causes
variable {x : Wave} {hi : Bool} {v : Nat}

theorem qmapCause_of_bad (h : Claims.qmapBad x hi v) : qmapCause x hi v = some 0x002 := by
  rw [qmapCause_eq, if_pos (qmapBad_iff.1 h)]

theorem qmapCause_of_busy (hbad : ¬ Claims.qmapBad x hi v) (h : Claims.qmapBusy x hi v) : qmapCause x hi v = some 0x206 := by
  rw [qmapCause_eq, if_neg (mt qmapBad_iff.2 hbad), if_pos (qmapBusy_iff.1 h)]

theorem qmapCause_of_free (hbad : ¬ Claims.qmapBad x hi v) (h : ¬ Claims.qmapBusy x hi v) : qmapCause x hi v = none := by
  rw [qmapCause_eq, if_neg (mt qmapBad_iff.2 hbad), if_neg (mt qmapBusy_iff.2 h)]

theorem csrWrite_qmap_refused {n c : Nat} (hn : n = 0x008 ∨ n = 0x009) (h : qmapCause x (n == 0x009) v = some c) :
    csrWrite x n v = .error c := by
  rcases hn with rfl | rfl
  · simp only [csrWrite, show qmapCause x false v = some c from h]
  · simp only [csrWrite, show qmapCause x true v = some c from h]

theorem csrWrite_qmap {n : Nat} (hn : n = 0x008 ∨ n = 0x009) (h : qmapCause x (n == 0x009) v = none) : csrWrite x n v =
    .ok (if n = 0x008 then { x with qmap0 := BitVec.ofNat 32 v } else { x with qmap1 := BitVec.ofNat 32 v }) := by
  rcases hn with rfl | rfl
  · simp only [csrWrite, show qmapCause x false v = none from h, if_true]
  · simp only [csrWrite, show qmapCause x true v = none from h, Nat.reduceEqDiff, if_false]

end Causes

/-! ### The other words that are written (R45, R124, R381) -/

/-- WSW after `v` has been written to it: STEP, BOFF, PRIO and LANEPART. -/
def wswWritten (w : Word) (v : Nat) : Word := setBits (setBits w 23 16 (natBits v 23 16)) 14 12 (natBits v 14 12)

/-- FCSR after `v` has been written to it: the flags and the enables. -/
def fcsrWritten (w : Word) (v : Nat) : Word := setBits (setBits w 4 0 (natBits v 4 0)) 12 8 (natBits v 12 8)

theorem natBits_boff (v : Nat) : natBits v 20 17 = v / 2 ^ 17 % 16 :=
  congrArg (· % 16) (Nat.shiftRight_eq_div_pow v 17)

theorem natBits_lanePart (v : Nat) : natBits v 14 12 = v / 2 ^ 12 % 8 :=
  congrArg (· % 8) (Nat.shiftRight_eq_div_pow v 12)

theorem csrWrite_wsw_refused (x : Wave) {v : Nat} (h : v / 2 ^ 17 % 16 > 8 ∨ v / 2 ^ 12 % 8 > 4) : csrWrite x 0x000 v = .error 0x002 := by
  refine if_pos ?_
  rwa [natBits_boff, natBits_lanePart, Bool.or_eq_true, decide_eq_true_iff, decide_eq_true_iff]

theorem csrWrite_wsw (x : Wave) {v : Nat} (hboff : v / 2 ^ 17 % 16 ≤ 8) (hpart : v / 2 ^ 12 % 8 ≤ 4) :
    csrWrite x 0x000 v = .ok { x with wsw := wswWritten x.wsw v } := by
  refine if_neg ?_
  rw [natBits_boff, natBits_lanePart, Bool.or_eq_true, decide_eq_true_iff, decide_eq_true_iff]
  omega

/-- Two fields replaced one after the other: a bit of either is the new one. -/
theorem ite_else_ite {α : Type} (p q : Prop) [Decidable p] [Decidable q] (a b : α) :
    (if p then a else if q then a else b) = if q ∨ p then a else b := by
  by_cases hp : p
  · rw [if_pos hp, if_pos (.inr hp)]
  · by_cases hq : q
    · rw [if_neg hp, if_pos hq, if_pos (.inl hq)]
    · rw [if_neg hp, if_neg hq, if_neg (not_or.2 ⟨hq, hp⟩)]

theorem wswWritten_getLsbD (w : Word) (v : Nat) {b : Nat} (hb : b < 32) : (wswWritten w v).getLsbD b =
    if (16 ≤ b ∧ b ≤ 23) ∨ (12 ≤ b ∧ b ≤ 14) then v.testBit b else w.getLsbD b := by
  rw [wswWritten, setBits_natBits_getLsbD _ _ (by decide) hb, setBits_natBits_getLsbD _ _ (by decide) hb, ite_else_ite]

theorem fcsrWritten_getLsbD (w : Word) (v : Nat) {b : Nat} (hb : b < 32) : (fcsrWritten w v).getLsbD b =
    if b ≤ 4 ∨ (8 ≤ b ∧ b ≤ 12) then v.testBit b else w.getLsbD b := by
  rw [fcsrWritten, setBits_natBits_getLsbD _ _ (by decide) hb, setBits_natBits_getLsbD _ _ (by decide) hb, ite_else_ite]
  simp only [Nat.zero_le, true_and]

theorem csrWrite_fcsr (x : Wave) (v : Nat) : csrWrite x 0x001 v = .ok { x with fcsr := fcsrWritten x.fcsr v } := rfl

theorem csrWrite_readOnly (x : Wave) {n : Nat} (v : Nat) (hn : n ∈ [0x002, 0x004, 0x005, 0x006, 0x007]) : csrWrite x n v = .ok x := by
  simp only [List.mem_cons, List.not_mem_nil, or_false] at hn
  rcases hn with rfl | rfl | rfl | rfl | rfl <;> rfl

/-- New control registers leave the rest of a wave as it is. -/
theorem eraseCsrs_withCsrs (x : Wave) (wsw fcsr qmap0 qmap1 : Word) (tvbase : DWord) :
    Claims.eraseCsrs { x with wsw := wsw, fcsr := fcsr, qmap0 := qmap0, qmap1 := qmap1, tvbase := tvbase } = Claims.eraseCsrs x := rfl

/-! ### The trap vector base (R381) -/

/-- TVBASE after `v` has been written to its low half, in units of 8 KiB. -/
def tvbaseLow (w : DWord) (v : Nat) : DWord := BitVec.ofNat 64 (w.toNat / 2 ^ 32 * 2 ^ 32 + v / 8192 * 8192)

/-- TVBASE after `v` has been written to its high half: canonical. -/
def tvbaseHigh (w : DWord) (v : Nat) : DWord := sextPc (w.toNat % 2 ^ 32 + 2 ^ 32 * v)

theorem csrWrite_tvbaseLow (x : Wave) (v : Nat) : csrWrite x 0x010 v = .ok { x with tvbase := tvbaseLow x.tvbase v } := rfl

theorem csrWrite_tvbaseHigh (x : Wave) (v : Nat) : csrWrite x 0x011 v = .ok { x with tvbase := tvbaseHigh x.tvbase v } := rfl

theorem sextPc_eq_signExtend (a : Nat) : sextPc a = (BitVec.ofNat 57 a).signExtend 64 := by
  rw [sextPc, truncI_eq_toNat_ofInt, sext_eq_toInt, BitVec.ofNat_toNat, BitVec.setWidth_eq]
  rfl

theorem tvbaseLow_toNat (w : DWord) {v : Nat} (hv : v < 2 ^ 32) :
    (tvbaseLow w v).toNat = w.toNat / 2 ^ 32 * 2 ^ 32 + v / 8192 * 8192 := by
  rw [tvbaseLow, BitVec.toNat_ofNat, Nat.mod_eq_of_lt]
  omega

/-! ### CSRR and CSRW by what they meet (R88, R381) -/

section Instructions
variable {i : Instr} {g : BitVec 5} {n v : Nat} {s : State}

theorem runCsrr_completes {d : Nat} (hd : Due s) (hv : Claims.csrValue s n = some v) : ∃ t, runCsrr i g d n s = .next t ∧
    Retired i s (if execLanes s g = 0 then s else { s with wave := sPut s.wave d v }) t := by
  rw [← csrRead_eq_csrValue] at hv
  simp only [runCsrr, hv, Option.isNone_some, Bool.false_eq_true, if_false]
  split
  · next hex => exact runWide_idle hd hex
  · next hex => exact ⟨_, runWide_acts hd hex, commit_done i s _ rfl rfl⟩

theorem runCsrr_unnamed {d : Nat} (hi : Issuing s) (hv : Claims.csrValue s n = none) :
    ∃ t, runCsrr i g d n s = .next t ∧ Raised s t 0x002 (activeLanes s.wave (curPath s.wave)) := by
  rw [← csrRead_eq_csrValue] at hv
  simp only [runCsrr, hv, Option.isNone_none, if_true]
  exact runInstr_pre hi

theorem runCsrw_reserved (hi : Issuing s) (h : Claims.csrValue s n = none ∨ csrWrite s.wave n v = .error 0x002) :
    ∃ t, runCsrw i g v n s = .next t ∧ Raised s t 0x002 (activeLanes s.wave (curPath s.wave)) := by
  rw [← csrRead_eq_csrValue] at h
  rcases h with hunnamed | hrefused
  · simp only [runCsrw, hunnamed, Option.isNone_none, Bool.true_or, if_true]
    exact runInstr_pre hi
  · simp only [runCsrw, hrefused, Bool.or_true, if_true]
    exact runInstr_pre hi

theorem runCsrw_busy (hi : Issuing s) (hex : execLanes s g ≠ 0) (hn : (Claims.csrValue s n).isSome)
    (h : csrWrite s.wave n v = .error 0x206) : ∃ t, runCsrw i g v n s = .next t ∧ Raised s t 0x206 (execLanes s g) := by
  obtain ⟨r, hr⟩ := Option.isSome_iff_exists.1 hn
  rw [← csrRead_eq_csrValue] at hr
  simp only [runCsrw, h, hr, Option.isNone_some, Bool.or_self, Bool.false_eq_true, if_false]
  exact ⟨_, runWide_acts hi.2 hex, commit_fault i s s _ _ _ _ rfl hi.1⟩

theorem runCsrw_completes {y : Wave} (hd : Due s) (hn : (Claims.csrValue s n).isSome) (h : csrWrite s.wave n v = .ok y)
    (hturn : y.turnB = s.wave.turnB) : ∃ t, runCsrw i g v n s = .next t ∧
      Retired i s (if execLanes s g = 0 then s else { s with wave := if n = 0 then evalMasks y else y }) t := by
  obtain ⟨r, hr⟩ := Option.isSome_iff_exists.1 hn
  rw [← csrRead_eq_csrValue] at hr
  have hturn' : (if n = 0 then evalMasks y else y).turnB = s.wave.turnB := by
    split
    · exact (turnB_evalMasks y).trans hturn
    · exact hturn
  simp only [runCsrw, h, hr, Option.isNone_some, Bool.or_self, Bool.false_eq_true, if_false]
  by_cases hex : execLanes s g = 0
  · rw [if_pos hex]
    exact runWide_idle hd hex
  · rw [if_neg hex]
    exact ⟨_, runWide_acts hd hex, commit_done i s _ rfl hturn'⟩

/-! ### Both sizes -/

theorem exec_of_csrDest {d : Nat} (hrow : Claims.csrRow i s.wave = some (g, n)) (hdest : Claims.csrDest i = some d) :
    exec i s = runCsrr i g d n s := by
  unfold Claims.csrDest at hdest
  split at hdest <;> cases hdest <;> cases hrow
  · exact exec_csrr32 ..
  · exact exec_csrr64 ..

theorem exec_of_csrSource (hrow : Claims.csrRow i s.wave = some (g, n)) (hsrc : Claims.csrSource i s.wave = some v) :
    exec i s = runCsrw i g v n s := by
  unfold Claims.csrSource at hsrc
  split at hsrc <;> cases hsrc <;> cases hrow
  · exact exec_csrw32 ..
  · exact exec_csrw64 ..

theorem csrSource_lt (hsrc : Claims.csrSource i s.wave = some v) : v < 2 ^ 32 := by
  unfold Claims.csrSource at hsrc
  split at hsrc <;> cases hsrc <;> exact BitVec.isLt _

theorem csrDest_or_csrSource (hrow : Claims.csrRow i s.wave = some (g, n)) :
    (∃ d, Claims.csrDest i = some d) ∨ ∃ v, Claims.csrSource i s.wave = some v := by
  unfold Claims.csrRow at hrow
  split at hrow
  · exact .inl ⟨_, rfl⟩
  · exact .inl ⟨_, rfl⟩
  · exact .inr ⟨_, rfl⟩
  · exact .inr ⟨_, rfl⟩
  · cases hrow

/-- A write that is accepted and leaves the wave `y`, of which `p` is said. -/
theorem csrw_writes {p : Wave → Prop} (hrow : Claims.csrRow i s.wave = some (g, n)) (hsrc : Claims.csrSource i s.wave = some v) (y : Wave)
    (hn : (Claims.csrValue s n).isSome) (hw : csrWrite s.wave n v = .ok y) (hrest : Claims.eraseCsrs y = Claims.eraseCsrs s.wave) (hp : p y)
    (hd : Due s) : ∃ t y, exec i s = .next t ∧
      Retired i s (if execLanes s g = 0 then s else { s with wave := if n = 0 then evalMasks y else y }) t ∧
      Claims.eraseCsrs y = Claims.eraseCsrs s.wave ∧ p y := by
  obtain ⟨t, hexec, hret⟩ := runCsrw_completes (i := i) (g := g) hd hn hw (congrArg Wave.turnB hrest :)
  exact ⟨t, y, (exec_of_csrSource hrow hsrc).trans hexec, hret, hrest, hp⟩

end Instructions

/-! ### The obligation -/

theorem controlRegisterReads : Claims.ControlRegisterReads := by
  refine ⟨rfl, rfl, fun i s g n hrow => ⟨fun d v hdest hv hd => ?_, fun hv hi => ?_⟩⟩
  · rw [exec_of_csrDest hrow hdest]
    exact runCsrr_completes hd hv
  · rcases csrDest_or_csrSource hrow with ⟨d, hdest⟩ | ⟨v, hsrc⟩
    · rw [exec_of_csrDest hrow hdest]
      exact runCsrr_unnamed hi hv
    · rw [exec_of_csrSource hrow hsrc]
      exact runCsrw_reserved hi (.inl hv)

theorem controlRegisterWrites : Claims.ControlRegisterWrites := by
  intro i s g n v hrow hsrc writes raises
  have hexec := exec_of_csrSource hrow hsrc
  have hqmap (hn : n = 0x008 ∨ n = 0x009) : (Claims.csrValue s n).isSome := by rcases hn with rfl | rfl <;> rfl
  have hreserved (hw : csrWrite s.wave n v = .error 0x002) : raises 0x002 := fun hi => by
    rw [hexec]
    exact runCsrw_reserved hi (.inr hw)
  have hbusy (hex : execLanes s g ≠ 0) (hn : (Claims.csrValue s n).isSome) (hw : csrWrite s.wave n v = .error 0x206) : raises 0x206 :=
    fun hi => by
      rw [hexec]
      exact runCsrw_busy hi hex hn hw
  have hwritten {p : Wave → Prop} (y : Wave) := csrw_writes (p := p) hrow hsrc y
  refine ⟨?wswReserved, ?wsw, ?fcsr, ?qmapReserved, ?qmapBusy, ?qmap, ?tvbaseLow, ?tvbaseHigh, ?readOnly⟩
  case wswReserved =>
    rintro rfl hbad
    exact hreserved (csrWrite_wsw_refused _ hbad)
  case wsw =>
    rintro rfl hboff hpart
    exact hwritten _ rfl (csrWrite_wsw _ hboff hpart) (eraseCsrs_withCsrs ..) ⟨rfl, fun b hb => wswWritten_getLsbD _ _ hb⟩
  case fcsr =>
    rintro rfl
    exact hwritten _ rfl (csrWrite_fcsr ..) (eraseCsrs_withCsrs ..) ⟨rfl, fun b hb => fcsrWritten_getLsbD _ _ hb⟩
  case qmapReserved =>
    exact fun hn hbad => hreserved (csrWrite_qmap_refused hn (qmapCause_of_bad hbad))
  case qmapBusy =>
    exact fun hn hbad hbusy' hex => hbusy hex (hqmap hn) (csrWrite_qmap_refused hn (qmapCause_of_busy hbad hbusy'))
  case qmap =>
    intro hn hbad hfree
    refine hwritten _ (hqmap hn) (csrWrite_qmap hn (qmapCause_of_free hbad hfree)) ?_ rfl
    split <;> exact eraseCsrs_withCsrs ..
  case tvbaseLow =>
    rintro rfl
    exact hwritten _ rfl (csrWrite_tvbaseLow ..) (eraseCsrs_withCsrs ..) ⟨rfl, tvbaseLow_toNat _ (csrSource_lt hsrc)⟩
  case tvbaseHigh =>
    rintro rfl
    exact hwritten _ rfl (csrWrite_tvbaseHigh ..) (eraseCsrs_withCsrs ..) ⟨rfl, sextPc_eq_signExtend _⟩
  case readOnly =>
    intro hn
    have hnamed : (Claims.csrValue s n).isSome := by
      simp only [List.mem_cons, List.not_mem_nil, or_false] at hn
      rcases hn with rfl | rfl | rfl | rfl | rfl <;> rfl
    exact hwritten _ hnamed (csrWrite_readOnly _ v hn) rfl rfl

/-- Settles O27: by the register that is named and the cause that its write meets. -/
theorem controlRegisterAccesses : Obligations.ControlRegisterAccesses := by
  unfold Obligations.ControlRegisterAccesses
  exact ⟨controlRegisterReads, controlRegisterWrites⟩

end Sys2Proof.Proofs
end

section
/-! PROOFS. WAIT (R384, R385): the condition that its thresholds state, and the instruction by where it stands in its stroke. -/

open Sys2Proof Sys2Proof.Machine

namespace Sys2Proof.Proofs

/-! ### Thresholds (R384) -/

/-- A threshold given by a hexadecimal digit of the word. -/
def digitThreshold (v : Nat) : Nat := threshold 4 (v % 16)

/-- A threshold given by a byte of a scalar. -/
def byteThreshold (v : Nat) : Nat := threshold 8 (v % 256)

theorem counterMet_threshold (v : Nat) {bits n : Nat} (hn : n < 256) :
    counterMet v (threshold bits n) = true ↔ (n ≠ 2 ^ bits - 1 → v ≤ n) := by
  unfold threshold counterMet
  split
  · next hones => simp [hones]
  · next hcond => simp [hcond, Nat.ne_of_lt hn]

theorem counterMet_digitThreshold (v n : Nat) : counterMet v (digitThreshold n) = true ↔ (n % 16 ≠ 15 → v ≤ n % 16) :=
  counterMet_threshold v (by omega)

theorem counterMet_byteThreshold (v n : Nat) : counterMet v (byteThreshold n) = true ↔ (n % 256 ≠ 255 → v ≤ n % 256) :=
  counterMet_threshold v (by omega)

/-! ### The condition of a WAIT (R384) -/

/-- The condition that WAIT places on its wave's counters, from its own fields or from a scalar pair. -/
def waitCond (f : F64R) (x : Wave) : Cond :=
  let a := sGet x f.a.toNat
  if f.fn.getLsbD 5 then
    .counters (byteThreshold (a / 2 ^ 24)) (byteThreshold (a / 2 ^ 16)) (byteThreshold (a / 2 ^ 8)) (byteThreshold a)
      (byteThreshold (sGet x (f.a.toNat + 1)))
  else
    .counters (digitThreshold (f.b.toNat / 16)) (digitThreshold f.b.toNat) (digitThreshold (f.c.toNat / 16)) (digitThreshold f.c.toNat)
      (digitThreshold f.fn.toNat)

/-- A wave with the counters of `x` meets the condition that WAIT takes from `x` exactly when its counters are at or below their
thresholds. -/
theorem condMet_waitCond {f : F64R} {x : Wave} {u : State} {w : Nat} (h : countersMet (getWave u w) = countersMet x) :
    condMet u w (waitCond f x) = true ↔ Claims.waitMet f x := by
  unfold waitCond Claims.waitMet Claims.waitRows
  split
  · have htop : sGet x f.a.toNat / 2 ^ 24 % 256 = sGet x f.a.toNat / 2 ^ 24 := Nat.mod_eq_of_lt (Nat.div_lt_of_lt_mul (BitVec.isLt _))
    simp only [condMet, h]
    simp [countersMet, counterMet_byteThreshold, htop, and_assoc, -Nat.reducePow]
  · have hhigh (v : BitVec 8) : v.toNat / 16 % 16 = v.toNat / 16 := Nat.mod_eq_of_lt (Nat.div_lt_of_lt_mul v.isLt)
    simp only [condMet, h]
    simp [countersMet, counterMet_digitThreshold, hhigh, and_assoc]

/-- WAIT by its place in the stroke and its condition (R384, R385). -/
theorem execWait64_eq (f : F64R) (s : State) : execWait64 f s = runWide (.wait64 f) f.g none s fun p ex =>
    if p.idx ≠ 0 then .fault s 0x007 ex [] 0
    else if condMet s s.cur (waitCond f s.wave) then .done s
    else .hold s (waitCond f s.wave) none := by
  unfold execWait64 waitCond
  cases f.fn.getLsbD 5 <;> simp only [condMet, getWave_cur, if_true, Bool.false_eq_true, if_false] <;> rfl

theorem condMet_waitCond_self (f : F64R) (s : State) : condMet s s.cur (waitCond f s.wave) = true ↔ Claims.waitMet f s.wave :=
  condMet_waitCond (congrArg countersMet (getWave_cur s))

/-! ### The instruction by what it meets (R384, R385) -/

section Instruction
variable {f : F64R} {s : State}

theorem wait64_idle (hd : Due s) (hex : execLanes s f.g = 0) : ∃ t, exec (.wait64 f) s = .next t ∧ Retired (.wait64 f) s s t := by
  rw [exec_wait64, execWait64_eq]
  exact runWide_idle hd hex

theorem wait64_acts (hd : Due s) (hex : execLanes s f.g ≠ 0) : exec (.wait64 f) s = .next (commit (.wait64 f) s
    (if (curPath s.wave).idx ≠ 0 then .fault s 0x007 (execLanes s f.g) [] 0
     else if condMet s s.cur (waitCond f s.wave) then .done s
     else .hold s (waitCond f s.wave) none)) := by
  rw [exec_wait64, execWait64_eq, runWide_acts hd hex]

theorem wait64_not_first (hi : Issuing s) (hex : execLanes s f.g ≠ 0) (hidx : (curPath s.wave).idx ≠ 0) :
    ∃ t, exec (.wait64 f) s = .next t ∧ Raised s t 0x007 (execLanes s f.g) := by
  rw [wait64_acts hi.2 hex, if_pos hidx]
  exact ⟨_, rfl, commit_fault _ s s _ _ _ _ rfl hi.1⟩

theorem wait64_met (hd : Due s) (hex : execLanes s f.g ≠ 0) (hidx : (curPath s.wave).idx = 0) (hmet : Claims.waitMet f s.wave) :
    ∃ t, exec (.wait64 f) s = .next t ∧ Retired (.wait64 f) s s t := by
  rw [wait64_acts hd hex, if_neg (not_not_intro hidx), if_pos ((condMet_waitCond_self f s).2 hmet)]
  exact ⟨_, rfl, commit_done _ s s rfl rfl⟩

theorem wait64_unmet (hd : Due s) (hex : execLanes s f.g ≠ 0) (hidx : (curPath s.wave).idx = 0) (hmet : ¬ Claims.waitMet f s.wave) :
    ∃ t, exec (.wait64 f) s = .next t ∧ HeldAt s t (waitCond f s.wave) none := by
  rw [wait64_acts hd hex, if_neg (not_not_intro hidx), if_neg (mt (condMet_waitCond_self f s).1 hmet)]
  exact ⟨_, rfl, commit_hold _ s s _ _ rfl rfl⟩

end Instruction

/-- Settles O26: WAIT faults where it is not first, retires where its condition is met or no lane executes it, and otherwise holds its
path under that condition, which a wave meets exactly when its counters are at or below the thresholds. -/
theorem waitOnCounters : Obligations.WaitOnCounters := by
  unfold Obligations.WaitOnCounters
  refine ⟨rfl, rfl, fun f s => ⟨fun hex hd => wait64_idle hd hex, fun hex hidx hi => wait64_not_first hi hex hidx,
    fun hex hidx hd hmet => wait64_met hd hex hidx hmet, fun hex hidx hd hmet => ?_⟩⟩
  obtain ⟨t, hexec, hheld⟩ := wait64_unmet hd hex hidx hmet
  refine ⟨t, waitCond f s.wave, hexec, hheld, fun u w => ?_⟩
  intro y
  exact condMet_waitCond (x := { s.wave with tile := y.tile, cpy := y.cpy, st := y.st, ld := y.ld, eng := y.eng }) rfl

end Sys2Proof.Proofs
end
